-- ==== Sys2Proof/Word.lean ====
section
/-! DEFINITION. The words of the engine: what 11_record_and_register_layouts.md calls u8, u16, u32 and u64. -/

namespace Sys2Proof

/-- One byte of a record, a register access or a wire frame. -/
abbrev Byte := BitVec 8

/-- A level, a tag, a colour component: an unsigned 16-bit field (00_scope.md, Conventions). -/
abbrev Level := BitVec 16

/-- A register of the window, or a detail field. -/
abbrev Word32 := BitVec 32

/-- A host address. -/
abbrev HostAddress := BitVec 64

end Sys2Proof
end

