-- ==== Sys2Proof/Syntax.lean ====
section
/-! DEFINITION. The commands of the engine: one constructor for each row of spec/opcode_table.json, in the table's
order. The operands are what the sender of the command gives with it; the table's rows list none. -/

namespace Sys2Proof

/-- The 63 bytes of a request record after its kind byte (11.1). Every field stands as it was fetched. -/
structure RecordBody where
  /-- Offset 1: bit 0 FENCE, bit 1 REPORT, bits 2 to 7 reserved. -/
  flags : Byte
  /-- Offset 2. -/
  group : Byte
  /-- Offset 3, reserved. -/
  reserved3 : Byte
  /-- Offset 4. -/
  tag : BitVec 16
  /-- Offset 6, reserved. -/
  reserved6 : BitVec 16
  /-- Offsets 8 to 63. -/
  params : List Byte
deriving DecidableEq, Repr

/-- A 64-byte request record (11.1). -/
structure RequestRecord where
  /-- Offset 0. -/
  kind : Byte
  body : RecordBody
deriving DecidableEq, Repr

/-- One item of load data, as it returns from host memory (R25, 11.5), with the model's number of the load whose read the
host answers: the data of a load that is over is discarded (R26, R32, R33; log entry 31). -/
structure LoadItem where
  load : Nat
  bytes : List Byte
deriving DecidableEq, Repr

/-- What the host answers to a read of the data of the load being fetched: an item, or an error (R25, R26). -/
inductive LoadAnswer where
  | item (item : LoadItem)
  | error
deriving DecidableEq, Repr

/-- What the host interface may bring in the midst of a frame start, so that a request joins its group there (R123, R126).
Each does what its command does. -/
inductive IntakeArrival where
  /-- INTAKE_GRANT: the intake arbiter looks for a queue to grant. -/
  | grant
  /-- The fetched record arrives. It carries a group. -/
  | record (record : RequestRecord)
  /-- FENCED_RECORD_TAKEN: the fence wait of queue `q`, whose record carries a group, may be taken. -/
  | fenced (q : Fin 4)
deriving DecidableEq, Repr

/-- How a frame start goes, where the spec leaves it open. `picks` settles each choice among the blocks' work: its next
number, reduced modulo the number of things that may be taken next, picks the one that is; a list that has run out picks
the first (log entry 1). `answers` is what the host answers to reads of load data while the blocks are at work, so that
a load may end in the midst of the frame start (R28, R81, R97; log entry 45). `intake` is what the host interface brings
while they are, so that requests of a group may join between two COMMITs of one frame (R123; log entry 42). -/
structure FrameCourse where
  picks : List Nat
  answers : List LoadAnswer
  intake : List IntakeArrival
deriving DecidableEq, Repr

/-- The commands. A request kind's command is the arrival of a fetched record of that kind (R164); its operand is the
rest of the record. -/
inductive Instr where
  /-- COLD_RESET: power-up or the COLD_RST input. -/
  | coldReset
  /-- LINK_RESET: a reset of the PCI Express link. -/
  | linkReset
  /-- CONTROL_ENABLE_SET: CONTROL.ENABLE written 1. -/
  | controlEnableSet
  /-- CONTROL_ENABLE_CLEAR: CONTROL.ENABLE written 0. -/
  | controlEnableClear
  /-- QUEUE_TABLE_READ: the host answers the read of the queue table with its 144 bytes, or (none) with an error. -/
  | queueTableRead (answer : Option (List Byte))
  /-- QTABLE_WRITE: a write to QTABLE_HI (high) or QTABLE_LO. -/
  | qtableWrite (high : Bool) (value : Word32)
  /-- SQ_TAIL_WRITE: a write to SQ_TAIL of queue `q`. -/
  | sqTailWrite (q : Fin 4) (value : Word32)
  /-- CQ_HEAD_WRITE: a write to CQ_HEAD of queue `q`. -/
  | cqHeadWrite (q : Fin 4) (value : Word32)
  /-- INT_CAUSE_WRITE: a write to INT_CAUSE. -/
  | intCauseWrite (value : Word32)
  /-- REGISTER_WRITE: any other access that writes the register window, `width` bytes at `offset`. -/
  | registerWrite (offset width : Nat) (value : Word32)
  /-- INTAKE_GRANT: the intake arbiter looks for a queue to grant. -/
  | intakeGrant
  /-- FETCH_READ_ERROR: the host answers the record fetch with an error. -/
  | fetchReadError
  /-- STALE_FETCH_RETURN: a fetch that is to be discarded returns. -/
  | staleFetchReturn
  /-- FENCED_RECORD_TAKEN: the fence wait of queue `q` may be taken. -/
  | fencedRecordTaken (q : Fin 4)
  /-- UNKNOWN_KIND_RECORD: the fetched record arrives, and its kind byte is no request kind. -/
  | unknownKindRecord (kind : Byte) (body : RecordBody)
  | nop (body : RecordBody)
  | restartQueue (body : RecordBody)
  | loadScene (body : RecordBody)
  | deleteScene (body : RecordBody)
  | queryScene (body : RecordBody)
  | configPlayback (body : RecordBody)
  | queryPlayback (body : RecordBody)
  | runCue (body : RecordBody)
  | go (body : RecordBody)
  | pause (body : RecordBody)
  | resume (body : RecordBody)
  | clear (body : RecordBody)
  | release (body : RecordBody)
  | loadBand (body : RecordBody)
  | startBand (body : RecordBody)
  | stopBand (body : RecordBody)
  | setRoll (body : RecordBody)
  | park (body : RecordBody)
  | unpark (body : RecordBody)
  | setMaster (body : RecordBody)
  | setFramePeriod (body : RecordBody)
  | readLevels (body : RecordBody)
  | showReset (body : RecordBody)
  | commit (body : RecordBody)
  | abortGroup (body : RecordBody)
  | configPort (body : RecordBody)
  | configFeed (body : RecordBody)
  | configSupply (body : RecordBody)
  | powerUp (body : RecordBody)
  | powerDown (body : RecordBody)
  | clearFault (body : RecordBody)
  | queryFeeds (body : RecordBody)
  /-- FRAME_START: the frame period expires. `course` settles what the spec leaves open inside the frame start. -/
  | frameStart (course : FrameCourse)
  /-- LATCH: 250 µs after the frame start; `safeIn` is the level of SAFE_IN that the composer samples. -/
  | latch (safeIn : Bool)
  /-- READ_LEVELS_WRITE_DONE: the host has accepted every write of the first (0) or second (1) snapshot held. -/
  | readLevelsWriteDone (which : Fin 2)
  /-- READ_LEVELS_WRITE_ERROR: the host answers a write of that snapshot with an error. -/
  | readLevelsWriteError (which : Fin 2)
  /-- ECHO_RECORD: a complete echo record arrives on the port's echo line (11.6). -/
  | echoRecord (port : Fin 8) (sequence : Byte) (check : BitVec 16)
  /-- ECHO_WINDOW_CLOSE: the port's 250 µs echo window expires. -/
  | echoWindowClose (port : Fin 8)
  /-- LOAD_ITEM_RECEIVED: the data of the next item of a load returns (11.5). -/
  | loadItemReceived (item : LoadItem)
  /-- LOAD_HOST_READ_ERROR: the host answers a read of the fetching load's data with an error. -/
  | loadHostReadError
  /-- FEED_GOOD_ASSERTED: the feed's good input becomes asserted. -/
  | feedGoodAsserted (feed : Fin 6)
  /-- FEED_GOOD_DEASSERTED: the feed's good input becomes deasserted. -/
  | feedGoodDeasserted (feed : Fin 6)
  /-- GOOD_TIMEOUT: the feed's good deadline is reached. -/
  | goodTimeout (feed : Fin 6)
  /-- RISE_INTERVAL_END: the slot interval of the rising step ends. -/
  | riseIntervalEnd
  /-- FALL_INTERVAL_END: the slot interval of the falling step ends. -/
  | fallIntervalEnd
  /-- EVENT_POST: the oldest event is looked at for posting. -/
  | eventPost
  /-- RECORD_WRITE_ACCEPTED: the host accepts the oldest unanswered record write to completion queue `q`. -/
  | recordWriteAccepted (q : Fin 4)
  /-- CQ_WRITE_ERROR: the host answers a record write to completion queue `q` with an error. -/
  | cqWriteError (q : Fin 4)
  /-- TRANSMISSION_END: the last bit of the port's wire frame has gone. -/
  | transmissionEnd (port : Fin 8)
  /-- FENCED_RECORD_FETCHED: a fetched record with FENCE set arrives. -/
  | fencedRecordFetched (record : RequestRecord)
deriving DecidableEq, Repr

end Sys2Proof
end

