-- ==== Sys2Proof/Config.lean ====
section
/-! DEFINITION. The capacities and fixed numbers of the part (00_scope.md, Capacities; 11.7), and the one value
the spec leaves open. -/

namespace Sys2Proof.Config

/-- Channels 0 to 4095 (R1). -/
abbrev channels : Nat := 4096
/-- Fade slots 0 to 63 (R35). -/
abbrev slots : Nat := 64
/-- Playbacks 0 to 15 (R53). -/
abbrev playbacks : Nat := 16
/-- A pending list holds at most 16 cues (R55). -/
abbrev pendingCues : Nat := 16
/-- A playback has at most 4 cues in flight (R55). -/
abbrev cuesInFlight : Nat := 4
/-- Blocks of scene memory (R21). -/
abbrev blocks : Nat := 2048
/-- Loads in the load queue (R24). -/
abbrev loads : Nat := 4
/-- Bands 0 to 7 (R84). -/
abbrev bands : Nat := 8
/-- Park ranges (R107). -/
abbrev parkRanges : Nat := 32
/-- Requests in the hold list (R119). -/
abbrev holdList : Nat := 128
/-- READ_LEVELS held at a time (R113). -/
abbrev reads : Nat := 2
/-- Strip ports 0 to 7 (R130). -/
abbrev ports : Nat := 8
/-- Feeds 0 to 5 (R141). -/
abbrev feeds : Nat := 6
/-- Supply slots 1 to 8; slot 0 means unsequenced (R141). -/
abbrev supplySlots : Nat := 8
/-- Submission queues, and completion queues (R162, R163). -/
abbrev queues : Nat := 4

/-- IDENT: part code 0x2408, revision 1 (R171, 11.7). -/
def ident : Word32 := 0x24080001#32

/-- FREE VALUE (log entry 2). The start slot that SUPPLY_TRIPPED reports when the falling sequence is a TOGETHER
one. R148 asks for "the slot from which the falling sequence begins"; under TOGETHER no slot is the first (R149), and
the spec names no number. It is applied to the highest slot that holds an enabled feed at the trip. -/
opaque togetherStartSlot : Nat → Byte

end Sys2Proof.Config
end

