-- ==== Sys2Proof/Machine/Table.lean ====
section
/-! DEFINITION. A table of numbered records: sparse, in one canonical form, so that equal tables are equal data. Keys
rise strictly, and no cell holds the value `d` that an unlisted number reads as. -/

namespace Sys2Proof.Machine

/-- A table of numbered records. What an unlisted number reads as is given to each operation (`d`); it is the record's
cold-reset value. -/
structure Table (α : Type) where
  cells : List (Nat × α)
deriving DecidableEq, Repr

/-- The table with nothing listed: every record has its cold-reset value. -/
def Table.empty {α : Type} : Table α := ⟨[]⟩

/-- The value listed first under `k`, or `d`. -/
def Table.lookup {α : Type} (d : α) : List (Nat × α) → Nat → α
  | [], _ => d
  | (j, v) :: rest, k => if j = k then v else Table.lookup d rest k

/-- Record `k` of the table. -/
def Table.get {α : Type} (d : α) (t : Table α) (k : Nat) : α := Table.lookup d t.cells k

/-- Put `v` under `k`, keeping the keys in rising order. -/
def Table.insertCell {α : Type} (k : Nat) (v : α) : List (Nat × α) → List (Nat × α)
  | [] => [(k, v)]
  | (j, w) :: rest =>
    if k < j then (k, v) :: (j, w) :: rest
    else if k = j then (k, v) :: rest
    else (j, w) :: Table.insertCell k v rest

/-- Take away whatever is listed under `k`. -/
def Table.eraseCell {α : Type} (k : Nat) (cells : List (Nat × α)) : List (Nat × α) :=
  cells.filter (fun c => c.1 != k)

/-- Record `k` becomes `v`. -/
def Table.set {α : Type} [DecidableEq α] (d : α) (t : Table α) (k : Nat) (v : α) : Table α :=
  if v = d then ⟨Table.eraseCell k t.cells⟩ else ⟨Table.insertCell k v t.cells⟩

/-- Every listed record becomes `f` of its number and itself. Used where `f` leaves an unlisted record as it is. -/
def Table.mapCells {α : Type} [DecidableEq α] (d : α) (f : Nat → α → α) (t : Table α) : Table α :=
  ⟨t.cells.filterMap (fun c => if f c.1 c.2 = d then none else some (c.1, f c.1 c.2))⟩

/-- Whether the keys of a list of cells rise strictly from above `lo`. -/
def Table.risingFrom {α : Type} : Option Nat → List (Nat × α) → Bool
  | _, [] => true
  | none, (k, _) :: rest => Table.risingFrom (some k) rest
  | some lo, (k, _) :: rest => decide (lo < k) && Table.risingFrom (some k) rest

/-- The canonical form: strictly rising keys, and no cell equal to what an unlisted number reads as. -/
def Table.wf {α : Type} [DecidableEq α] (d : α) (t : Table α) : Bool :=
  Table.risingFrom none t.cells && t.cells.all (fun c => decide (c.2 ≠ d))

/-- The numbers of the listed records that satisfy `p`, ascending in a canonical table. -/
def Table.keysWhere {α : Type} (p : α → Bool) (t : Table α) : List Nat :=
  (t.cells.filter (fun c => p c.2)).map Prod.fst

/-- The sum of `g` over the listed records. -/
def Table.total {α : Type} (g : α → Nat) (t : Table α) : Nat := (t.cells.map (fun c => g c.2)).sum

/-- How many listed records satisfy `p`. -/
def Table.countWhere {α : Type} (p : α → Bool) (t : Table α) : Nat :=
  (t.cells.filter (fun c => p c.2)).length

end Sys2Proof.Machine
end

