-- ==== Sys2Proof/Machine/State.lean ====
section
/-! DEFINITION. The state of the engine, block by block, as plain data, and the state right after cold reset. A field
that the spec calls absent in some condition is a constructor's argument or an `Option`. -/

namespace Sys2Proof.Machine

/-- Why the machine stops with a fault. The engine has no such stop: it reports every trouble the spec describes by a
status, an event, an interface state or a queue state, so nothing raises a fault. -/
inductive Fault where
deriving DecidableEq, Repr

/-- Why a command has no meaning. -/
inductive Refusal where
  /-- Raised by `exec`'s arm of a command that has no meaning yet; safe, since nothing is then said of the command. -/
  | notModelled (mnemonic : String)
deriving DecidableEq, Repr

/-! ## Requests and completions -/

/-- The status codes of a completion (11.2). -/
inductive Status where
  | ok | cancelled | superseded | denied | snapped | empty | badKind | badField
  | busy | paused | noScene | noSlot | noSpace | inUse | listFull | holdFull
  | overlap | notFound | notReady | tooLong | feedFault | aborted | hostReadError | hostWriteError
deriving DecidableEq, Repr

/-- What the Host Queue Unit notes with a taken request for its completion (R164). -/
structure Ctx where
  tag : BitVec 16
  /-- The source submission queue. -/
  sq : Nat
  /-- The queue's head after the request was taken. -/
  head : Nat
deriving DecidableEq, Repr

/-- A completion that a block owes, with the mark that a host interface reset sets (R83, R157, R174). -/
structure Owed where
  ctx : Ctx
  dropped : Bool
deriving DecidableEq, Repr

/-- A request that a block has accepted and not yet applied, stamped with its effective frame (R103). -/
structure Staged (ρ : Type) where
  frame : Nat
  owed : Owed
  request : ρ
deriving DecidableEq, Repr

/-- The requests the Playback Controller stages (R53). RELEASE carries a time only when its time source is GIVEN. -/
inductive PlaybackRequest where
  | go (playback : Nat)
  | pause (playback : Nat)
  | resume (playback : Nat)
  | clear (playback : Nat)
  | release (playback : Nat) (given : Option Nat)
deriving DecidableEq, Repr

/-- The requests the Band Unit stages (R87). SET_ROLL carries an offset only when its origin mode is SET. -/
inductive BandRequest where
  | start (band priority : Nat)
  | stop (band : Nat)
  | setRoll (band : Nat) (step : Int) (period : Nat) (offset : Option Nat)
deriving DecidableEq, Repr

/-- The groupable requests of the composer (R120). -/
inductive ComposeRequest where
  | park (first count : Nat) (level : Level)
  | unpark (first count : Nat)
  | setMaster (master : Level)
deriving DecidableEq, Repr

/-- The requests the Frame Clock and Composer stages (R103). -/
inductive ClockRequest where
  | compose (request : ComposeRequest)
  | setPeriod (period : Nat)
  | showReset
deriving DecidableEq, Repr

/-- A request that may carry a group, with the owner it is released to (R120). -/
inductive GroupRequest where
  | playback (request : PlaybackRequest)
  | band (request : BandRequest)
  | compose (request : ComposeRequest)
deriving DecidableEq, Repr

/-! ## Channel Arbiter -/

/-- Who holds a channel and where its level comes from: the modes of R1 with the fields each has. -/
inductive Holding where
  | free (level : Level)
  | settled (playback priority : Nat) (level : Level)
  | fading (playback priority slot : Nat) (fromLevel toLevel : Level)
  | band (band priority : Nat)
deriving DecidableEq, Repr

/-- One entry of the channel table (R1). -/
structure Channel where
  holding : Holding
  last : Level
deriving DecidableEq, Repr

/-- An entry after cold reset (R18). -/
def Channel.dark : Channel := { holding := .free 0, last := 0 }

/-- An owner: its kind and its number (R1). -/
inductive Owner where
  | playback (number : Nat)
  | band (number : Nat)
deriving DecidableEq, Repr

structure Arbiter where
  channels : Table Channel
deriving DecidableEq, Repr

/-! ## Scene Store -/

inductive SceneState where
  | empty | loading | ready
deriving DecidableEq, Repr

/-- One scene entry (R19). `blocks` is the length of the block chain; `entries` is what the chain holds. -/
structure Scene where
  state : SceneState
  entryCount : Nat
  blocks : Nat
  useCount : Nat
  entries : List (Nat × Level)
deriving DecidableEq, Repr

/-- An EMPTY scene (R19). -/
def Scene.none : Scene := { state := .empty, entryCount := 0, blocks := 0, useCount := 0, entries := [] }

inductive LoadTarget where
  | scene (id : Nat)
  | band (number : Nat)
deriving DecidableEq, Repr

/-- One load of the load queue (R24); `fetching` tells FETCHING from QUEUED. `id` is the model's own number for the
load, by which the data of a read finds it (log entry 31). -/
structure Load where
  id : Nat
  target : LoadTarget
  address : HostAddress
  itemCount : Nat
  itemSize : Nat
  received : Nat
  fetching : Bool
  ctx : Ctx
deriving DecidableEq, Repr

/-- A load-end notice on its way to the Playback Controller (R28). -/
structure LoadEndNotice where
  scene : Nat
  state : SceneState
  frame : Nat
deriving DecidableEq, Repr

structure SceneStore where
  scenes : Table Scene
  freeBlocks : Nat
  loads : List Load
  notices : List LoadEndNotice
  /-- The number of the next load; the model's own. -/
  nextLoad : Nat
deriving DecidableEq, Repr

/-! ## Transition Engine -/

inductive Curve where
  | linear | square | scurve | snapStart | snapEnd
deriving DecidableEq, Repr

/-- What a fade slot serves (R35): a cue, by its number, with the scene its targets came from, or a release. -/
inductive SlotKind where
  | cue (cue scene : Nat)
  | release
deriving DecidableEq, Repr

/-- The fields of an IN_USE slot (R35). -/
structure FadeRun where
  kind : SlotKind
  playback : Nat
  start : Nat
  length : Nat
  curve : Curve
  pausedAt : Option Nat
  accumulatedPause : Nat
  count : Nat
deriving DecidableEq, Repr

/-- A fade slot (R35). -/
inductive FadeSlot where
  | free (availableFrom : Nat)
  | inUse (run : FadeRun)
deriving DecidableEq, Repr

/-- A slot after cold reset (R35). -/
def FadeSlot.atReset : FadeSlot := .free 0

structure TransitionEngine where
  slots : Table FadeSlot
deriving DecidableEq, Repr

/-! ## Playback Controller -/

inductive Trigger where
  | manual | follow | withPrevious
deriving DecidableEq, Repr

inductive CueState where
  | pending | delayed | waitScene | fading
deriving DecidableEq, Repr

/-- A cue record (R56). `id` is the model's own name for the record. -/
structure Cue where
  id : Nat
  ctx : Ctx
  report : Bool
  label : Nat
  scene : Nat
  fadeTime : Nat
  delay : Nat
  followWait : Nat
  curve : Curve
  trigger : Trigger
  state : CueState
  due : Option Nat
  triggerFrame : Option Nat
  length : Nat
  slot : Option Nat
  denied : Nat
  terminal : Option Status
deriving DecidableEq, Repr

/-- The cue most recently triggered (R53). -/
inductive LastTrigger where
  | absent
  | inFlight (cue : Nat)
  | ended
deriving DecidableEq, Repr

/-- The RELEASE that a release slot serves (R53). -/
structure ReleaseRecord where
  owed : Owed
  moved : Nat
deriving DecidableEq, Repr

/-- A playback record (R53). `inFlight` is kept in the order the cues were triggered. -/
structure Playback where
  priority : Nat
  defaultRelease : Nat
  pending : List Cue
  inFlight : List Cue
  paused : Option Nat
  releaseSlot : Option Nat
  releaseRecord : Option ReleaseRecord
  lastTrigger : LastTrigger
deriving DecidableEq, Repr

/-- A playback after cold reset (R53). -/
def Playback.atReset : Playback :=
  { priority := 0, defaultRelease := 0, pending := [], inFlight := [], paused := none, releaseSlot := none,
    releaseRecord := none, lastTrigger := .absent }

structure PlaybackController where
  playbacks : Table Playback
  staged : List (Staged PlaybackRequest)
  nextCue : Nat
deriving DecidableEq, Repr

/-! ## Band Unit -/

/-- The fields a band has in LOADING, STOPPED and RUNNING (R84). A colour of `pattern` is its components (R86). -/
structure BandSetup where
  port : Nat
  firstPixel : Nat
  lead : Nat
  roll : Nat
  tail : Nat
  components : Nat
  pattern : List (List Level)
  step : Int
  stepPeriod : Nat
  originOffset : Nat
deriving DecidableEq, Repr

/-- The fields a band has only while RUNNING (R84). -/
structure BandRun where
  originFrame : Nat
  priority : Nat
  firstChannel : Nat
  channelCount : Nat
  denied : Nat
deriving DecidableEq, Repr

/-- A band record (R84). -/
inductive Band where
  | undefined
  | loading (setup : BandSetup)
  | stopped (setup : BandSetup)
  | running (setup : BandSetup) (run : BandRun)
deriving DecidableEq, Repr

structure BandUnit where
  records : Table Band
  staged : List (Staged BandRequest)
deriving DecidableEq, Repr

/-! ## Frame Clock and Composer -/

/-- A park range (R107). -/
structure ParkRange where
  first : Nat
  count : Nat
  level : Level
deriving DecidableEq, Repr

/-- A READ_LEVELS held by the composer (R113). From its latch on, `area` holds what the composer writes to host memory,
byte `i` of it at host address `address` + `i` (R114). -/
structure Snapshot where
  first : Nat
  count : Nat
  address : HostAddress
  captureFrame : Nat
  ctx : Ctx
  area : Option (List Byte)
deriving DecidableEq, Repr

structure FrameClock where
  frame : Nat
  period : Nat
  acceptedPeriod : Nat
  master : Level
  parks : List ParkRange
  safe : Bool
  staged : List (Staged ClockRequest)
  reads : List Snapshot
deriving DecidableEq, Repr

/-! ## Frame Group Unit -/

/-- A held request (R119). -/
structure HeldRequest where
  group : Nat
  ctx : Ctx
  request : GroupRequest
deriving DecidableEq, Repr

structure GroupUnit where
  hold : List HeldRequest
  /-- Staged COMMITs, each with its group (R119). -/
  commits : List (Staged Nat)
deriving DecidableEq, Repr

/-! ## Strip Ports -/

inductive Rate where
  | mbit08 | mbit2 | mbit4 | mbit8
deriving DecidableEq, Repr

/-- A port configuration (R130). -/
structure PortConfig where
  enable : Bool
  first : Nat
  pixels : Nat
  components : Nat
  depth : Nat
  rate : Rate
  reversed : Bool
  feed : Option Nat
  echoCheck : Bool
  safe : Level
deriving DecidableEq, Repr

/-- The configuration after cold reset (R130). -/
def PortConfig.atReset : PortConfig :=
  { enable := false, first := 0, pixels := 0, components := 3, depth := 8, rate := .mbit08, reversed := false,
    feed := none, echoCheck := false, safe := 0 }

inductive PortState where
  | disabled | held | sending | lost
deriving DecidableEq, Repr

/-- A wire frame (R133): the frame it belongs to, the sequence and check of its header, and all its bytes. -/
structure WireFrame where
  frame : Nat
  sequence : Byte
  check : BitVec 16
  bytes : List Byte
deriving DecidableEq, Repr

/-- What the lines of a port are doing (R133, R135). In the window, the first complete echo record received. -/
inductive PortLine where
  | idle
  | sending (wire : WireFrame)
  | window (wire : WireFrame) (echo : Option (Byte × BitVec 16))
deriving DecidableEq, Repr

/-- A port record (R130). -/
structure Port where
  applied : PortConfig
  accepted : PortConfig
  state : PortState
  missCount : Nat
  goodCount : Nat
  lostAt : Option Nat
  line : PortLine
deriving DecidableEq, Repr

/-- A port after cold reset (R130, R140). -/
def Port.atReset : Port :=
  { applied := PortConfig.atReset, accepted := PortConfig.atReset, state := .disabled, missCount := 0, goodCount := 0,
    lostAt := none, line := .idle }

/-- The request CONFIG_PORT as it is staged (R137). -/
structure PortRequest where
  port : Nat
  config : PortConfig
deriving DecidableEq, Repr

structure StripPorts where
  records : Table Port
  staged : List (Staged PortRequest)
deriving DecidableEq, Repr

/-! ## Supply Sequencer -/

inductive FeedState where
  | off | ramping | on | fault
deriving DecidableEq, Repr

inductive FaultCause where
  | timeout | dropped
deriving DecidableEq, Repr

/-- A feed record (R141) and the level of its good input. -/
structure Feed where
  state : FeedState
  slot : Nat
  timeoutMs : Nat
  /-- The good timeout armed when the feed entered RAMPING; present only while RAMPING (log entry 4). -/
  deadline : Option Nat
  cause : Option FaultCause
  good : Bool
deriving DecidableEq, Repr

/-- A feed after cold reset (R141), its good input deasserted (log entry 7). -/
def Feed.atReset : Feed :=
  { state := .off, slot := 0, timeoutMs := 1000, deadline := none, cause := none, good := false }

inductive SequencerState where
  | down | rising | up | falling
deriving DecidableEq, Repr

inductive PowerDownMode where
  | sequential | together
deriving DecidableEq, Repr

inductive TripPolicy where
  | isolate | all
deriving DecidableEq, Repr

/-- The running slot interval: its length, and whether its end has been reached (R146, log entry 4). -/
structure SlotInterval where
  ms : Nat
  reached : Bool
deriving DecidableEq, Repr

/-- The feeds and the sequencer record (R141, R146). `riseSet` lists its feeds in ascending order. -/
structure Supply where
  feeds : Table Feed
  state : SequencerState
  currentSlot : Nat
  riseSet : List Nat
  interval : Option SlotInterval
  slotIntervalMs : Nat
  mode : PowerDownMode
  policy : TripPolicy
  rise : Option Owed
  fall : Option Owed
deriving DecidableEq, Repr

/-! ## Host Queue Unit -/

inductive InterfaceState where
  | off | starting | running | halted
deriving DecidableEq, Repr

inductive HaltCode where
  | none | tableRead | misaligned | badSize | sqUnbound | eventCq | cqWrite
deriving DecidableEq, Repr

inductive QueueState where
  | inactive | active | faulted
deriving DecidableEq, Repr

/-- A fence wait: the fetched record and the completions it still waits for (R166). -/
structure FenceWait where
  record : RequestRecord
  count : Nat
deriving DecidableEq, Repr

/-- A submission queue record (R162). -/
structure SubmissionQueue where
  state : QueueState
  base : HostAddress
  size : Nat
  boundCq : Nat
  head : Nat
  tail : Nat
  outstanding : Nat
  fence : Option FenceWait
deriving DecidableEq, Repr

/-- A submission queue after cold reset and after a host interface reset (R162, R174). -/
def SubmissionQueue.inactive : SubmissionQueue :=
  { state := .inactive, base := 0, size := 0, boundCq := 0, head := 0, tail := 0, outstanding := 0, fence := none }

/-- A completion queue record (R163). -/
structure CompletionQueue where
  active : Bool
  base : HostAddress
  size : Nat
  tail : Nat
  head : Nat
  posted : Nat
  reserved : Nat
  nextSequence : Nat
deriving DecidableEq, Repr

/-- A completion queue after cold reset and after a host interface reset (R163; next sequence: log entry 8). -/
def CompletionQueue.inactive : CompletionQueue :=
  { active := false, base := 0, size := 0, tail := 0, head := 0, posted := 0, reserved := 0, nextSequence := 1 }

/-- The event kinds (11.2). -/
inductive EventKind where
  | feedFault | portLost | portRegained | safeEntered | safeLeft | queueFault | supplyTripped
deriving DecidableEq, Repr

/-- An entry of the event list (R169). -/
structure EventEntry where
  kind : EventKind
  object : Nat
  frame : Word32
  detail : Word32
deriving DecidableEq, Repr

/-- A write of a completion or event record that the host has not yet answered (R167, R168). -/
structure RecordWrite where
  queue : Nat
  address : HostAddress
  bytes : List Byte
deriving DecidableEq, Repr

/-- The record fetch in progress: its queue, and whether it is to be discarded when it returns (R162, R164). -/
structure Fetch where
  sq : Nat
  stale : Bool
deriving DecidableEq, Repr

structure HostUnit where
  state : InterfaceState
  haltCode : HaltCode
  haltQueue : Nat
  enable : Bool
  qtableLo : Word32
  qtableHi : Word32
  intCause : BitVec 6
  intMask : BitVec 6
  submission : Table SubmissionQueue
  completion : Table CompletionQueue
  eventQueue : Nat
  lastGranted : Nat
  fetch : Option Fetch
  intakePause : Bool
  events : List EventEntry
  writes : List RecordWrite
  /-- Interrupt messages sent so far (R171); the model's own count. -/
  messages : Nat
deriving DecidableEq, Repr

/-! ## The whole engine -/

/-- The engine: its ten blocks (00_scope.md, Block diagram) and the queue of commands that wait. -/
structure State where
  arbiter : Arbiter
  store : SceneStore
  engine : TransitionEngine
  controller : PlaybackController
  bands : BandUnit
  clock : FrameClock
  groups : GroupUnit
  ports : StripPorts
  supply : Supply
  host : HostUnit
  pending : List Instr
deriving DecidableEq, Repr

/-- The arbiter after cold reset (R18). -/
def Arbiter.atReset : Arbiter := { channels := Table.empty }

/-- The store after cold reset (R34). -/
def SceneStore.atReset : SceneStore :=
  { scenes := Table.empty, freeBlocks := 2048, loads := [], notices := [], nextLoad := 0 }

/-- The engine's slots after cold reset (R51). -/
def TransitionEngine.atReset : TransitionEngine := { slots := Table.empty }

/-- The controller after cold reset (R53). -/
def PlaybackController.atReset : PlaybackController := { playbacks := Table.empty, staged := [], nextCue := 0 }

/-- The Band Unit after cold reset (R99). -/
def BandUnit.atReset : BandUnit := { records := Table.empty, staged := [] }

/-- The clock and composer after cold reset (R118). -/
def FrameClock.atReset : FrameClock :=
  { frame := 0, period := 250, acceptedPeriod := 250, master := 65535, parks := [], safe := false, staged := [],
    reads := [] }

/-- The Frame Group Unit after cold reset (R129). -/
def GroupUnit.atReset : GroupUnit := { hold := [], commits := [] }

/-- The Strip Ports after cold reset (R140). -/
def StripPorts.atReset : StripPorts := { records := Table.empty, staged := [] }

/-- The Supply Sequencer after cold reset (R158). -/
def Supply.atReset : Supply :=
  { feeds := Table.empty, state := .down, currentSlot := 0, riseSet := [], interval := none, slotIntervalMs := 100,
    mode := .sequential, policy := .isolate, rise := none, fall := none }

/-- The Host Queue Unit after cold reset (R174). -/
def HostUnit.atReset : HostUnit :=
  { state := .off, haltCode := .none, haltQueue := 0, enable := false, qtableLo := 0, qtableHi := 0, intCause := 0,
    intMask := 0, submission := Table.empty, completion := Table.empty, eventQueue := 0, lastGranted := 3,
    fetch := none, intakePause := false, events := [], writes := [], messages := 0 }

/-- The engine right after cold reset (R18, R34, R51, R53, R99, R118, R129, R140, R158, R174), with no command
waiting. -/
def State.reset : State :=
  { arbiter := Arbiter.atReset, store := SceneStore.atReset, engine := TransitionEngine.atReset,
    controller := PlaybackController.atReset, bands := BandUnit.atReset, clock := FrameClock.atReset,
    groups := GroupUnit.atReset, ports := StripPorts.atReset, supply := Supply.atReset, host := HostUnit.atReset,
    pending := [] }

end Sys2Proof.Machine
end

