-- ==== Sys2Proof/Machine/Flags.lean ====
section
/-! DEFINITION. The interrupt cause and mask, and the interrupt signal (R171). -/

namespace Sys2Proof.Machine

/-- INT_CAUSE bit CQ`n` (11.7). -/
def causeOfQueue (n : Nat) : BitVec 6 := BitVec.ofNat 6 (2 ^ n)

/-- INT_CAUSE bit HALTED (11.7). -/
def causeHalted : BitVec 6 := 0b010000#6

/-- INT_CAUSE bit HOST_ERROR (11.7). -/
def causeHostError : BitVec 6 := 0b100000#6

/-- The engine signals its interrupt while at least one bit is set both in INT_CAUSE and in INT_MASK (R171). -/
def HostUnit.interrupting (u : HostUnit) : Bool := decide (u.intCause &&& u.intMask ≠ 0)

/-- INT_CAUSE and INT_MASK take new values; one message is sent when the interrupt condition begins to hold (R171). -/
def HostUnit.setInterrupts (u : HostUnit) (cause mask : BitVec 6) : HostUnit :=
  { u with
    intCause := cause
    intMask := mask
    messages := if !u.interrupting && decide (cause &&& mask ≠ 0) then u.messages + 1 else u.messages }

/-- Set bits of INT_CAUSE (R171). -/
def HostUnit.raiseCause (u : HostUnit) (bits : BitVec 6) : HostUnit := u.setInterrupts (u.intCause ||| bits) u.intMask

/-- Writing 1 to a bit of INT_CAUSE clears it, writing 0 leaves it (R171). -/
def HostUnit.clearCause (u : HostUnit) (bits : BitVec 6) : HostUnit :=
  u.setInterrupts (u.intCause &&& ~~~bits) u.intMask

end Sys2Proof.Machine
end

