-- ==== Sys2Proof/Machine/Layouts.lean ====
section
/-! DEFINITION. The byte formats of 11_record_and_register_layouts.md: posted records, packed details, bulk formats and
the port wire frame. -/

namespace Sys2Proof.Machine

/-- Byte `i` of a number, byte 0 the least significant. -/
def byteOf (v i : Nat) : Byte := BitVec.ofNat 8 (v / 256 ^ i)

/-- `n` bytes of a number, least significant first (11, opening). -/
def leBytes (v n : Nat) : List Byte := (List.range n).map (byteOf v)

/-- The number in `n` bytes at offset `off`, least significant first; a byte past the end reads 0. -/
def leAt (bytes : List Byte) (off : Nat) : Nat → Nat
  | 0 => 0
  | n + 1 => (bytes.getD off 0).toNat + 256 * leAt bytes (off + 1) n

/-! ## Codes (11.2, 11.3, 11.4) -/

def Status.code : Status → Nat
  | .ok => 0 | .cancelled => 1 | .superseded => 2 | .denied => 3 | .snapped => 4 | .empty => 5 | .badKind => 6
  | .badField => 7 | .busy => 8 | .paused => 9 | .noScene => 10 | .noSlot => 11 | .noSpace => 12 | .inUse => 13
  | .listFull => 14 | .holdFull => 15 | .overlap => 16 | .notFound => 17 | .notReady => 18 | .tooLong => 19
  | .feedFault => 20 | .aborted => 21 | .hostReadError => 22 | .hostWriteError => 23

def EventKind.code : EventKind → Nat
  | .feedFault => 1 | .portLost => 2 | .portRegained => 3 | .safeEntered => 4 | .safeLeft => 5 | .queueFault => 6
  | .supplyTripped => 7

def SceneState.code : SceneState → Nat
  | .empty => 0 | .loading => 1 | .ready => 2

def PortState.code : PortState → Nat
  | .disabled => 0 | .held => 1 | .sending => 2 | .lost => 3

def SequencerState.code : SequencerState → Nat
  | .down => 0 | .rising => 1 | .up => 2 | .falling => 3

def FeedState.code : FeedState → Nat
  | .off => 0 | .ramping => 1 | .on => 2 | .fault => 3

def FaultCause.code : FaultCause → Nat
  | .timeout => 1 | .dropped => 2

def TripPolicy.code : TripPolicy → Nat
  | .isolate => 0 | .all => 1

def PowerDownMode.code : PowerDownMode → Nat
  | .sequential => 0 | .together => 1

def InterfaceState.code : InterfaceState → Nat
  | .off => 0 | .starting => 1 | .running => 2 | .halted => 3

def HaltCode.code : HaltCode → Nat
  | .none => 0 | .tableRead => 1 | .misaligned => 2 | .badSize => 3 | .sqUnbound => 4 | .eventCq => 5 | .cqWrite => 6

/-! ## Posted records (11.2) -/

/-- The 16 bytes of a completion record. -/
def completionRecord (ctx : Ctx) (status : Status) (detail sequence : Nat) : List Byte :=
  [1, byteOf status.code 0] ++ leBytes ctx.tag.toNat 2 ++ [byteOf ctx.sq 0, 0] ++ leBytes ctx.head 2 ++
    leBytes detail 4 ++ [0, 0] ++ leBytes sequence 2

/-- The 16 bytes of an event record. -/
def eventRecord (e : EventEntry) (sequence : Nat) : List Byte :=
  [2, byteOf e.kind.code 0, byteOf e.object 0, 0] ++ leBytes e.frame.toNat 4 ++ leBytes e.detail.toNat 4 ++ [0, 0] ++
    leBytes sequence 2

/-! ## Packed details (11.3) -/

/-- Two 16-bit counts: the first in bits 15 to 0 (RUN_CUE with REPORT, START_BAND). -/
def packPair (low high : Nat) : Nat := low + 2 ^ 16 * high

/-- The low 32 bits of a frame number (00_scope.md, Conventions). -/
def low32 (frame : Nat) : Nat := frame % 2 ^ 32

/-! ## Port wire frame (11.6) -/

/-- One bit of the check: shift out the top bit and fold the polynomial 0x1021 in when it was set. -/
def crcShift (c : BitVec 16) : BitVec 16 :=
  if c.getLsbD 15 then (c <<< 1) ^^^ 0x1021#16 else c <<< 1

/-- One byte of the check. -/
def crcByte (c : BitVec 16) (b : Byte) : BitVec 16 :=
  (List.range 8).foldl (fun acc _ => crcShift acc) (c ^^^ (b.setWidth 16 <<< 8))

/-- CRC with polynomial 0x1021, initial value 0xFFFF, no reflection and no final inversion (11.6). -/
def crc16 (bytes : List Byte) : BitVec 16 := bytes.foldl crcByte 0xFFFF#16

/-- A 16-bit value on the wire, most significant byte first (11.6). -/
def beBytes (v : BitVec 16) : List Byte := [byteOf v.toNat 1, byteOf v.toNat 0]

/-- The format field: pixel count, components and depth (11.6). -/
def wireFormat (c : PortConfig) : BitVec 16 :=
  BitVec.ofNat 16 (c.pixels + (if c.components = 4 then 2 ^ 10 else 0) + (if c.depth = 16 then 2 ^ 11 else 0))

/-- A component on the wire: at depth 16 both bytes of the output value, at depth 8 its upper eight bits (R104,
R133). -/
def componentBytes (depth : Nat) (v : Level) : List Byte :=
  if depth = 16 then beBytes v else [byteOf v.toNat 1]

/-- The output values of pixel `i` of a slice, component 0 first (R133). -/
def pixelOf (components : Nat) (slice : List Level) (i : Nat) : List Level :=
  (slice.drop (i * components)).take components

/-- The pixels in the order they go on the wire (R133). -/
def wirePixels (c : PortConfig) : List Nat :=
  if c.reversed then (List.range c.pixels).reverse else List.range c.pixels

/-- The data bytes of a wire frame (R133). -/
def wireData (c : PortConfig) (slice : List Level) : List Byte :=
  (wirePixels c).flatMap (fun i => (pixelOf c.components slice i).flatMap (componentBytes c.depth))

/-- The wire frame of frame `n` (R133, 11.6): header and data. -/
def wireFrame (c : PortConfig) (n : Nat) (slice : List Level) : WireFrame :=
  let sequence := byteOf n 0
  let data := wireData c slice
  let check := crc16 ([sequence] ++ beBytes (wireFormat c) ++ data)
  { frame := n
    sequence := sequence
    check := check
    bytes := [0xA5] ++ [sequence] ++ beBytes (wireFormat c) ++ beBytes check ++ data }

/-! ## Bulk formats (11.5) -/

/-- A scene entry: channel and level. -/
def sceneItem (bytes : List Byte) : Nat × Level := (leAt bytes 0 2, BitVec.ofNat 16 (leAt bytes 2 2))

/-- A pattern colour of `components` components. -/
def colourItem (components : Nat) (bytes : List Byte) : List Level :=
  (List.range components).map (fun m => BitVec.ofNat 16 (leAt bytes (2 * m) 2))

/-- The bytes of a READ_LEVELS snapshot, as they are written from the host address upward (R114, 11.5). -/
def snapshotBytes (levels : List Level) : List Byte := levels.flatMap (fun v => leBytes v.toNat 2)

end Sys2Proof.Machine
end

