-- ==== Sys2Proof/Machine/Ops.lean ====
section
/-! DEFINITION. The named operations over the records of the state, and the three things every block does through the
Host Queue Unit: post a record, hand over a completion, raise an event. -/

namespace Sys2Proof.Machine

/-! ## Records by number -/

def Arbiter.channel (a : Arbiter) (c : Nat) : Channel := a.channels.get Channel.dark c
def SceneStore.scene (t : SceneStore) (id : Nat) : Scene := t.scenes.get Scene.none id
def TransitionEngine.slot (e : TransitionEngine) (k : Nat) : FadeSlot := e.slots.get FadeSlot.atReset k
def PlaybackController.playback (p : PlaybackController) (n : Nat) : Playback := p.playbacks.get Playback.atReset n
def BandUnit.band (b : BandUnit) (n : Nat) : Band := b.records.get Band.undefined n
def StripPorts.port (p : StripPorts) (n : Nat) : Port := p.records.get Port.atReset n
def Supply.feed (s : Supply) (n : Nat) : Feed := s.feeds.get Feed.atReset n
def HostUnit.sq (u : HostUnit) (n : Nat) : SubmissionQueue := u.submission.get SubmissionQueue.inactive n
def HostUnit.cq (u : HostUnit) (n : Nat) : CompletionQueue := u.completion.get CompletionQueue.inactive n

def SceneStore.setScene (t : SceneStore) (id : Nat) (v : Scene) : SceneStore :=
  { t with scenes := t.scenes.set Scene.none id v }
def TransitionEngine.setSlot (e : TransitionEngine) (k : Nat) (v : FadeSlot) : TransitionEngine :=
  { e with slots := e.slots.set FadeSlot.atReset k v }
def PlaybackController.setPlayback (p : PlaybackController) (n : Nat) (v : Playback) : PlaybackController :=
  { p with playbacks := p.playbacks.set Playback.atReset n v }
def BandUnit.setBand (b : BandUnit) (n : Nat) (v : Band) : BandUnit :=
  { b with records := b.records.set Band.undefined n v }
def StripPorts.setPort (p : StripPorts) (n : Nat) (v : Port) : StripPorts :=
  { p with records := p.records.set Port.atReset n v }
def Supply.setFeed (s : Supply) (n : Nat) (v : Feed) : Supply :=
  { s with feeds := s.feeds.set Feed.atReset n v }
def HostUnit.setSq (u : HostUnit) (n : Nat) (v : SubmissionQueue) : HostUnit :=
  { u with submission := u.submission.set SubmissionQueue.inactive n v }
def HostUnit.setCq (u : HostUnit) (n : Nat) (v : CompletionQueue) : HostUnit :=
  { u with completion := u.completion.set CompletionQueue.inactive n v }

/-! ## Rings -/

/-- The next entry of a ring of `size` entries (R162, R163). -/
def ringNext (i size : Nat) : Nat := if i + 1 < size then i + 1 else 0

/-- The distance from `a` forward to `b` in a ring of `size` entries (R163, R173). -/
def ringDistance (a b size : Nat) : Nat := if a ≤ b then b - a else b + size - a

/-- A completion queue has unreserved room (R163). -/
def CompletionQueue.hasRoom (c : CompletionQueue) : Bool := decide (c.posted + c.reserved + 1 < c.size)

/-! ## Posting (R167, R170) -/

/-- The sequence after `n`: after 65535 it returns to 1 (R167). -/
def nextSequenceOf (n : Nat) : Nat := if n < 65535 then n + 1 else 1

/-- The record of a completion queue after one more record is written; `reserved` tells a completion, which gives up
its reservation, from an event, which has none (R167, R170). -/
def CompletionQueue.afterPost (c : CompletionQueue) (reserved : Bool) : CompletionQueue :=
  { c with
    tail := ringNext c.tail c.size
    posted := c.posted + 1
    reserved := if reserved then c.reserved - 1 else c.reserved
    nextSequence := nextSequenceOf c.nextSequence }

/-- Issue the write of a record at the tail of completion queue `m` (R167, R170). -/
def HostUnit.postRecord (u : HostUnit) (m : Nat) (reserved : Bool) (bytes : List Byte) : HostUnit :=
  { u.setCq m ((u.cq m).afterPost reserved) with
    writes := u.writes ++
      [{ queue := m, address := (u.cq m).base + BitVec.ofNat 64 (16 * (u.cq m).tail), bytes := bytes }] }

/-- A submission queue after the completion of one of its requests has been posted: outstanding falls by one, and a
fence wait counts down (R166, R167). -/
def SubmissionQueue.afterCompletion (q : SubmissionQueue) : SubmissionQueue :=
  { q with
    outstanding := q.outstanding - 1
    fence := q.fence.map (fun w => { w with count := w.count - 1 }) }

/-- Whether a completion handed over now is posted: it has not been dropped, records are posted in RUNNING only (R159),
and it is written into its request's reservation (R164, R167; log entry 10). -/
def HostUnit.postable (u : HostUnit) (o : Owed) : Bool :=
  !o.dropped && decide (u.state = .running) && decide (0 < (u.cq (u.sq o.ctx.sq).boundCq).reserved)

/-- An owner hands over a completion (R167). A dropped one is not posted (R83, R174). -/
def HostUnit.complete (u : HostUnit) (o : Owed) (status : Status) (detail : Nat) : HostUnit :=
  if u.postable o then
    let m := (u.sq o.ctx.sq).boundCq
    (u.postRecord m true (completionRecord o.ctx status detail (u.cq m).nextSequence)).setSq o.ctx.sq
      (u.sq o.ctx.sq).afterCompletion
  else u

/-- The same for a request that is completed at intake, whose completion cannot have been dropped. -/
def HostUnit.completeNow (u : HostUnit) (ctx : Ctx) (status : Status) (detail : Nat) : HostUnit :=
  u.complete { ctx := ctx, dropped := false } status detail

/-- Hand over a completion, in the whole state. -/
def State.finish (s : State) (o : Owed) (status : Status) (detail : Nat) : State :=
  { s with host := s.host.complete o status detail }

/-- Complete a request at intake, in the whole state. -/
def State.finishNow (s : State) (ctx : Ctx) (status : Status) (detail : Nat) : State :=
  { s with host := s.host.completeNow ctx status detail }

/-! ## Events (R169) -/

/-- An event joins the end of the list, unless an entry of the same kind and object is in it (R169). -/
def HostUnit.raiseEvent (u : HostUnit) (e : EventEntry) : HostUnit :=
  if u.events.any (fun x => decide (x.kind = e.kind ∧ x.object = e.object)) then u
  else { u with events := u.events ++ [e] }

/-- Raise an event at frame `n`. -/
def State.raiseEvent (s : State) (kind : EventKind) (object n detail : Nat) : State :=
  { s with
    host := s.host.raiseEvent
      { kind := kind, object := object, frame := BitVec.ofNat 32 n, detail := BitVec.ofNat 32 detail } }

/-! ## Dropping (R83, R99, R118, R129, R140, R157) -/

/-- Mark a completion dropped. -/
def Owed.drop (o : Owed) : Owed := { o with dropped := true }

/-- Mark the completion of a staged request dropped; the request stays staged. -/
def Staged.drop {ρ : Type} (e : Staged ρ) : Staged ρ := { e with owed := e.owed.drop }

/-! ## Staging (R102, R103) -/

/-- The effective frame of a request taken now: the frame after the current one (R102). -/
def State.effectiveFrame (s : State) : Nat := s.clock.frame + 1

/-- A frame-applied request as it is staged when it is taken now (R102). -/
def State.stage {ρ : Type} (s : State) (ctx : Ctx) (request : ρ) : Staged ρ :=
  { frame := s.effectiveFrame, owed := { ctx := ctx, dropped := false }, request := request }

/-- Take the first entry stamped `f` from a staged list, with the rest of the list. -/
def takeStaged {ρ : Type} (f : Nat) : List (Staged ρ) → Option (Staged ρ × List (Staged ρ))
  | [] => none
  | e :: rest =>
    if e.frame = f then some (e, rest)
    else (takeStaged f rest).map (fun r => (r.1, e :: r.2))

/-- A number of 10 ms units as a number of frames at frame period `period`: the quotient is rounded up (R37). -/
def framesOf (time period : Nat) : Nat := (100 * time + period - 1) / period

end Sys2Proof.Machine
end

