-- ==== Sys2Proof/Machine/Arbiter.lean ====
section
/-! DEFINITION. The Channel Arbiter: claims, takeovers and letting go, over the channel table (01). -/

namespace Sys2Proof.Machine

/-- The owner of a channel; a FREE channel has none (R1). -/
def Holding.owner : Holding → Option Owner
  | .free _ => none
  | .settled p _ _ => some (.playback p)
  | .fading p _ _ _ _ => some (.playback p)
  | .band b _ => some (.band b)

/-- The priority copied when the owner's claim was granted (R1). -/
def Holding.priority : Holding → Option Nat
  | .free _ => none
  | .settled _ q _ => some q
  | .fading _ q _ _ _ => some q
  | .band _ q => some q

/-- The fade slot that drives the channel (R1). -/
def Holding.slot : Holding → Option Nat
  | .fading _ _ k _ _ => some k
  | _ => none

/-- Whether a claim is granted: the channel is FREE, the claimant owns it, or the claimant's priority is equal to or
higher than the entry's (R4). -/
def claimGranted (claimant : Owner) (priority : Nat) (h : Holding) : Bool :=
  match h.owner, h.priority with
  | some o, some q => decide (o = claimant) || decide (q ≤ priority)
  | _, _ => true

/-- What the arbiter reports after a batch or an order (R8, R10): claims granted (or channels changed), claims denied,
and for each slot that lost channels how many, in ascending slot order. R48 gives that order for clear and snap orders;
for the batches and the show-reset order it is read by inference (log entry 15). -/
structure ArbiterReport where
  granted : Nat
  denied : Nat
  lost : List (Nat × Nat)
deriving DecidableEq, Repr

/-- One more channel lost by slot `k`. -/
def addLoss (k : Nat) : List (Nat × Nat) → List (Nat × Nat)
  | [] => [(k, 1)]
  | (j, n) :: rest =>
    if k < j then (k, 1) :: (j, n) :: rest
    else if k = j then (j, n + 1) :: rest
    else (j, n) :: addLoss k rest

/-- The loss that taking a channel from this holding causes (R8). -/
def lossOf (h : Holding) (lost : List (Nat × Nat)) : List (Nat × Nat) :=
  match h.slot with
  | some k => addLoss k lost
  | none => lost

/-- Decide one claim of a batch and write the entry if it is granted (R4, R5, R7): the entry's new holding is given by
`become`, its last level is not changed. -/
def claimChannel (claimant : Owner) (priority c : Nat) (become : Channel → Holding)
    (acc : Table Channel × ArbiterReport) : Table Channel × ArbiterReport :=
  let ch := acc.1.get Channel.dark c
  if claimGranted claimant priority ch.holding then
    (acc.1.set Channel.dark c { ch with holding := become ch },
     { acc.2 with granted := acc.2.granted + 1, lost := lossOf ch.holding acc.2.lost })
  else (acc.1, { acc.2 with denied := acc.2.denied + 1 })

/-- A fade batch: each (channel, target level) pair of the scene is claimed for the CUE slot (R5). -/
def fadeBatch (t : Table Channel) (playback priority slot : Nat) (pairs : List (Nat × Level)) :
    Table Channel × ArbiterReport :=
  pairs.foldl
    (fun acc pair =>
      claimChannel (.playback playback) priority pair.1
        (fun ch => .fading playback priority slot ch.last pair.2) acc)
    (t, { granted := 0, denied := 0, lost := [] })

/-- A band batch: each channel of the band's range is claimed for the band (R7). -/
def bandBatch (t : Table Channel) (band priority first count : Nat) : Table Channel × ArbiterReport :=
  (List.range count).foldl
    (fun acc i => claimChannel (.band band) priority (first + i) (fun _ => .band band priority) acc)
    (t, { granted := 0, denied := 0, lost := [] })

/-- Apply an order: every channel whose holding satisfies `chosen` takes the holding `become` (R6, R11 to R15). The
report counts the channels changed and names the slots they were taken from (R10). -/
def applyOrder (t : Table Channel) (chosen : Holding → Bool) (become : Channel → Holding) :
    Table Channel × ArbiterReport :=
  (t.mapCells Channel.dark (fun _ ch => if chosen ch.holding then { ch with holding := become ch } else ch),
   { granted := t.countWhere (fun ch => chosen ch.holding)
     denied := 0
     lost := t.cells.foldl (fun acc c => if chosen c.2.holding then lossOf c.2.holding acc else acc) [] })

/-- Whether the playback owns a channel so held. -/
def ownedBy (playback : Nat) (h : Holding) : Bool := decide (h.owner = some (.playback playback))

/-- Whether a channel so held is FADING under slot `k`. -/
def fadingUnder (k : Nat) (h : Holding) : Bool := decide (h.slot = some k)

/-- A release batch: every channel the playback owns becomes FADING under the RELEASE slot, from its last level to 0,
owner and priority unchanged (R6). -/
def releaseBatch (t : Table Channel) (playback slot : Nat) : Table Channel × ArbiterReport :=
  applyOrder t (ownedBy playback)
    (fun ch => .fading playback (ch.holding.priority.getD 0) slot ch.last 0)

/-- A settle order: the slot's channels become SETTLED at their to levels (R11). -/
def settleOrder (t : Table Channel) (slot : Nat) : Table Channel × ArbiterReport :=
  applyOrder t (fadingUnder slot)
    (fun ch =>
      match ch.holding with
      | .fading p q _ _ level => .settled p q level
      | h => h)

/-- A release-end order: the slot's channels become FREE at level 0 (R12). -/
def releaseEndOrder (t : Table Channel) (slot : Nat) : Table Channel × ArbiterReport :=
  applyOrder t (fadingUnder slot) (fun _ => .free 0)

/-- A stop order: the channels that still name the band become FREE holding their last level (R13). -/
def stopOrder (t : Table Channel) (band : Nat) : Table Channel × ArbiterReport :=
  applyOrder t (fun h => decide (h.owner = some (.band band))) (fun ch => .free ch.last)

/-- A clear order: the playback's FADING channels become SETTLED at their last level (R14). -/
def clearOrder (t : Table Channel) (playback : Nat) : Table Channel × ArbiterReport :=
  applyOrder t (fun h => ownedBy playback h && h.slot.isSome)
    (fun ch => .settled playback (ch.holding.priority.getD 0) ch.last)

/-- A snap order: every channel of the playback becomes FREE at level 0 (R15). -/
def snapOrder (t : Table Channel) (playback : Nat) : Table Channel × ArbiterReport :=
  applyOrder t (ownedBy playback) (fun _ => .free 0)

/-- The show-reset order: every channel becomes FREE at level 0, last level unchanged (R17). The channels that are not FREE
at level 0 already are those that the order changes, and its report counts them (R10). -/
def showResetOrder (t : Table Channel) : Table Channel × ArbiterReport :=
  applyOrder t (fun h => decide (h ≠ .free 0)) (fun _ => .free 0)

/-- The owned count of a playback: how many channels it owns (R54). -/
def Arbiter.ownedCount (a : Arbiter) (playback : Nat) : Nat :=
  a.channels.countWhere (fun ch => ownedBy playback ch.holding)

end Sys2Proof.Machine
end

