-- ==== Sys2Proof/Machine/Operands.lean ====
section
/-! DEFINITION. Request records: the 32 kinds, their parameter fields, the format checks of R165, R176 and R177, and
the typed request that a record which passes them carries. -/

namespace Sys2Proof.Machine

/-- The 32 request kinds (11.1). -/
inductive Kind where
  | nop | restartQueue
  | loadScene | deleteScene | queryScene
  | configPlayback | queryPlayback | runCue | go | pause | resume | clear | release
  | loadBand | startBand | stopBand | setRoll
  | park | unpark | setMaster | setFramePeriod | readLevels | showReset
  | commit | abortGroup
  | configPort
  | configFeed | configSupply | powerUp | powerDown | clearFault | queryFeeds
deriving DecidableEq, Repr

/-- Every request kind. -/
def Kind.all : List Kind :=
  [.nop, .restartQueue, .loadScene, .deleteScene, .queryScene, .configPlayback, .queryPlayback, .runCue, .go, .pause,
   .resume, .clear, .release, .loadBand, .startBand, .stopBand, .setRoll, .park, .unpark, .setMaster, .setFramePeriod,
   .readLevels, .showReset, .commit, .abortGroup, .configPort, .configFeed, .configSupply, .powerUp, .powerDown,
   .clearFault, .queryFeeds]

/-- The kind codes (11.1). -/
def Kind.code : Kind → Byte
  | .nop => 0x01 | .restartQueue => 0x02
  | .loadScene => 0x10 | .deleteScene => 0x11 | .queryScene => 0x12
  | .configPlayback => 0x20 | .queryPlayback => 0x21 | .runCue => 0x22 | .go => 0x23 | .pause => 0x24
  | .resume => 0x25 | .clear => 0x26 | .release => 0x27
  | .loadBand => 0x30 | .startBand => 0x31 | .stopBand => 0x32 | .setRoll => 0x33
  | .park => 0x40 | .unpark => 0x41 | .setMaster => 0x42 | .setFramePeriod => 0x43 | .readLevels => 0x44
  | .showReset => 0x45
  | .commit => 0x50 | .abortGroup => 0x51
  | .configPort => 0x60
  | .configFeed => 0x70 | .configSupply => 0x71 | .powerUp => 0x72 | .powerDown => 0x73 | .clearFault => 0x74
  | .queryFeeds => 0x75

/-- The kind that a kind byte names, if any (R176). -/
def Kind.ofCode (b : Byte) : Option Kind := Kind.all.find? (fun k => decide (k.code = b))

/-- The parameter bytes the kind's table row assigns, as (offset, size) pairs (11.1). -/
def Kind.fields : Kind → List (Nat × Nat)
  | .nop => []
  | .restartQueue => [(8, 1)]
  | .loadScene => [(8, 1), (10, 2), (16, 8)]
  | .deleteScene => [(8, 1)]
  | .queryScene => [(8, 1)]
  | .configPlayback => [(8, 1), (9, 1), (10, 2)]
  | .queryPlayback => [(8, 1)]
  | .runCue => [(8, 1), (9, 1), (10, 2), (12, 2), (14, 2), (16, 2), (18, 1), (19, 1)]
  | .go => [(8, 1)]
  | .pause => [(8, 1)]
  | .resume => [(8, 1)]
  | .clear => [(8, 1)]
  | .release => [(8, 1), (9, 1), (10, 2)]
  | .loadBand => [(8, 1), (9, 1), (10, 2), (12, 2), (14, 2), (16, 2), (18, 2), (20, 2), (24, 8)]
  | .startBand => [(8, 1), (9, 1)]
  | .stopBand => [(8, 1)]
  | .setRoll => [(8, 1), (9, 1), (10, 2), (12, 2), (14, 2)]
  | .park => [(8, 2), (10, 2), (12, 2)]
  | .unpark => [(8, 2), (10, 2)]
  | .setMaster => [(8, 2)]
  | .setFramePeriod => [(8, 2)]
  | .readLevels => [(8, 2), (10, 2), (16, 8)]
  | .showReset => []
  | .commit => [(8, 1)]
  | .abortGroup => [(8, 1)]
  | .configPort => [(8, 1), (9, 1), (10, 2), (12, 2), (14, 1), (15, 1), (16, 1), (17, 1), (18, 1), (19, 1), (20, 2)]
  | .configFeed => [(8, 1), (9, 1), (10, 1)]
  | .configSupply => [(8, 1), (9, 1), (10, 1)]
  | .powerUp => []
  | .powerDown => []
  | .clearFault => [(8, 1)]
  | .queryFeeds => []

/-- The eleven kinds that may carry a nonzero group (R120). -/
def Kind.groupable : Kind → Bool
  | .go | .pause | .resume | .clear | .release => true
  | .startBand | .stopBand | .setRoll => true
  | .park | .unpark | .setMaster => true
  | _ => false

/-! ## The bytes of a record (11.1) -/

/-- Byte `o` of the record, 0 to 63. -/
def byteAt (r : RequestRecord) (o : Nat) : Byte :=
  match o with
  | 0 => r.kind
  | 1 => r.body.flags
  | 2 => r.body.group
  | 3 => r.body.reserved3
  | 4 => byteOf r.body.tag.toNat 0
  | 5 => byteOf r.body.tag.toNat 1
  | 6 => byteOf r.body.reserved6.toNat 0
  | 7 => byteOf r.body.reserved6.toNat 1
  | n + 8 => r.body.params.getD n 0

/-- The unsigned field of `size` bytes at offset `o`, 8 or above, least significant byte first. -/
def field (b : RecordBody) (o size : Nat) : Nat := leAt b.params (o - 8) size

/-- The signed 16-bit field at offset `o` (11, opening). -/
def field16s (b : RecordBody) (o : Nat) : Int := (BitVec.ofNat 16 (field b o 2)).toInt

/-- Flag bit 0 (11.1). -/
def fenceFlag (b : RecordBody) : Bool := b.flags.getLsbD 0

/-- Flag bit 1 (11.1). -/
def reportFlag (b : RecordBody) : Bool := b.flags.getLsbD 1

/-- Whether byte `o` of a record of kind `k` is assigned to a parameter. -/
def Kind.assigns (k : Kind) (o : Nat) : Bool := k.fields.any (fun f => decide (f.1 ≤ o ∧ o < f.1 + f.2))

/-- Whether byte `o` of the record offends check 2 of R165: it is reserved and nonzero, or it is the flags with a
reserved bit set (R176). -/
def reservedOffends (k : Kind) (r : RequestRecord) (o : Nat) : Bool :=
  if o = 1 then decide (4 ≤ r.body.flags.toNat)
  else if o = 3 ∨ o = 6 ∨ o = 7 then decide (byteAt r o ≠ 0)
  else if 8 ≤ o then !k.assigns o && decide (byteAt r o ≠ 0)
  else false

/-- The lowest offending byte of check 2 of R165, if any. -/
def lowestReserved (k : Kind) (r : RequestRecord) : Option Nat := (List.range 64).find? (reservedOffends k r)

/-! ## Requests -/

/-- What RUN_CUE asks for (R70). -/
structure CueRequest where
  playback : Nat
  scene : Nat
  label : Nat
  fadeTime : Nat
  delay : Nat
  followWait : Nat
  curve : Curve
  trigger : Trigger
  report : Bool
deriving DecidableEq, Repr

/-- What LOAD_BAND asks for (R91). -/
structure BandLoadRequest where
  band : Nat
  port : Nat
  firstPixel : Nat
  lead : Nat
  roll : Nat
  tail : Nat
  step : Int
  stepPeriod : Nat
  address : HostAddress
deriving DecidableEq, Repr

/-- A request whose record passed the format checks: one constructor a kind, the eleven groupable kinds together. -/
inductive Request where
  | groupable (request : GroupRequest)
  | nop
  | restartQueue (queue : Nat)
  | loadScene (scene count : Nat) (address : HostAddress)
  | deleteScene (scene : Nat)
  | queryScene (scene : Nat)
  | configPlayback (playback priority defaultRelease : Nat)
  | queryPlayback (playback : Nat)
  | runCue (request : CueRequest)
  | loadBand (request : BandLoadRequest)
  | setFramePeriod (period : Nat)
  | readLevels (first count : Nat) (address : HostAddress)
  | showReset
  | commit (group : Nat)
  | abortGroup (group : Nat)
  | configPort (request : PortRequest)
  | configFeed (feed slot timeout : Nat)
  | configSupply (interval : Nat) (mode : PowerDownMode) (policy : TripPolicy)
  | powerUp
  | powerDown
  | clearFault (mask : Nat)
  | queryFeeds
deriving DecidableEq, Repr

/-! ## Enumerated fields (11.1, R177) -/

def curveOf : Nat → Option Curve
  | 0 => some .linear | 1 => some .square | 2 => some .scurve | 3 => some .snapStart | 4 => some .snapEnd
  | _ => none

def triggerOf : Nat → Option Trigger
  | 0 => some .manual | 1 => some .follow | 2 => some .withPrevious
  | _ => none

def rateOf : Nat → Option Rate
  | 0 => some .mbit08 | 1 => some .mbit2 | 2 => some .mbit4 | 3 => some .mbit8
  | _ => none

def switchOf : Nat → Option Bool
  | 0 => some false | 1 => some true
  | _ => none

def modeOf : Nat → Option PowerDownMode
  | 0 => some .sequential | 1 => some .together
  | _ => none

def policyOf : Nat → Option TripPolicy
  | 0 => some .isolate | 1 => some .all
  | _ => none

/-! ## Check 5 of R165: the parameters

Each list gives, in ascending order of offset, the condition that the parameter at that offset must meet. A sum check
stands at the lowest offset of its terms (log entry 13), and asks nothing where one of its terms is out of its own
range. -/

/-- The two parameters of a channel run: first channel 0 to 4095, count 1 to 4,096, and their sum at most 4,096
(R108, R109, R113). -/
def channelRunChecks (b : RecordBody) : List (Nat × Bool) :=
  [(8, decide (field b 8 2 < 4096 ∧ (field b 10 2 < 1 ∨ 4096 < field b 10 2 ∨ field b 8 2 + field b 10 2 ≤ 4096))),
   (10, decide (1 ≤ field b 10 2 ∧ field b 10 2 ≤ 4096))]

/-- A host address of `bytes` bytes: a multiple of `align`, and the area does not pass 2^64 - 1 (R177). -/
def addressOk (address align bytes : Nat) : Bool := decide (address % align = 0 ∧ address + bytes ≤ 2 ^ 64)

/-- The bytes of a pattern colour (R91). -/
def colourSize (components : Nat) : Nat := if components = 4 then 8 else 6

/-- The parameter conditions of a kind, each with its offset; `components` gives the components in force at a port,
which a LOAD_BAND's area depends on. -/
def paramChecks (components : Nat → Nat) (k : Kind) (b : RecordBody) : List (Nat × Bool) :=
  match k with
  | .nop | .showReset | .powerUp | .powerDown | .queryFeeds => []
  | .deleteScene | .queryScene => []
  | .restartQueue => [(8, decide (field b 8 1 ≤ 3))]
  | .loadScene =>
    [(10, decide (1 ≤ field b 10 2 ∧ field b 10 2 ≤ 1024)),
     (16, addressOk (field b 16 8) 4 (if field b 10 2 ≤ 1024 then 4 * field b 10 2 else 0))]
  | .configPlayback => [(8, decide (field b 8 1 ≤ 15)), (9, decide (field b 9 1 ≤ 7))]
  | .queryPlayback | .go | .pause | .resume | .clear => [(8, decide (field b 8 1 ≤ 15))]
  | .runCue =>
    [(8, decide (field b 8 1 ≤ 15)), (10, decide (field b 10 2 ≠ 0)), (18, (curveOf (field b 18 1)).isSome),
     (19, (triggerOf (field b 19 1)).isSome)]
  | .release => [(8, decide (field b 8 1 ≤ 15)), (9, decide (field b 9 1 ≤ 1))]
  | .loadBand =>
    let lead := field b 12 2
    let roll := field b 14 2
    let tail := field b 16 2
    let length := lead + roll + tail
    [(8, decide (field b 8 1 ≤ 7)), (9, decide (field b 9 1 ≤ 7)), (10, decide (field b 10 2 ≤ 511)),
     (12, decide (lead ≤ 512 ∧ (512 < roll ∨ 512 < tail ∨ (1 ≤ length ∧ length ≤ 512)))), (14, decide (roll ≤ 512)),
     (16, decide (tail ≤ 512)), (18, decide (-255 ≤ field16s b 18 ∧ field16s b 18 ≤ 255)),
     (20, decide (1 ≤ field b 20 2)),
     (24, addressOk (field b 24 8) 2
       (if length ≤ 512 ∧ field b 9 1 ≤ 7 then length * colourSize (components (field b 9 1)) else 0))]
  | .startBand => [(8, decide (field b 8 1 ≤ 7)), (9, decide (field b 9 1 ≤ 7))]
  | .stopBand => [(8, decide (field b 8 1 ≤ 7))]
  | .setRoll =>
    [(8, decide (field b 8 1 ≤ 7)), (9, decide (field b 9 1 ≤ 1)),
     (10, decide (-255 ≤ field16s b 10 ∧ field16s b 10 ≤ 255)), (12, decide (1 ≤ field b 12 2)),
     (14, decide (field b 9 1 ≠ 1 ∨ field b 14 2 ≤ 511))]
  | .park => channelRunChecks b
  | .unpark => channelRunChecks b
  | .setMaster => []
  | .setFramePeriod => [(8, decide (25 ≤ field b 8 2 ∧ field b 8 2 ≤ 400))]
  | .readLevels =>
    channelRunChecks b ++
      [(16, addressOk (field b 16 8) 4 (if field b 10 2 ≤ 4096 then 2 * field b 10 2 else 0))]
  | .commit | .abortGroup => [(8, decide (1 ≤ field b 8 1 ∧ field b 8 1 ≤ 15))]
  | .configPort =>
    let pixels := field b 12 2
    let comps := field b 14 1
    [(8, decide (field b 8 1 ≤ 7)), (9, (switchOf (field b 9 1)).isSome),
     (10, decide (field b 10 2 < 4096 ∧
       (512 < pixels ∨ (comps ≠ 3 ∧ comps ≠ 4) ∨ field b 10 2 + pixels * comps ≤ 4096))),
     (12, decide (pixels ≤ 512)), (14, decide (comps = 3 ∨ comps = 4)),
     (15, decide (field b 15 1 = 8 ∨ field b 15 1 = 16)), (16, (rateOf (field b 16 1)).isSome),
     (17, (switchOf (field b 17 1)).isSome), (18, decide (field b 18 1 ≤ 5 ∨ field b 18 1 = 255)),
     (19, (switchOf (field b 19 1)).isSome)]
  | .configFeed => [(8, decide (field b 8 1 ≤ 5)), (9, decide (field b 9 1 ≤ 8)), (10, decide (1 ≤ field b 10 1))]
  | .configSupply => [(9, (modeOf (field b 9 1)).isSome), (10, (policyOf (field b 10 1)).isSome)]
  | .clearFault => [(8, decide (1 ≤ field b 8 1 ∧ field b 8 1 ≤ 63))]

/-- The offset of the lowest parameter that fails its condition (R165). -/
def firstFailing (checks : List (Nat × Bool)) : Option Nat := (checks.find? (fun c => !c.2)).map Prod.fst

/-- The request a record of kind `k` carries, read from its parameter fields (11.1). An enumerated field that names no
value is read as the first one; check 5 has refused such a record. -/
def requestOf (k : Kind) (b : RecordBody) : Request :=
  match k with
  | .nop => .nop
  | .restartQueue => .restartQueue (field b 8 1)
  | .loadScene => .loadScene (field b 8 1) (field b 10 2) (BitVec.ofNat 64 (field b 16 8))
  | .deleteScene => .deleteScene (field b 8 1)
  | .queryScene => .queryScene (field b 8 1)
  | .configPlayback => .configPlayback (field b 8 1) (field b 9 1) (field b 10 2)
  | .queryPlayback => .queryPlayback (field b 8 1)
  | .runCue =>
    .runCue
      { playback := field b 8 1, scene := field b 9 1, label := field b 10 2, fadeTime := field b 12 2,
        delay := field b 14 2, followWait := field b 16 2, curve := (curveOf (field b 18 1)).getD .linear,
        trigger := (triggerOf (field b 19 1)).getD .manual, report := reportFlag b }
  | .go => .groupable (.playback (.go (field b 8 1)))
  | .pause => .groupable (.playback (.pause (field b 8 1)))
  | .resume => .groupable (.playback (.resume (field b 8 1)))
  | .clear => .groupable (.playback (.clear (field b 8 1)))
  | .release =>
    .groupable (.playback (.release (field b 8 1) (if field b 9 1 = 1 then some (field b 10 2) else none)))
  | .loadBand =>
    .loadBand
      { band := field b 8 1, port := field b 9 1, firstPixel := field b 10 2, lead := field b 12 2,
        roll := field b 14 2, tail := field b 16 2, step := field16s b 18, stepPeriod := field b 20 2,
        address := BitVec.ofNat 64 (field b 24 8) }
  | .startBand => .groupable (.band (.start (field b 8 1) (field b 9 1)))
  | .stopBand => .groupable (.band (.stop (field b 8 1)))
  | .setRoll =>
    .groupable (.band (.setRoll (field b 8 1) (field16s b 10) (field b 12 2)
      (if field b 9 1 = 1 then some (field b 14 2) else none)))
  | .park => .groupable (.compose (.park (field b 8 2) (field b 10 2) (BitVec.ofNat 16 (field b 12 2))))
  | .unpark => .groupable (.compose (.unpark (field b 8 2) (field b 10 2)))
  | .setMaster => .groupable (.compose (.setMaster (BitVec.ofNat 16 (field b 8 2))))
  | .setFramePeriod => .setFramePeriod (field b 8 2)
  | .readLevels => .readLevels (field b 8 2) (field b 10 2) (BitVec.ofNat 64 (field b 16 8))
  | .showReset => .showReset
  | .commit => .commit (field b 8 1)
  | .abortGroup => .abortGroup (field b 8 1)
  | .configPort =>
    .configPort
      { port := field b 8 1
        config :=
          { enable := (switchOf (field b 9 1)).getD false, first := field b 10 2, pixels := field b 12 2,
            components := field b 14 1, depth := field b 15 1, rate := (rateOf (field b 16 1)).getD .mbit08,
            reversed := (switchOf (field b 17 1)).getD false,
            feed := if field b 18 1 ≤ 5 then some (field b 18 1) else none,
            echoCheck := (switchOf (field b 19 1)).getD false, safe := BitVec.ofNat 16 (field b 20 2) } }
  | .configFeed => .configFeed (field b 8 1) (field b 9 1) (field b 10 1)
  | .configSupply =>
    .configSupply (field b 8 1) ((modeOf (field b 9 1)).getD .sequential) ((policyOf (field b 10 1)).getD .isolate)
  | .powerUp => .powerUp
  | .powerDown => .powerDown
  | .clearFault => .clearFault (field b 8 1)
  | .queryFeeds => .queryFeeds

/-- A record carries a group. The format checks refuse one whose kind is not groupable, so that it is completed at intake
or reaches the Frame Group Unit, and no owner sees it then (R120, R165). -/
def carriesGroup (b : RecordBody) : Bool := decide (b.group ≠ 0)

/-- What the format checks say of a taken record (R165). -/
inductive Checked where
  | badKind
  | badField (offset : Nat)
  | passed (request : Request)
deriving DecidableEq, Repr

/-- Checks 2 to 5 of R165, in their order, for a record of a known kind. -/
def checkKind (components : Nat → Nat) (k : Kind) (r : RequestRecord) : Checked :=
  match lowestReserved k r with
  | some o => .badField o
  | none =>
    if reportFlag r.body = true ∧ k ≠ .runCue then .badField 1
    else if 15 < r.body.group.toNat ∨ (r.body.group ≠ 0 ∧ k.groupable = false) then .badField 2
    else
      match firstFailing (paramChecks components k r.body) with
      | some o => .badField o
      | none => .passed (requestOf k r.body)

/-- The format checks of R165. -/
def formatCheck (components : Nat → Nat) (r : RequestRecord) : Checked :=
  match Kind.ofCode r.kind with
  | none => .badKind
  | some k => checkKind components k r

end Sys2Proof.Machine
end

