-- ==== Sys2Proof/Machine/SceneStore.lean ====
section
/-! DEFINITION. The Scene Store: scene entries, block accounting, the load queue, and its three requests (02); with it
the end of a band pattern load, which the store hands to the Band Unit (R25, R92). -/

namespace Sys2Proof.Machine

/-- The blocks a scene of `n` entries holds (R20). -/
def blocksFor (n : Nat) : Nat := (n + 15) / 16

/-- The scene becomes EMPTY and its whole chain returns to the free count (R21, R26, R29). -/
def SceneStore.emptyScene (t : SceneStore) (id : Nat) : SceneStore :=
  { t.setScene id Scene.none with freeBlocks := t.freeBlocks + (t.scene id).blocks }

/-- A load that has taken the next number joins the tail of the load queue; one that joins an empty queue is FETCHING at
once (R24). -/
def SceneStore.joinQueue (t : SceneStore) (l : Load) : SceneStore :=
  { t with
    loads := t.loads ++ [{ l with fetching := t.loads.isEmpty }]
    nextLoad := t.nextLoad + 1 }

/-- The load at the head leaves; the next one becomes the head and goes FETCHING (R24). -/
def nextHead : List Load → List Load
  | [] => []
  | _ :: [] => []
  | _ :: l :: rest => { l with fetching := true } :: rest

/-- The use count of a lent scene rises by one; a lend for a scene that is not READY is discarded (R23, R32). -/
def SceneStore.lend (t : SceneStore) (id : Nat) : SceneStore :=
  if (t.scene id).state = .ready then t.setScene id { t.scene id with useCount := (t.scene id).useCount + 1 } else t

/-- The use count of a returned scene falls by one; a return that finds use count 0 is discarded (R23, R32). -/
def SceneStore.giveBack (t : SceneStore) (id : Nat) : SceneStore :=
  t.setScene id { t.scene id with useCount := (t.scene id).useCount - 1 }

/-! ## LOAD_SCENE, DELETE_SCENE, QUERY_SCENE -/

/-- LOAD_SCENE's checks, in order, with the status and detail of the first that fails (R27). -/
def SceneStore.loadSceneRefusal (t : SceneStore) (id count : Nat) : Option (Status × Nat) :=
  let sc := t.scene id
  if sc.state = .loading then some (.busy, 0)
  else if sc.state = .ready ∧ 0 < sc.useCount then some (.inUse, sc.useCount)
  else if Config.loads ≤ t.loads.length then some (.busy, 0)
  else if t.freeBlocks + sc.blocks < blocksFor count then some (.noSpace, t.freeBlocks + sc.blocks)
  else none

/-- The store accepts a LOAD_SCENE: the old chain returns, the new one is taken, the scene is LOADING, and its load
joins the queue (R21, R27). -/
def SceneStore.acceptLoadScene (t : SceneStore) (ctx : Ctx) (id count : Nat) (address : HostAddress) : SceneStore :=
  let t' := t.setScene id
    { state := .loading, entryCount := count, blocks := blocksFor count, useCount := 0, entries := [] }
  { t' with freeBlocks := t.freeBlocks + (t.scene id).blocks - blocksFor count }.joinQueue
    { id := t.nextLoad, target := .scene id, address := address, itemCount := count, itemSize := 4, received := 0, fetching := false,
      ctx := ctx }

/-- The store takes LOAD_SCENE (R27). -/
def State.takeLoadScene (s : State) (ctx : Ctx) (id count : Nat) (address : HostAddress) : State :=
  match s.store.loadSceneRefusal id count with
  | some (status, detail) => s.finishNow ctx status detail
  | none => { s with store := s.store.acceptLoadScene ctx id count address }

/-- The store takes DELETE_SCENE (R29). -/
def State.takeDeleteScene (s : State) (ctx : Ctx) (id : Nat) : State :=
  let sc := s.store.scene id
  match sc.state with
  | .loading => s.finishNow ctx .busy 0
  | .empty => s.finishNow ctx .notFound 0
  | .ready =>
    if 0 < sc.useCount then s.finishNow ctx .inUse sc.useCount
    else State.finishNow { s with store := s.store.emptyScene id } ctx .ok sc.blocks

/-- QUERY_SCENE's detail (R30, 11.3). -/
def SceneStore.sceneWord (t : SceneStore) (id : Nat) : Nat :=
  let sc := t.scene id
  sc.state.code + 2 ^ 2 * sc.entryCount + 2 ^ 13 * sc.useCount + 2 ^ 20 * t.freeBlocks

/-- The store takes QUERY_SCENE (R30). -/
def State.takeQueryScene (s : State) (ctx : Ctx) (id : Nat) : State := s.finishNow ctx .ok (s.store.sceneWord id)

/-! ## The load being fetched -/

/-- The load at the head leaves the queue. -/
def SceneStore.popLoad (t : SceneStore) : SceneStore := { t with loads := nextHead t.loads }

/-- The store sends a load-end notice; it carries the effective frame `f` of the load's end (R28). -/
def State.notifyLoadEnd (s : State) (f id : Nat) (state : SceneState) : State :=
  { s with
    store := { s.store with
      notices := s.store.notices ++ [{ scene := id, state := state, frame := f }] } }

/-- A scene load ends with the scene READY (R25, R28). -/
def State.endSceneLoadReady (s : State) (f : Nat) (l : Load) (id : Nat) : State :=
  let sc := s.store.scene id
  let s1 := { s with store := (s.store.setScene id { sc with state := .ready }).popLoad }
  (s1.notifyLoadEnd f id .ready).finishNow l.ctx .ok sc.entryCount

/-- A scene load fails: its scene becomes EMPTY and its chain returns (R26, R28). -/
def State.endSceneLoadFailed (s : State) (f : Nat) (l : Load) (id : Nat) (status : Status) (detail : Nat) : State :=
  let s1 := { s with store := (s.store.emptyScene id).popLoad }
  (s1.notifyLoadEnd f id .empty).finishNow l.ctx status detail

/-- The setup of a band that has one. -/
def Band.setup : Band → Option BandSetup
  | .undefined => none
  | .loading d => some d
  | .stopped d => some d
  | .running d _ => some d

/-- A band load ends with every colour received: the band is STOPPED (R92). -/
def State.endBandLoadReady (s : State) (l : Load) (b : Nat) (setup : BandSetup) : State :=
  State.finishNow { s with store := s.store.popLoad, bands := s.bands.setBand b (.stopped setup) } l.ctx .ok
    l.itemCount

/-- A band load fails: the band is UNDEFINED (R92). -/
def State.endBandLoadFailed (s : State) (l : Load) (b : Nat) (status : Status) (detail : Nat) : State :=
  State.finishNow { s with store := s.store.popLoad, bands := s.bands.setBand b .undefined } l.ctx status detail

/-- The head load has received one more item. -/
def SceneStore.countItem (t : SceneStore) : SceneStore :=
  { t with
    loads := match t.loads with
      | [] => []
      | l :: rest => { l with received := l.received + 1 } :: rest }

/-- Whether a scene entry being taken in is refused: a channel above 4095, or one that the load already named (R26). -/
def badSceneEntry (sc : Scene) (item : Nat × Level) : Bool :=
  decide (4095 < item.1) || sc.entries.any (fun e => decide (e.1 = item.1))

/-- One item of a scene load is taken in: checked, written at its place, and the load ends when it was the last or
was bad (R25, R26). -/
def State.takeSceneItem (s : State) (f : Nat) (l : Load) (id : Nat) (bytes : List Byte) : State :=
  let sc := s.store.scene id
  let item := sceneItem bytes
  if badSceneEntry sc item then s.endSceneLoadFailed f l id .badField l.received
  else
    let s1 := { s with store := (s.store.setScene id { sc with entries := sc.entries ++ [item] }).countItem }
    if l.received + 1 < l.itemCount then s1 else s1.endSceneLoadReady f l id

/-- One colour of a band load is taken in (R25, R86). -/
def State.takeColour (s : State) (l : Load) (b : Nat) (bytes : List Byte) : State :=
  match (s.bands.band b).setup with
  | none => s
  | some d =>
    let d' := { d with pattern := d.pattern ++ [colourItem d.components bytes] }
    if l.received + 1 < l.itemCount then
      { s with store := s.store.countItem, bands := s.bands.setBand b (.loading d') }
    else s.endBandLoadReady l b d'

/-- The data of one item returns from host memory (R25); `f` is the effective frame of what ends now (R28). Data of any other load than the one being fetched is late: that
load was cancelled, abandoned or failed, and the data is discarded (R26, R32, R33). -/
def State.loadItem (s : State) (f : Nat) (item : LoadItem) : State :=
  match s.store.loads.head?.filter (fun l => decide (l.id = item.load)) with
  | none => s
  | some l =>
    match l.target with
    | .scene id => s.takeSceneItem f l id item.bytes
    | .band b => s.takeColour l b item.bytes

/-- The host answers a read of the data of the load being fetched with an error (R26, R92). An error answer to a read of
a load that is over does nothing, and is no command; with no load in the queue the command changes nothing (log entries
3 and 31). -/
def State.loadError (s : State) (f : Nat) : State :=
  match s.store.loads.head? with
  | none => s
  | some l =>
    match l.target with
    | .scene id => s.endSceneLoadFailed f l id .hostReadError l.received
    | .band b => s.endBandLoadFailed l b .hostReadError l.received

/-- The host answers a read of load data. -/
def State.loadAnswer (s : State) (f : Nat) : LoadAnswer → State
  | .item item => s.loadItem f item
  | .error => s.loadError f

/-! ## Cancelling and abandoning -/

/-- Whether a load fills a band. -/
def Load.fillsBand (l : Load) : Bool :=
  match l.target with
  | .scene _ => false
  | .band _ => true

/-- One load is abandoned by a host interface reset: no completion; a scene is left EMPTY and a notice says so, a band
is left UNDEFINED (R33, R99). -/
def State.abandonLoad (s : State) (l : Load) : State :=
  match l.target with
  | .scene id => State.notifyLoadEnd { s with store := s.store.emptyScene id } s.effectiveFrame id .empty
  | .band b => { s with bands := s.bands.setBand b .undefined }

/-- Every load is abandoned (R33, R99). DESIGN CHOICE: the load-end notices of several abandoned loads are sent in queue
order, an order that R33 does not give (log entry 44). -/
def State.abandonLoads (s : State) : State :=
  let s1 := s.store.loads.foldl State.abandonLoad s
  { s1 with store := { s1.store with loads := [] } }

/-- The requests of the scene loads of a load queue, in queue order. -/
def sceneRequests (loads : List Load) : List Ctx :=
  loads.filterMap (fun l =>
    match l.target with
    | .scene _ => some l.ctx
    | .band _ => none)

/-- The requests of the band loads of a load queue, in queue order. -/
def bandRequests (loads : List Load) : List Ctx :=
  loads.filterMap (fun l =>
    match l.target with
    | .scene _ => none
    | .band _ => some l.ctx)

/-- SHOW_RESET in the store: every scene EMPTY, every block free, every load cancelled (R32). The store hands over the
completions of the scene loads, in queue order; those of the band loads are the Band Unit's (R98). -/
def State.showResetStore (s : State) : State :=
  let s1 := (sceneRequests s.store.loads).foldl (fun acc c => acc.finishNow c .cancelled 0) s
  { s1 with
    store := { s1.store with scenes := Table.empty, freeBlocks := Config.blocks, loads := [] } }

end Sys2Proof.Machine
end

