-- ==== Sys2Proof/Machine/Bands.lean ====
section
/-! DEFINITION. The Band Unit: rolling, LOAD_BAND, and what applying START_BAND, STOP_BAND and SET_ROLL does to a
record (05). -/

namespace Sys2Proof.Machine

/-! ## Rolling (R88, R89) -/

/-- A sum reduced modulo the roll length to 0 .. b - 1; 0 when the roll is empty (R88). -/
def rollMod (v : Int) (b : Nat) : Nat := if b = 0 then 0 else (v % (b : Int)).toNat

/-- The roll offset of a RUNNING band for frame `n` (R88). -/
def rollOffset (d : BandSetup) (originFrame n : Nat) : Nat :=
  rollMod ((d.originOffset : Int) + d.step * (((n - originFrame) / d.stepPeriod : Nat) : Int)) d.roll

/-- The pattern index that band pixel `i` shows at offset `o` (R89). -/
def patternIndex (d : BandSetup) (o i : Nat) : Nat :=
  if i < d.lead ∨ d.lead + d.roll ≤ i then i else d.lead + (i - d.lead + o) % d.roll

/-- The value of channel `c` under a RUNNING band for frame `n` (R89). -/
def bandValue (d : BandSetup) (r : BandRun) (n c : Nat) : Level :=
  let j := c - r.firstChannel
  let colour := d.pattern.getD (patternIndex d (rollOffset d r.originFrame n) (j / d.components)) []
  colour.getD (j % d.components) 0

/-- The length of a band in pixels (R84). -/
def BandSetup.length (d : BandSetup) : Nat := d.lead + d.roll + d.tail

/-- Whether a band is RUNNING on port `p` (R85). -/
def Band.runsOn (p : Nat) : Band → Bool
  | .running d _ => decide (d.port = p)
  | _ => false

/-- The lowest-numbered band RUNNING on port `p` (R138). -/
def BandUnit.lowestOn (u : BandUnit) (p : Nat) : Option Nat :=
  (List.range Config.bands).find? (fun b => (u.band b).runsOn p)

/-! ## LOAD_BAND -/

/-- LOAD_BAND's checks, in order (R91). -/
def State.loadBandRefusal (s : State) (b : Nat) : Option Status :=
  match s.bands.band b with
  | .loading _ => some .busy
  | .running _ _ => some .inUse
  | _ => if Config.loads ≤ s.store.loads.length then some .busy else none

/-- The Band Unit accepts a LOAD_BAND (R91). -/
def State.acceptLoadBand (s : State) (ctx : Ctx) (q : BandLoadRequest) : State :=
  let components := (s.ports.port q.port).applied.components
  let setup : BandSetup :=
    { port := q.port, firstPixel := q.firstPixel, lead := q.lead, roll := q.roll, tail := q.tail,
      components := components, pattern := [], step := q.step, stepPeriod := q.stepPeriod, originOffset := 0 }
  { s with
    bands := s.bands.setBand q.band (.loading setup)
    store := s.store.joinQueue
      { id := s.store.nextLoad, target := .band q.band, address := q.address, itemCount := setup.length,
        itemSize := colourSize components, received := 0, fetching := false, ctx := ctx } }

/-- The Band Unit takes LOAD_BAND (R91). -/
def State.takeLoadBand (s : State) (ctx : Ctx) (q : BandLoadRequest) : State :=
  match s.loadBandRefusal q.band with
  | some status => s.finishNow ctx status 0
  | none => s.acceptLoadBand ctx q

/-- The Band Unit stages a request (R87). -/
def State.stageBand (s : State) (ctx : Ctx) (q : BandRequest) : State :=
  { s with bands := { s.bands with staged := s.bands.staged ++ [s.stage ctx q] } }

/-! ## Application -/

/-- START_BAND's checks at application, in order, with status and detail (R93). -/
def startBandRefusal (b : Band) (c : PortConfig) : Option (Status × Nat) :=
  match b with
  | .undefined => some (.notReady, 0)
  | .loading _ => some (.notReady, 0)
  | .running _ _ => some (.busy, 0)
  | .stopped d =>
    if c.components ≠ d.components then some (.badField, c.components)
    else if c.pixels < d.firstPixel + d.length then some (.badField, c.pixels)
    else none

/-- The channel range a starting band takes from its record and its port's configuration: first channel and count
(R90). -/
def bandRange (d : BandSetup) (c : PortConfig) : Nat × Nat :=
  (c.first + d.firstPixel * d.components, d.length * d.components)

/-- The port a band lies on; 0 where the record has none, which no check reads (R84). -/
def Band.portOf (b : Band) : Nat :=
  match b.setup with
  | some d => d.port
  | none => 0

/-- What a STOP_BAND applied at `f` leaves of a RUNNING band: STOPPED, its offset that of frame `f` - 1, or kept when
that is before the origin frame (R95). -/
def stoppedAt (d : BandSetup) (r : BandRun) (f : Nat) : Band :=
  .stopped { d with
    originOffset := if f - 1 < r.originFrame then d.originOffset else rollOffset d r.originFrame (f - 1) }

/-- What a SET_ROLL applied at `f` makes of a band, with the new origin offset; none where it is NOT_READY (R96). -/
def rolledAt (b : Band) (f : Nat) (step : Int) (period : Nat) (offset : Option Nat) : Option (Band × Nat) :=
  match b with
  | .running d r =>
    let o := match offset with
      | some v => rollMod v d.roll
      | none => rollOffset d r.originFrame f
    some (.running { d with step := step, stepPeriod := period, originOffset := o } { r with originFrame := f }, o)
  | .stopped d =>
    let o := match offset with
      | some v => rollMod v d.roll
      | none => d.originOffset
    some (.stopped { d with step := step, stepPeriod := period, originOffset := o }, o)
  | _ => none

end Sys2Proof.Machine
end

