-- ==== Sys2Proof/Machine/Supply.lean ====
section
/-! DEFINITION. The Supply Sequencer: feeds, rises, falls, trips, and its six requests (09). Timers are the commands
that end them; a timer of zero length has ended when it starts (log entries 4 and 5). -/

namespace Sys2Proof.Machine

/-! ## Feeds -/

/-- The enable line follows the state (R141). -/
def Feed.enabled (f : Feed) : Bool := decide (f.state = .ramping ∨ f.state = .on)

/-- Whether a feed belongs to the slots 1 to 8. -/
def Feed.sequenced (f : Feed) : Bool := decide (1 ≤ f.slot)

/-- A feed enters RAMPING; a good input already asserted makes it ON at once (R142, R143). -/
def Feed.ramp (f : Feed) : Feed :=
  if f.good then { f with state := .on, deadline := none, cause := none }
  else { f with state := .ramping, deadline := some f.timeoutMs, cause := none }

/-- A feed is switched off by a falling step or cleared (R142, R149, R154). -/
def Feed.switchOff (f : Feed) : Feed := { f with state := .off, deadline := none, cause := none }

/-- A feed enters FAULT (R142, R143, R144). -/
def Feed.fail (f : Feed) (cause : FaultCause) : Feed :=
  { f with state := .fault, deadline := none, cause := some cause }

/-- The feeds, by number. -/
def feedNumbers : List Nat := List.range Config.feeds

/-- Change the feeds whose numbers satisfy `p`. -/
def Supply.updateFeeds (u : Supply) (p : Nat → Bool) (g : Feed → Feed) : Supply :=
  feedNumbers.foldl (fun acc n => if p n then acc.setFeed n (g (acc.feed n)) else acc) u

/-- The mask of the feeds that satisfy `p`: bit n for feed n (11.3). -/
def Supply.maskOf (u : Supply) (p : Feed → Bool) : Nat :=
  (feedNumbers.map (fun n => if p (u.feed n) then 2 ^ n else 0)).sum

/-- The fault mask: the feeds of slots 1 to 8 in FAULT (R147). -/
def Supply.faultMask (u : Supply) : Nat := u.maskOf (fun f => f.sequenced && decide (f.state = .fault))

/-- Whether every feed of slots 1 to 8 is ON (R147, R152). -/
def Supply.allOn (u : Supply) : Bool :=
  feedNumbers.all (fun n => !(u.feed n).sequenced || decide ((u.feed n).state = .on))

/-- Whether some feed of slot `k` is RAMPING or ON (R149). -/
def Supply.slotEnabled (u : Supply) (k : Nat) : Bool :=
  feedNumbers.any (fun n => decide ((u.feed n).slot = k) && (u.feed n).enabled)

/-- The highest slot from 1 to `limit` that holds a feed RAMPING or ON, if any (R149). -/
def Supply.highestEnabled (u : Supply) : Nat → Option Nat
  | 0 => none
  | k + 1 => if u.slotEnabled (k + 1) then some (k + 1) else u.highestEnabled k

/-- A slot interval that starts now (R146). -/
def startInterval (ms : Nat) : SlotInterval := { ms := ms, reached := decide (ms = 0) }

/-! ## Completions of the rise and fall requests -/

/-- Hand over the completion of a sequence's request, if there is one. -/
def State.finishSequence (s : State) (o : Option Owed) (status : Status) (detail : Nat) : State :=
  match o with
  | some owed => s.finish owed status detail
  | none => s

/-! ## Falling (R149) -/

/-- The sequencer becomes DOWN, and the fall request completes with the fault mask (R149). -/
def State.becomeDown (s : State) : State :=
  State.finishSequence
    { s with supply := { s.supply with state := .down, currentSlot := 0, interval := none, fall := none } }
    s.supply.fall .ok s.supply.faultMask

/-- A falling step begins at slot `k`: its enabled feeds go OFF and the interval starts (R149). -/
def Supply.fallStep (u : Supply) (k : Nat) : Supply :=
  { u.updateFeeds (fun n => decide ((u.feed n).slot = k) && (u.feed n).enabled) Feed.switchOff with
    state := .falling, currentSlot := k, interval := some (startInterval u.slotIntervalMs) }

/-- A TOGETHER fall begins: every enabled feed of slots 1 to 8 goes OFF (R149). -/
def Supply.fallTogether (u : Supply) : Supply :=
  { u.updateFeeds (fun n => (u.feed n).sequenced && (u.feed n).enabled) Feed.switchOff with
    state := .falling, currentSlot := 0, interval := some (startInterval u.slotIntervalMs) }

/-- Whether the interval of the current step has ended. -/
def Supply.intervalReached (u : Supply) : Bool :=
  match u.interval with
  | some i => i.reached
  | none => false

/-- While the interval of the falling step has ended, go on to the next lower slot with an enabled feed, or to DOWN
(R149). DEDUCED: a slot interval of 0 has ended when the falling step begins (log entry 5). Each turn lowers the slot, so
nine turns are enough. -/
def State.fallOn : Nat → State → State
  | 0, s => s
  | turns + 1, s =>
    if s.supply.state = .falling ∧ s.supply.intervalReached = true then
      match s.supply.mode, s.supply.highestEnabled (s.supply.currentSlot - 1) with
      | .sequential, some k => State.fallOn turns { s with supply := s.supply.fallStep k }
      | _, _ => s.becomeDown
    else s

/-- A falling sequence begins; its request, if any, is in place (R149). -/
def State.beginFall (s : State) : State :=
  match s.supply.highestEnabled Config.supplySlots with
  | none => s.becomeDown
  | some k =>
    match s.supply.mode with
    | .sequential => State.fallOn 9 { s with supply := s.supply.fallStep k }
    | .together => State.fallOn 9 { s with supply := s.supply.fallTogether }

/-! ## Rising (R147) -/

/-- The lowest slot above `k` that holds a feed of the rise set, if any (R147). -/
def Supply.nextRiseSlot (u : Supply) (k : Nat) : Option Nat :=
  (List.range (Config.supplySlots + 1)).find? (fun j =>
    decide (k < j) && u.riseSet.any (fun n => decide ((u.feed n).slot = j)))

/-- A rising slot begins: its rise-set feeds become RAMPING and the interval starts (R147). -/
def Supply.riseStep (u : Supply) (k : Nat) : Supply :=
  { u.updateFeeds (fun n => u.riseSet.contains n && decide ((u.feed n).slot = k)) Feed.ramp with
    state := .rising, currentSlot := k, interval := some (startInterval u.slotIntervalMs) }

/-- A feed is settled for its slot: ON, or under ISOLATE in FAULT (R147). -/
def Supply.settled (u : Supply) (n : Nat) : Bool :=
  decide ((u.feed n).state = .on) || (decide (u.policy = .isolate) && decide ((u.feed n).state = .fault))

/-- Whether the current rising slot completes: its interval has ended and its rise-set feeds are settled (R147). -/
def Supply.slotCompletes (u : Supply) : Bool :=
  u.intervalReached &&
    u.riseSet.all (fun n => !decide ((u.feed n).slot = u.currentSlot) || u.settled n)

/-- The status and detail with which a POWER_UP completes in UP (R147, R152). -/
def Supply.riseOutcome (u : Supply) : Status × Nat := if u.allOn then (.ok, 0) else (.feedFault, u.faultMask)

/-- The rise ends: the sequencer is UP and the rise request completes (R147). -/
def State.endRise (s : State) : State :=
  State.finishSequence
    { s with
      supply := { s.supply with state := .up, currentSlot := 0, riseSet := [], interval := none, rise := none } }
    s.supply.rise s.supply.riseOutcome.1 s.supply.riseOutcome.2

/-- While the current rising slot completes, go on to the next slot of the rise set, or end the rise (R147). Each turn
raises the slot, so nine turns are enough. -/
def State.riseOn : Nat → State → State
  | 0, s => s
  | turns + 1, s =>
    if s.supply.state = .rising ∧ s.supply.slotCompletes = true then
      match s.supply.nextRiseSlot s.supply.currentSlot with
      | some k => State.riseOn turns { s with supply := s.supply.riseStep k }
      | none => s.endRise
    else s

/-- Let a rise go on as far as it can. -/
def State.riseProgress (s : State) : State := State.riseOn 9 s

/-! ## Faults and trips (R145, R148) -/

/-- The start slot SUPPLY_TRIPPED reports: 0 if the sequencer goes straight to DOWN, the first step's slot under
SEQUENTIAL, an open value under TOGETHER (R148, log entry 2). -/
def Supply.tripSlot (u : Supply) : Nat :=
  match u.highestEnabled Config.supplySlots with
  | none => 0
  | some k =>
    match u.mode with
    | .sequential => k
    | .together => (Config.togetherStartSlot k).toNat

/-- The supply trips over feed `n` (R148). -/
def State.trip (s : State) (n : Nat) : State :=
  let s1 := s.raiseEvent .supplyTripped 0 s.clock.frame (n + 2 ^ 8 * s.supply.tripSlot)
  let s2 :=
    if s1.supply.state = .rising then
      State.finishSequence { s1 with supply := { s1.supply with rise := none, riseSet := [] } } s1.supply.rise
        .feedFault s1.supply.faultMask
    else s1
  State.beginFall { s2 with supply := { s2.supply with fall := none } }

/-- The trip policy, by the sequencer's state at the fault (R145). -/
def State.applyPolicy (s : State) (n : Nat) : State :=
  match s.supply.state, s.supply.policy with
  | .rising, .isolate => s.riseProgress
  | .rising, .all => s.trip n
  | .up, .all => s.trip n
  | _, _ => s

/-- A feed enters FAULT: FEED_FAULT is raised, then the policy is applied (R145). -/
def State.feedFault (s : State) (n : Nat) (cause : FaultCause) : State :=
  let s1 := { s with supply := s.supply.setFeed n ((s.supply.feed n).fail cause) }
  (s1.raiseEvent .feedFault n s.clock.frame (cause.code + 2 ^ 8 * s.supply.state.code)).applyPolicy n

/-! ## The good inputs and the timers -/

/-- The good input of feed `n` becomes asserted (R143). -/
def State.goodAsserted (s : State) (n : Nat) : State :=
  let f := { s.supply.feed n with good := true }
  if f.state = .ramping then
    State.riseProgress { s with supply := s.supply.setFeed n { f with state := .on, deadline := none } }
  else { s with supply := s.supply.setFeed n f }

/-- The good input of feed `n` becomes deasserted (R143). -/
def State.goodDeasserted (s : State) (n : Nat) : State :=
  let f := { s.supply.feed n with good := false }
  let s1 := { s with supply := s.supply.setFeed n f }
  if f.state = .on then s1.feedFault n .dropped else s1

/-- The good deadline of feed `n` is reached; only a RAMPING feed has one (R144). -/
def State.goodTimeout (s : State) (n : Nat) : State :=
  if (s.supply.feed n).state = .ramping then s.feedFault n .timeout else s

/-- The end of the current step's interval is reached (R146). -/
def Supply.reachInterval (u : Supply) : Supply :=
  { u with interval := u.interval.map (fun i => { i with reached := true }) }

/-- The slot interval of a rising step ends (R147). -/
def State.riseIntervalEnds (s : State) : State :=
  if s.supply.state = .rising then State.riseProgress { s with supply := s.supply.reachInterval } else s

/-- The interval of a falling step ends (R149). -/
def State.fallIntervalEnds (s : State) : State :=
  if s.supply.state = .falling then State.fallOn 9 { s with supply := s.supply.reachInterval } else s

/-! ## Requests (R150 to R155) -/

/-- The sequencer takes CONFIG_FEED (R150); the timeout is in units of 10 ms. -/
def State.takeConfigFeed (s : State) (ctx : Ctx) (n slot timeout : Nat) : State :=
  if s.supply.state = .down then
    let f := s.supply.feed n
    State.finishNow { s with supply := s.supply.setFeed n { f with slot := slot, timeoutMs := 10 * timeout } } ctx .ok
      f.slot
  else s.finishNow ctx .busy 0

/-- The sequencer takes CONFIG_SUPPLY (R151); the interval is in units of 10 ms. -/
def State.takeConfigSupply (s : State) (ctx : Ctx) (interval : Nat) (mode : PowerDownMode) (policy : TripPolicy) :
    State :=
  if s.supply.state = .rising ∨ s.supply.state = .falling then s.finishNow ctx .busy 0
  else
    State.finishNow
      { s with supply := { s.supply with slotIntervalMs := 10 * interval, mode := mode, policy := policy } } ctx .ok 0

/-- The feeds of slots 1 to 8 that are OFF: the rise set of a POWER_UP (R152). -/
def Supply.offFeeds (u : Supply) : List Nat :=
  feedNumbers.filter (fun n => (u.feed n).sequenced && decide ((u.feed n).state = .off))

/-- A POWER_UP that passed its checks (R152). -/
def State.beginRise (s : State) (ctx : Ctx) : State :=
  let set := s.supply.offFeeds
  if set = [] then
    State.finishNow { s with supply := { s.supply with state := .up } } ctx s.supply.riseOutcome.1
      s.supply.riseOutcome.2
  else
    let u := { s.supply with riseSet := set, rise := some { ctx := ctx, dropped := false } }
    match u.nextRiseSlot 0 with
    | some k => State.riseProgress { s with supply := u.riseStep k }
    | none => s

/-- The sequencer takes POWER_UP (R152). -/
def State.takePowerUp (s : State) (ctx : Ctx) : State :=
  if s.supply.state = .rising ∨ s.supply.state = .falling then s.finishNow ctx .busy 0
  else if s.supply.policy = .all ∧ s.supply.faultMask ≠ 0 then s.finishNow ctx .feedFault s.supply.faultMask
  else s.beginRise ctx

/-- The sequencer takes POWER_DOWN (R153). -/
def State.takePowerDown (s : State) (ctx : Ctx) : State :=
  let owed : Owed := { ctx := ctx, dropped := false }
  match s.supply.state with
  | .falling => s.finishNow ctx .busy 0
  | .down => s.finishNow ctx .ok s.supply.faultMask
  | .rising =>
    let s1 := State.finishSequence { s with supply := { s.supply with rise := none, riseSet := [] } } s.supply.rise
      .aborted s.supply.faultMask
    State.beginFall { s1 with supply := { s1.supply with fall := some owed } }
  | .up => State.beginFall { s with supply := { s.supply with fall := some owed } }

/-- Whether CLEAR_FAULT clears feed `n`: its bit is set and it is in FAULT (R154). -/
def Supply.clears (u : Supply) (mask n : Nat) : Bool := mask.testBit n && decide ((u.feed n).state = .fault)

/-- The sequencer takes CLEAR_FAULT (R154). -/
def State.takeClearFault (s : State) (ctx : Ctx) (mask : Nat) : State :=
  if s.supply.state = .rising ∨ s.supply.state = .falling then s.finishNow ctx .busy 0
  else
    State.finishNow { s with supply := s.supply.updateFeeds (s.supply.clears mask) Feed.switchOff } ctx .ok
      ((feedNumbers.map (fun n => if s.supply.clears mask n then 2 ^ n else 0)).sum)

/-- QUERY_FEEDS' detail (R155, 11.3). -/
def Supply.feedsWord (u : Supply) : Nat :=
  u.state.code + 2 ^ 2 * u.currentSlot + 2 ^ 6 * u.policy.code + 2 ^ 7 * u.mode.code +
    (feedNumbers.map (fun n => 2 ^ (8 + 2 * n) * (u.feed n).state.code)).sum

/-- The sequencer takes QUERY_FEEDS (R155). -/
def State.takeQueryFeeds (s : State) (ctx : Ctx) : State := s.finishNow ctx .ok s.supply.feedsWord

end Sys2Proof.Machine
end

