-- ==== Sys2Proof/Machine/Ports.lean ====
section
/-! DEFINITION. The Strip Ports: whether a configuration fits a period, CONFIG_PORT, sending, and the echo verdict
(08). -/

namespace Sys2Proof.Machine

/-! ## Fit (R111, R133, R138) -/

/-- A port's rate in tenths of Mbit/s, which is bit-times in 10 µs. -/
def Rate.tenths : Rate → Nat
  | .mbit08 => 8 | .mbit2 => 20 | .mbit4 => 40 | .mbit8 => 80

/-- The data bytes of a wire frame (R133). -/
def PortConfig.dataBytes (c : PortConfig) : Nat := c.pixels * c.components * (c.depth / 8)

/-- The transmit time in bit-times (R133). -/
def PortConfig.bitTimes (c : PortConfig) : Nat := 9 * (6 + c.dataBytes)

/-- The transmit time plus 500 µs, in units of 1 / (10 × rate) µs, so that it is a whole number. -/
def PortConfig.need (c : PortConfig) : Nat := 10 * c.bitTimes + 500 * c.rate.tenths

/-- The port fits period `p`: transmit time + 500 µs ≤ p × 100 µs, compared exactly (R111). -/
def PortConfig.fits (c : PortConfig) (p : Nat) : Bool := decide (c.need ≤ 100 * p * c.rate.tenths)

/-- ceil((transmit time + 500 µs) / 100 µs) (R111, R138). -/
def PortConfig.smallestPeriod (c : PortConfig) : Nat :=
  (c.need + 100 * c.rate.tenths - 1) / (100 * c.rate.tenths)

/-- The latest accepted configurations that enable their port (R111). -/
def StripPorts.enabledConfigs (u : StripPorts) : List PortConfig :=
  ((List.range Config.ports).map (fun n => (u.port n).accepted)).filter (fun c => c.enable)

/-! ## CONFIG_PORT (R137, R138) -/

/-- The Strip Ports take CONFIG_PORT (R138). -/
def State.takeConfigPort (s : State) (ctx : Ctx) (q : PortRequest) : State :=
  match s.bands.lowestOn q.port with
  | some b => s.finishNow ctx .busy b
  | none =>
    if q.config.enable = true ∧ q.config.fits s.clock.acceptedPeriod = false then
      s.finishNow ctx .tooLong q.config.smallestPeriod
    else
      let ports := s.ports.setPort q.port { s.ports.port q.port with accepted := q.config }
      { s with ports := { ports with staged := ports.staged ++ [s.stage ctx q] } }

/-- A move into HELD or DISABLED clears the echo fields (R131, R137). -/
def Port.rest (p : Port) (state : PortState) : Port :=
  { p with state := state, missCount := 0, goodCount := 0, lostAt := none }

/-- A CONFIG_PORT is applied to its port (R137). -/
def Port.configure (p : Port) (c : PortConfig) : Port :=
  { p.rest (if c.enable then .held else .disabled) with applied := c }

/-- A staged CONFIG_PORT is applied, and completes OK with the state before it (R137). -/
def State.applyConfigPort (s : State) (e : Staged PortRequest) : State :=
  let p := s.ports.port e.request.port
  State.finish { s with ports := s.ports.setPort e.request.port (p.configure e.request.config) } e.owed .ok p.state.code

/-! ## Sending (R132, R133) -/

/-- Whether the feed lets a port send: it has none, or the feed is ON (R132). -/
def Supply.letsSend (u : Supply) (feed : Option Nat) : Bool :=
  match feed with
  | none => true
  | some n => decide ((u.feed n).state = .on)

/-- An enabled port at latch `n` with the slice of that latch: it sends, or its feed holds it (R132, R133). -/
def Port.atLatch (p : Port) (u : Supply) (n : Nat) (slice : List Level) : Port :=
  if p.state = .disabled then p
  else if u.letsSend p.applied.feed then
    { p with
      state := if p.state = .held then .sending else p.state
      line := .sending (wireFrame p.applied n slice) }
  else if p.state = .held then p
  else p.rest .held

/-- The last bit has gone: the clock and data lines return low and the echo window opens (R133, R135). -/
def Port.transmissionEnds (p : Port) : Port :=
  match p.line with
  | .sending w => { p with line := .window w none }
  | _ => p

/-! ## Echo (R135, R136) -/

/-- An echo record is kept if it is the first within the window, while echo check is on (R135). -/
def Port.hearsEcho (p : Port) (sequence : Byte) (check : BitVec 16) : Port :=
  match p.line with
  | .window w none => if p.applied.echoCheck then { p with line := .window w (some (sequence, check)) } else p
  | _ => p

inductive Verdict where
  | good | mismatch | noEcho
deriving DecidableEq, Repr

/-- The verdict on a frame (R135). -/
def verdictOf (w : WireFrame) (echo : Option (Byte × BitVec 16)) : Verdict :=
  match echo with
  | none => .noEcho
  | some (sequence, check) => if sequence = w.sequence ∧ check = w.check then .good else .mismatch

/-- PORT_LOST's detail (11.2). -/
def Verdict.code : Verdict → Nat
  | .good => 0 | .mismatch => 1 | .noEcho => 2

/-- A SENDING port acts on its verdict for frame `n`; the event to raise, with its detail, if any (R135). -/
def Port.judgeSending (p : Port) (n : Nat) (v : Verdict) : Port × Option (EventKind × Nat) :=
  if v = .good then ({ p with missCount := 0 }, none)
  else if p.missCount < 2 then ({ p with missCount := p.missCount + 1 }, none)
  else ({ p with state := .lost, lostAt := some n, missCount := 0, goodCount := 0 }, some (.portLost, v.code))

/-- A LOST port acts on its verdict for frame `n` (R136). -/
def Port.judgeLost (p : Port) (n : Nat) (v : Verdict) : Port × Option (EventKind × Nat) :=
  if v = .good then
    if p.goodCount < 2 then ({ p with goodCount := p.goodCount + 1 }, none)
    else
      ({ p with state := .sending, goodCount := 0, missCount := 0, lostAt := none },
       some (.portRegained, n - p.lostAt.getD n))
  else ({ p with goodCount := 0 }, none)

/-- The port acts on its verdict, by its state; HELD and DISABLED ports judge nothing, nor does a port whose echo
check is off (R131, R135). -/
def Port.judge (p : Port) (n : Nat) (v : Verdict) : Port × Option (EventKind × Nat) :=
  if p.applied.echoCheck = false then (p, none)
  else
    match p.state with
    | .sending => p.judgeSending n v
    | .lost => p.judgeLost n v
    | _ => (p, none)

/-- The echo window of port `k` closes (R135). -/
def State.echoWindowCloses (s : State) (k : Nat) : State :=
  let p := s.ports.port k
  match p.line with
  | .window w echo =>
    let r := p.judge w.frame (verdictOf w echo)
    let s1 := { s with ports := s.ports.setPort k { r.1 with line := .idle } }
    match r.2 with
    | some (kind, detail) => s1.raiseEvent kind k w.frame detail
    | none => s1
  | _ => s

/-- The transmission of port `k` ends (R133, R135). -/
def State.endTransmission (s : State) (k : Nat) : State :=
  { s with ports := s.ports.setPort k (s.ports.port k).transmissionEnds }

/-- A complete echo record arrives at port `k` (R135). -/
def State.hearEcho (s : State) (k : Nat) (sequence : Byte) (check : BitVec 16) : State :=
  { s with ports := s.ports.setPort k ((s.ports.port k).hearsEcho sequence check) }

end Sys2Proof.Machine
end

