-- ==== Sys2Proof/Machine/Transitions.lean ====
section
/-! DEFINITION. Fade slots: elapsed frames, curves and levels (03, R35 to R44). -/

namespace Sys2Proof.Machine

/-- Clamp an exact count to 0 .. T (R39). -/
def clampTo (T : Nat) (k : Int) : Nat := (min (max k 0) (T : Int)).toNat

/-- The elapsed count of a slot for frame `n` (R39). -/
def FadeRun.elapsed (r : FadeRun) (n : Nat) : Nat :=
  match r.pausedAt with
  | none => clampTo r.length ((n : Int) - r.start - r.accumulatedPause)
  | some p => clampTo r.length ((p : Int) - 1 - r.start - r.accumulatedPause)

/-- The end frame of a running slot (R39). -/
def FadeRun.endFrame (r : FadeRun) : Nat := r.start + r.length + r.accumulatedPause

/-- Whether a slot reaches its end at frame start `f` (R47): it is running and `f` is its end frame. -/
def FadeRun.endsAt (r : FadeRun) (f : Nat) : Bool := decide (r.pausedAt = none ∧ r.endFrame = f)

/-- The fraction N / D of a curve at elapsed count `k` of length `T` (R43). DESIGN CHOICE: a SNAP_START slot is at its to
level from count 0 on, as R43 says, also while it is paused at its start frame, where R42 and R124 speak of from levels
(log entry 50). -/
def Curve.fraction (c : Curve) (k T : Nat) : Nat × Nat :=
  if T = 0 then (1, 1)
  else
    match c with
    | .linear => (k, T)
    | .square => (k ^ 2, T ^ 2)
    | .scurve => (k ^ 2 * (3 * T - 2 * k), T ^ 3)
    | .snapStart => (1, 1)
    | .snapEnd => (if k < T then 0 else 1, 1)

/-- The level between `a` and `b` at the fraction N / D: the from level plus the integer part, taken toward zero, of
the exact product (R43). -/
def levelBetween (a b : Level) (N D : Nat) : Level :=
  BitVec.ofInt 16 ((a.toNat : Int) + (((b.toNat : Int) - (a.toNat : Int)) * (N : Int)).tdiv (D : Int))

/-- The level of a channel FADING under a slot, for frame `n` (R43, R44). -/
def FadeRun.level (r : FadeRun) (n : Nat) (fromLevel toLevel : Level) : Level :=
  let q := r.curve.fraction (r.elapsed n) r.length
  levelBetween fromLevel toLevel q.1 q.2

/-- Whether slot `k` may be allocated at frame start `f`: it is FREE and available (R35, R45). -/
def TransitionEngine.mayAllocate (e : TransitionEngine) (f k : Nat) : Bool :=
  match e.slot k with
  | .free available => decide (available ≤ f)
  | .inUse _ => false

/-- The lowest-numbered FREE slot that may be allocated at frame start `f` (R45). -/
def TransitionEngine.lowestFree (e : TransitionEngine) (f : Nat) : Option Nat :=
  (List.range Config.slots).find? (e.mayAllocate f)

/-- Change every IN_USE slot of a playback. -/
def TransitionEngine.mapPlayback (e : TransitionEngine) (playback : Nat) (g : FadeRun → FadeRun) : TransitionEngine :=
  { e with
    slots := e.slots.mapCells FadeSlot.atReset (fun _ v =>
      match v with
      | .inUse r => .inUse (if r.playback = playback then g r else r)
      | .free a => .free a) }

/-- A pause order at frame `p`: every running slot of the playback is paused at `p` (R40). -/
def TransitionEngine.pauseOrder (e : TransitionEngine) (playback p : Nat) : TransitionEngine :=
  e.mapPlayback playback (fun r => if r.pausedAt = none then { r with pausedAt := some p } else r)

/-- A resume order at frame `r`: every paused slot of the playback adds the length of its pause (R41). -/
def TransitionEngine.resumeOrder (e : TransitionEngine) (playback r : Nat) : TransitionEngine :=
  e.mapPlayback playback (fun run =>
    match run.pausedAt with
    | some p => { run with accumulatedPause := run.accumulatedPause + (r - p), pausedAt := none }
    | none => run)

/-- The slots of a playback that reach their end at frame start `f`, ascending. -/
def TransitionEngine.endingOf (e : TransitionEngine) (playback f : Nat) : List Nat :=
  e.slots.keysWhere (fun v =>
    match v with
    | .inUse r => decide (r.playback = playback) && r.endsAt f
    | .free _ => false)

/-- Every slot that reaches its end at frame start `f`, ascending. -/
def TransitionEngine.ending (e : TransitionEngine) (f : Nat) : List Nat :=
  e.slots.keysWhere (fun v =>
    match v with
    | .inUse r => r.endsAt f
    | .free _ => false)

/-- Every IN_USE slot, ascending. -/
def TransitionEngine.inUseSlots (e : TransitionEngine) : List Nat :=
  e.slots.keysWhere (fun v =>
    match v with
    | .inUse _ => true
    | .free _ => false)

end Sys2Proof.Machine
end

