-- ==== Sys2Proof/Machine/Composer.lean ====
section
/-! DEFINITION. The Frame Clock and Composer: engine and composed levels, the latch, the park list, the master, the
frame period and level snapshots (06). -/

namespace Sys2Proof.Machine

/-! ## Levels (R2, R104) -/

/-- The engine level of channel `c`, whose entry is `ch`, at latch `n` (R2). The spec's laws keep a FADING entry's slot
IN_USE and a BAND entry's band RUNNING; outside them the model shows the from level and 0 (log entry 14). -/
def State.engineLevel (s : State) (n c : Nat) (ch : Channel) : Level :=
  match ch.holding with
  | .free level => level
  | .settled _ _ level => level
  | .fading _ _ k a b =>
    match s.engine.slot k with
    | .inUse r => r.level n a b
    | .free _ => a
  | .band g _ =>
    match s.bands.band g with
    | .running d r => bandValue d r n c
    | _ => 0

/-- Whether a park range covers channel `c` (R107). -/
def ParkRange.covers (r : ParkRange) (c : Nat) : Bool := decide (r.first ≤ c ∧ c < r.first + r.count)

/-- floor(engine level × master / 65535) (R104). -/
def scaledLevel (master level : Level) : Level := BitVec.ofNat 16 (level.toNat * master.toNat / 65535)

/-- The composed level of channel `c` at latch `n` (R104). -/
def State.composedLevel (s : State) (n c : Nat) : Level :=
  match s.clock.parks.find? (fun r => r.covers c) with
  | some r => r.level
  | none => scaledLevel s.clock.master (s.engineLevel n c (s.arbiter.channel c))

/-- The composed levels of a run of channels, in ascending order. -/
def State.composedRun (s : State) (n first count : Nat) : List Level :=
  (List.range count).map (fun i => s.composedLevel n (first + i))

/-- The slice of a port at latch `n`, before the conversion to its depth (R104): the safe level for every channel while
the safe-look sample is asserted, the composed levels otherwise. -/
def State.sliceOf (s : State) (n : Nat) (safe : Bool) (c : PortConfig) : List Level :=
  if safe then List.replicate (c.pixels * c.components) c.safe
  else s.composedRun n c.first (c.pixels * c.components)

/-! ## The latch (R101) -/

/-- Last levels are written (R2). -/
def State.writeLastLevels (s : State) (n : Nat) : Table Channel :=
  s.arbiter.channels.mapCells Channel.dark (fun c ch => { ch with last := s.engineLevel n c ch })

/-- A READ_LEVELS whose capture frame is `n` captures its composed levels, and the composer begins to write them (R114,
11.5). -/
def State.capture (s : State) (n : Nat) (q : Snapshot) : Snapshot :=
  if q.captureFrame = n ∧ q.area = none then { q with area := some (snapshotBytes (s.composedRun n q.first q.count)) }
  else q

/-- SAFE_ENTERED or SAFE_LEFT is raised when the sample differs from the safe-look state (R106). -/
def State.raiseSafe (s : State) (n : Nat) (before sample : Bool) : State :=
  match before, sample with
  | false, true => s.raiseEvent .safeEntered 0 n 0
  | true, false => s.raiseEvent .safeLeft 0 n 0
  | _, _ => s

/-- Latch of the current frame: the sample is taken first, and everything else reads the state standing after the frame
start (R101). -/
def State.latchFrame (s : State) (sample : Bool) : State :=
  let n := s.clock.frame
  State.raiseSafe
    { s with
      arbiter := { s.arbiter with channels := s.writeLastLevels n }
      ports := { s.ports with
        records := s.ports.records.mapCells Port.atReset
          (fun _ p => p.atLatch s.supply n (s.sliceOf n sample p.applied)) }
      clock := { s.clock with safe := sample, reads := s.clock.reads.map (s.capture n) } }
    n s.clock.safe sample

/-! ## Staged requests of the composer (R108 to R110) -/

/-- Whether two runs of channels share a channel (R107). -/
def runsOverlap (first count : Nat) (r : ParkRange) : Bool :=
  decide (first < r.first + r.count ∧ r.first < first + count)

/-- A range inserted at its place in ascending order of first channel (R108). -/
def insertPark (r : ParkRange) : List ParkRange → List ParkRange
  | [] => [r]
  | q :: rest => if r.first < q.first then r :: q :: rest else q :: insertPark r rest

/-- PARK is applied (R108): the new park list, and the completion. -/
def applyPark (parks : List ParkRange) (first count : Nat) (level : Level) : List ParkRange × Status × Nat :=
  match parks.find? (runsOverlap first count) with
  | some r => (parks, .overlap, r.first)
  | none =>
    if Config.parkRanges ≤ parks.length then (parks, .listFull, Config.parkRanges)
    else (insertPark { first := first, count := count, level := level } parks, .ok, parks.length + 1)

/-- Whether a held range is the one an UNPARK names (R109). -/
def samePark (first count : Nat) (r : ParkRange) : Bool := decide (r.first = first ∧ r.count = count)

/-- UNPARK is applied (R109). -/
def applyUnpark (parks : List ParkRange) (first count : Nat) : List ParkRange × Status × Nat :=
  match parks.find? (samePark first count) with
  | some _ => (parks.eraseP (samePark first count), .ok, parks.length - 1)
  | none => (parks, .notFound, 0)

/-- A PARK, UNPARK or SET_MASTER is applied, and completes (R108, R109, R110). -/
def State.applyCompose (s : State) (o : Owed) (q : ComposeRequest) : State :=
  match q with
  | .park first count level =>
    let r := applyPark s.clock.parks first count level
    State.finish { s with clock := { s.clock with parks := r.1 } } o r.2.1 r.2.2
  | .unpark first count =>
    let r := applyUnpark s.clock.parks first count
    State.finish { s with clock := { s.clock with parks := r.1 } } o r.2.1 r.2.2
  | .setMaster m => State.finish { s with clock := { s.clock with master := m } } o .ok s.clock.master.toNat

/-- The composer stages a request (R103). -/
def State.stageClock (s : State) (ctx : Ctx) (q : ClockRequest) : State :=
  { s with clock := { s.clock with staged := s.clock.staged ++ [s.stage ctx q] } }

/-! ## SET_FRAME_PERIOD, READ_LEVELS, SHOW_RESET at intake (R111, R113, R115) -/

/-- The smallest permitted period that every enabled port's latest accepted configuration fits (R111). -/
def StripPorts.smallestPeriod (u : StripPorts) : Nat :=
  (u.enabledConfigs.map PortConfig.smallestPeriod).foldl max 25

/-- The composer takes SET_FRAME_PERIOD (R111). -/
def State.takeSetFramePeriod (s : State) (ctx : Ctx) (period : Nat) : State :=
  if s.ports.enabledConfigs.all (fun c => c.fits period) then
    State.stageClock { s with clock := { s.clock with acceptedPeriod := period } } ctx (.setPeriod period)
  else s.finishNow ctx .tooLong s.ports.smallestPeriod

/-- The composer takes READ_LEVELS (R113). -/
def State.takeReadLevels (s : State) (ctx : Ctx) (first count : Nat) (address : HostAddress) : State :=
  if Config.reads ≤ s.clock.reads.length then s.finishNow ctx .busy Config.reads
  else
    { s with
      clock := { s.clock with
        reads := s.clock.reads ++
          [{ first := first, count := count, address := address, captureFrame := s.effectiveFrame, ctx := ctx,
             area := none }] } }

/-- SHOW_RESET is staged, and intake pauses (R115). -/
def State.takeShowReset (s : State) (ctx : Ctx) : State :=
  State.stageClock { s with host := { s.host with intakePause := true } } ctx .showReset

/-! ## The writes of a snapshot (R114) -/

/-- Whether the writes of snapshot `i` may be answered now: it is held and captured, and of two captured at the same
latch the one taken first is written first (R114). -/
def FrameClock.snapshotBusy (c : FrameClock) (i : Nat) : Option Snapshot :=
  match c.reads[i]? with
  | none => none
  | some q =>
    if q.area.isSome && (c.reads.take i).all (fun r => decide (r.captureFrame ≠ q.captureFrame)) then some q
    else none

/-- Snapshot `i` ends with a status; the detail is the low 32 bits of its capture frame, and it is no longer held
(R114). -/
def State.endSnapshot (s : State) (i : Nat) (status : Status) : State :=
  match s.clock.snapshotBusy i with
  | none => s
  | some q =>
    State.finishNow { s with clock := { s.clock with reads := s.clock.reads.eraseIdx i } } q.ctx status
      (low32 q.captureFrame)

end Sys2Proof.Machine
end

