-- ==== Sys2Proof/Machine/Groups.lean ====
section
/-! DEFINITION. The Frame Group Unit at intake: the hold list, COMMIT and ABORT_GROUP (07). -/

namespace Sys2Proof.Machine

/-- A grouped request that passed its format checks reaches the unit: it is held, or refused HOLD_FULL (R120). -/
def State.holdRequest (s : State) (ctx : Ctx) (group : Nat) (q : GroupRequest) : State :=
  if Config.holdList ≤ s.groups.hold.length then s.finishNow ctx .holdFull Config.holdList
  else
    { s with
      groups := { s.groups with hold := s.groups.hold ++ [{ group := group, ctx := ctx, request := q }] } }

/-- The unit takes COMMIT: it is staged, with no check at intake (R122). -/
def State.takeCommit (s : State) (ctx : Ctx) (group : Nat) : State :=
  { s with groups := { s.groups with commits := s.groups.commits ++ [s.stage ctx group] } }

/-- The held requests of a group, in held order. -/
def GroupUnit.members (g : GroupUnit) (group : Nat) : List HeldRequest :=
  g.hold.filter (fun h => decide (h.group = group))

/-- The hold list without a group. -/
def GroupUnit.without (g : GroupUnit) (group : Nat) : List HeldRequest :=
  g.hold.filter (fun h => decide (h.group ≠ group))

/-- Held requests end CANCELLED with detail 0, in held order (R125, R128). -/
def State.cancelHeld (s : State) (held : List HeldRequest) : State :=
  held.foldl (fun acc h => acc.finishNow h.ctx .cancelled 0) s

/-- The unit takes ABORT_GROUP (R125). -/
def State.takeAbortGroup (s : State) (ctx : Ctx) (group : Nat) : State :=
  let members := s.groups.members group
  (State.cancelHeld { s with groups := { s.groups with hold := s.groups.without group } } members).finishNow ctx .ok
    members.length

end Sys2Proof.Machine
end

