-- ==== Sys2Proof/Machine/Playbacks.lean ====
section
/-! DEFINITION. The Playback Controller between frame starts: the derived state of a playback, CONFIG_PLAYBACK,
QUERY_PLAYBACK, RUN_CUE and staging (04). -/

namespace Sys2Proof.Machine

/-- The derived states of a playback (R54). -/
inductive PlaybackState where
  | idle | holding | releasing | running | paused
deriving DecidableEq, Repr

/-- The codes of the derived states (11.3). -/
def PlaybackState.code : PlaybackState → Nat
  | .idle => 0 | .holding => 1 | .releasing => 2 | .running => 3 | .paused => 4

/-- The state of a playback record with this owned count: the first test that holds (R54). -/
def Playback.state (p : Playback) (owned : Nat) : PlaybackState :=
  if p.paused.isSome then .paused
  else if p.inFlight ≠ [] then .running
  else if p.releaseSlot.isSome then .releasing
  else if 0 < owned then .holding
  else .idle

/-- The state of playback `n`, read now (R54). -/
def State.playbackState (s : State) (n : Nat) : PlaybackState :=
  (s.controller.playback n).state (s.arbiter.ownedCount n)

/-- A playback's status word (R80, 11.3). -/
def State.statusWord (s : State) (n : Nat) : Nat :=
  let p := s.controller.playback n
  (s.playbackState n).code + 2 ^ 3 * p.priority + 2 ^ 6 * p.pending.length + 2 ^ 11 * p.inFlight.length +
    2 ^ 14 * s.arbiter.ownedCount n

/-- The controller takes QUERY_PLAYBACK (R80). -/
def State.takeQueryPlayback (s : State) (ctx : Ctx) (n : Nat) : State := s.finishNow ctx .ok (s.statusWord n)

/-- The controller takes CONFIG_PLAYBACK (R69). -/
def State.takeConfigPlayback (s : State) (ctx : Ctx) (n priority defaultRelease : Nat) : State :=
  let p := s.controller.playback n
  if s.playbackState n = .idle ∧ p.pending = [] then
    let s1 := { s with
      controller := s.controller.setPlayback n { p with priority := priority, defaultRelease := defaultRelease } }
    s1.finishNow ctx .ok (s1.statusWord n)
  else s.finishNow ctx .busy (s.statusWord n)

/-- The cue record a RUN_CUE builds (R56, R70). -/
def newCue (id : Nat) (ctx : Ctx) (q : CueRequest) : Cue :=
  { id := id, ctx := ctx, report := q.report, label := q.label, scene := q.scene, fadeTime := q.fadeTime,
    delay := q.delay, followWait := q.followWait, curve := q.curve, trigger := q.trigger, state := .pending, due := none,
    triggerFrame := none, length := 0, slot := none, denied := 0, terminal := none }

/-- A cue joins the tail of its playback's pending list (R55, R70). -/
def State.appendCue (s : State) (n : Nat) (c : Cue) : State :=
  let p := s.controller.playback n
  { s with
    controller :=
      { s.controller.setPlayback n { p with pending := p.pending ++ [c] } with nextCue := s.controller.nextCue + 1 } }

/-- The controller takes RUN_CUE (R70, R71). -/
def State.takeRunCue (s : State) (ctx : Ctx) (q : CueRequest) : State :=
  let held := (s.controller.playback q.playback).pending.length
  if Config.pendingCues ≤ held then s.finishNow ctx .listFull Config.pendingCues
  else
    let s1 := s.appendCue q.playback (newCue s.controller.nextCue ctx q)
    if q.report then s1 else s1.finishNow ctx .ok (held + 1)

/-- The controller stages a request (R53). -/
def State.stagePlayback (s : State) (ctx : Ctx) (q : PlaybackRequest) : State :=
  { s with controller := { s.controller with staged := s.controller.staged ++ [s.stage ctx q] } }

end Sys2Proof.Machine
end

