-- ==== Sys2Proof/Machine/Resets.lean ====
section
/-! DEFINITION. Host interface reset, entry into HALTED, and cold reset, over every block (R34, R83, R99, R118, R129,
R140, R157, R158, R161, R174). -/

namespace Sys2Proof.Machine

/-- The Host Queue Unit's own part of a host interface reset (R174). QTABLE, INT_MASK, the halt code, the intake pause
and the interface state are kept. -/
def HostUnit.interfaceReset (u : HostUnit) : HostUnit :=
  { u.setInterrupts 0 u.intMask with
    submission := Table.empty, completion := Table.empty, eventQueue := 0, lastGranted := 3, fetch := none,
    events := [], writes := [] }

/-- The report of a cue is dropped (R67, R83). -/
def Cue.unreport (c : Cue) : Cue := { c with report := false }

/-- A playback's owed reports are dropped: the report flag of every cue, and its running RELEASE's completion (R83). -/
def Playback.unreport (p : Playback) : Playback :=
  { p with
    pending := p.pending.map Cue.unreport
    inFlight := p.inFlight.map Cue.unreport
    releaseRecord := p.releaseRecord.map (fun r => { r with owed := r.owed.drop }) }

/-- The Playback Controller's part (R83). -/
def PlaybackController.dropOwed (c : PlaybackController) : PlaybackController :=
  { c with
    playbacks := c.playbacks.mapCells Playback.atReset (fun _ p => p.unreport)
    staged := c.staged.map Staged.drop }

/-- The effects of a host interface reset on every block (R33, R83, R99, R118, R129, R140, R157, R174). -/
def State.hostInterfaceReset (s : State) : State :=
  let s1 := s.abandonLoads
  { s1 with
    controller := s1.controller.dropOwed
    bands := { s1.bands with staged := s1.bands.staged.map Staged.drop }
    clock := { s1.clock with staged := s1.clock.staged.map Staged.drop, reads := [] }
    groups := { hold := [], commits := s1.groups.commits.map Staged.drop }
    ports := { s1.ports with staged := s1.ports.staged.map Staged.drop }
    supply := { s1.supply with rise := s1.supply.rise.map Owed.drop, fall := s1.supply.fall.map Owed.drop }
    host := s1.host.interfaceReset }

/-- CONTROL.ENABLE is cleared with a host interface reset, and the interface is OFF (R159, R174). -/
def State.turnOff (s : State) : State :=
  let s1 := s.hostInterfaceReset
  { s1 with host := { s1.host with state := .off, enable := false } }

/-- The interface enters HALTED: the effects of a host interface reset, the halt code, INT_CAUSE.HALTED (R161). -/
def State.halt (s : State) (code : HaltCode) (queue : Nat) : State :=
  let s1 := s.hostInterfaceReset
  { s1 with
    host := { s1.host.raiseCause causeHalted with state := .halted, haltCode := code, haltQueue := queue } }

/-- A feed after cold reset keeps the level of its good input, which is driven from outside (log entry 7). -/
def Feed.coldReset (f : Feed) : Feed := { Feed.atReset with good := f.good }

/-- Cold reset: every block returns to its cold-reset state (R18, R34, R51, R53, R99, R118, R129, R140, R158, R174).
The good inputs, the commands waiting, the count of messages sent and the number of the next load are no state of a
block, and stay; so data of a read issued before the reset names no later load. -/
def State.coldReset (s : State) : State :=
  { State.reset with
    store := { SceneStore.atReset with nextLoad := s.store.nextLoad }
    supply := { Supply.atReset with feeds := s.supply.feeds.mapCells Feed.atReset (fun _ f => f.coldReset) }
    host := { HostUnit.atReset with messages := s.host.messages }
    pending := s.pending }

end Sys2Proof.Machine
end

