-- ==== Sys2Proof/Machine/HostQueues.lean ====
section
/-! DEFINITION. The Host Queue Unit: the queue table, the registers, intake, fences, routing, and its own two requests
(10, 11.4, 11.7). -/

namespace Sys2Proof.Machine

/-! ## The queue table (R160, R178, 11.4) -/

/-- The fields of the table that R178 reads, for submission queue `n`. -/
structure TableSq where
  base : Nat
  size : Nat
  bound : Nat
  active : Bool
deriving DecidableEq, Repr

/-- The fields of the table that R178 reads, for completion queue `m`. -/
structure TableCq where
  base : Nat
  size : Nat
  active : Bool
deriving DecidableEq, Repr

def tableSq (bytes : List Byte) (n : Nat) : TableSq :=
  { base := leAt bytes (16 * n) 8, size := leAt bytes (16 * n + 8) 2, bound := leAt bytes (16 * n + 10) 1,
    active := (bytes.getD (16 * n + 11) 0).getLsbD 0 }

def tableCq (bytes : List Byte) (m : Nat) : TableCq :=
  { base := leAt bytes (64 + 16 * m) 8, size := leAt bytes (64 + 16 * m + 8) 2,
    active := (bytes.getD (64 + 16 * m + 11) 0).getLsbD 0 }

def tableEventCq (bytes : List Byte) : Nat := leAt bytes 128 1

/-- The lowest-numbered queue that satisfies `p`. -/
def lowestQueue (p : Nat → Bool) : Option Nat := (List.range Config.queues).find? p

/-- Check 2 of R160 fails for queue number `n`. -/
def misaligned (bytes : List Byte) (n : Nat) : Bool :=
  ((tableSq bytes n).active && decide ((tableSq bytes n).base % 64 ≠ 0)) ||
    ((tableCq bytes n).active && decide ((tableCq bytes n).base % 16 ≠ 0))

/-- A size outside its range, or a ring that would pass host address 2^64 - 1 (R160, check 3). -/
def badRing (base size low entry : Nat) : Bool :=
  decide (size < low ∨ 1024 < size ∨ 2 ^ 64 < base + entry * size)

/-- Check 3 of R160 fails for queue number `n`. -/
def badSize (bytes : List Byte) (n : Nat) : Bool :=
  ((tableSq bytes n).active && badRing (tableSq bytes n).base (tableSq bytes n).size 2 64) ||
    ((tableCq bytes n).active && badRing (tableCq bytes n).base (tableCq bytes n).size 4 16)

/-- A completion queue index that names no active queue (R178). -/
def inactiveCq (bytes : List Byte) (m : Nat) : Bool := decide (3 < m) || !(tableCq bytes m).active

/-- Check 4 of R160 fails for submission queue `n`. -/
def unbound (bytes : List Byte) (n : Nat) : Bool :=
  (tableSq bytes n).active && inactiveCq bytes (tableSq bytes n).bound

/-- The STARTING checks that follow a read without error, in order: the halt code and queue index of the first that
fails (R160, R178). DESIGN CHOICE: the table address is looked at before the queues' bases, so that MISALIGNED names
index 0 where both are misaligned (log entry 43). -/
def tableFault (address : Nat) (bytes : List Byte) : Option (HaltCode × Nat) :=
  if address % 64 ≠ 0 then some (.misaligned, 0)
  else
    match lowestQueue (misaligned bytes) with
    | some n => some (.misaligned, n)
    | none =>
      match lowestQueue (badSize bytes) with
      | some n => some (.badSize, n)
      | none =>
        match lowestQueue (unbound bytes) with
        | some n => some (.sqUnbound, n)
        | none => if inactiveCq bytes (tableEventCq bytes) then some (.eventCq, 0) else none

/-- The table address (R160). -/
def HostUnit.tableAddress (u : HostUnit) : Nat := u.qtableLo.toNat + 2 ^ 32 * u.qtableHi.toNat

/-- The record an active submission queue starts with (R160). -/
def startedSq (q : TableSq) : SubmissionQueue :=
  if q.active then
    { SubmissionQueue.inactive with
      state := .active, base := BitVec.ofNat 64 q.base, size := q.size, boundCq := q.bound }
  else SubmissionQueue.inactive

/-- The record an active completion queue starts with (R160). -/
def startedCq (q : TableCq) : CompletionQueue :=
  if q.active then
    { CompletionQueue.inactive with active := true, base := BitVec.ofNat 64 q.base, size := q.size }
  else CompletionQueue.inactive

/-- Every check has passed: the copy of the table is kept and the interface is RUNNING (R160). -/
def HostUnit.start (u : HostUnit) (bytes : List Byte) : HostUnit :=
  let u1 := (List.range Config.queues).foldl (fun acc n => acc.setSq n (startedSq (tableSq bytes n))) u
  let u2 := (List.range Config.queues).foldl (fun acc n => acc.setCq n (startedCq (tableCq bytes n))) u1
  { u2 with state := .running, eventQueue := tableEventCq bytes }

/-- The host answers the read of the queue table (R160). Outside STARTING no read of it is awaited, and the data is
discarded (R174). -/
def State.queueTableAnswered (s : State) (answer : Option (List Byte)) : State :=
  if s.host.state = .starting then
    match answer with
    | none => s.halt .tableRead 0
    | some bytes =>
      match tableFault s.host.tableAddress bytes with
      | some (code, queue) => s.halt code queue
      | none => { s with host := s.host.start bytes }
  else s

/-! ## Register writes (R162, R163, R171, R179) -/

/-- CONTROL.ENABLE written 1 (R159). -/
def State.enableSet (s : State) : State :=
  if s.host.state = .off then { s with host := { s.host with state := .starting, enable := true } } else s

/-- CONTROL.ENABLE written 0 (R159, R174). -/
def State.enableClear (s : State) : State := if s.host.state = .off then s else s.turnOff

/-- INT_CAUSE.HOST_ERROR is set (R171). -/
def State.hostError (s : State) : State := { s with host := s.host.raiseCause causeHostError }

/-- A write to QTABLE_LO or QTABLE_HI (R171). -/
def State.writeQtable (s : State) (high : Bool) (value : Word32) : State :=
  if s.host.state = .off then
    { s with
      host := if high then { s.host with qtableHi := value } else { s.host with qtableLo := value } }
  else s.hostError

/-- A set-aside entry of queue `q`'s bound completion queue is returned (R162, R164). -/
def HostUnit.returnEntry (u : HostUnit) (q : Nat) : HostUnit :=
  let m := (u.sq q).boundCq
  u.setCq m { u.cq m with reserved := (u.cq m).reserved - 1 }

/-- A fetch already issued for queue `q` is to be discarded when it returns (R162). -/
def HostUnit.staleFetch (u : HostUnit) (q : Nat) : HostUnit :=
  match u.fetch with
  | some x => if x.sq = q then { u with fetch := some { x with stale := true } } else u
  | none => u

/-- A fence wait of queue `q` is discarded, and its set-aside entry is returned (R162). -/
def HostUnit.discardFence (u : HostUnit) (q : Nat) : HostUnit :=
  if (u.sq q).fence.isSome then (u.setSq q { u.sq q with fence := none }).returnEntry q else u

/-- Queue `q` becomes FAULTED: its fetch and its fence wait are discarded, and QUEUE_FAULT is raised with this detail
(R162). -/
def State.faultQueue (s : State) (q detail : Nat) : State :=
  let u := (s.host.staleFetch q).discardFence q
  State.raiseEvent { s with host := u.setSq q { u.sq q with state := .faulted } } .queueFault q s.clock.frame detail

/-- QUEUE_FAULT's details (11.2). -/
def readErrorDetail : Nat := 1
def badTailDetail : Nat := 2

/-- A recorded tail (R162). -/
def HostUnit.recordTail (u : HostUnit) (q v : Nat) : HostUnit := u.setSq q { u.sq q with tail := v }

/-- A write of `v` to SQ_TAIL`q`, with no fence wait of the queue to be taken first (R162). -/
def State.writeTailNow (s : State) (q v : Nat) : State :=
  if s.host.state ≠ .running then s
  else
    match (s.host.sq q).state with
    | .inactive => s.hostError
    | .faulted => if v < (s.host.sq q).size then { s with host := s.host.recordTail q v } else s
    | .active =>
      if v < (s.host.sq q).size then
        let u := s.host.recordTail q v
        if v = (s.host.sq q).head then { s with host := (u.staleFetch q).discardFence q } else { s with host := u }
      else s.faultQueue q badTailDetail

/-- Whether `v` lies in the posted region of a completion queue, from its head forward to its tail (R163). -/
def CompletionQueue.inPosted (c : CompletionQueue) (v : Nat) : Bool :=
  decide (v < c.size ∧ ringDistance c.head v c.size ≤ c.posted)

/-- A write of `v` to CQ_HEAD`m` (R163). -/
def State.writeHead (s : State) (m v : Nat) : State :=
  if s.host.state ≠ .running then s
  else
    let c := s.host.cq m
    if c.active = true ∧ c.inPosted v = true then
      { s with
        host := s.host.setCq m { c with head := v, posted := c.posted - ringDistance c.head v c.size } }
    else s.hostError

/-- A write to INT_CAUSE (R171). -/
def State.writeCause (s : State) (value : Word32) : State :=
  { s with host := s.host.clearCause (value.setWidth 6) }

/-- A write to INT_MASK (R171). -/
def State.writeMask (s : State) (value : Word32) : State :=
  { s with host := s.host.setInterrupts s.host.intCause (value.setWidth 6) }

/-- The value bits of a tail or head write (R179). -/
def low16 (value : Word32) : Nat := value.toNat % 2 ^ 16

/-- IFSTATE (11.7). -/
def HostUnit.ifstate (u : HostUnit) : Word32 :=
  BitVec.ofNat 32 (u.state.code + 2 ^ 8 * u.haltCode.code + 2 ^ 12 * u.haltQueue)

/-- The value that a read of `width` bytes at `offset` gives (R171, R179, 11.7). No row of the table reads a register;
the function states the view software has. -/
def readRegister (s : State) (offset width : Nat) : Word32 :=
  if width ≠ 4 ∨ offset % 4 ≠ 0 then 0
  else
    match offset / 4 with
    | 0 => Config.ident
    | 1 => if s.host.enable then 1 else 0
    | 2 => s.host.ifstate
    | 3 => s.host.qtableLo
    | 4 => s.host.qtableHi
    | 5 => BitVec.ofNat 32 (s.host.sq 0).tail
    | 6 => BitVec.ofNat 32 (s.host.sq 1).tail
    | 7 => BitVec.ofNat 32 (s.host.sq 2).tail
    | 8 => BitVec.ofNat 32 (s.host.sq 3).tail
    | 9 => BitVec.ofNat 32 (s.host.cq 0).head
    | 10 => BitVec.ofNat 32 (s.host.cq 1).head
    | 11 => BitVec.ofNat 32 (s.host.cq 2).head
    | 12 => BitVec.ofNat 32 (s.host.cq 3).head
    | 13 => s.host.intCause.setWidth 32
    | 14 => s.host.intMask.setWidth 32
    | _ => 0

/-! ## Intake (R164, R166) -/

/-- The intake conditions of an ACTIVE queue (R162). -/
inductive IntakeCondition where
  | empty | fenced | waiting | ready
deriving DecidableEq, Repr

/-- The intake condition of queue `q` (R162). A fence wait is looked at first, so that a queue is FENCED while one is
present. -/
def HostUnit.condition (u : HostUnit) (q : Nat) : IntakeCondition :=
  if (u.sq q).fence.isSome then .fenced
  else if (u.sq q).head = (u.sq q).tail then .empty
  else if (u.cq (u.sq q).boundCq).hasRoom then .ready
  else .waiting

/-- Whether queue `q` may be granted (R164). -/
def HostUnit.mayGrant (u : HostUnit) (q : Nat) : Bool :=
  decide (u.state = .running) && !u.intakePause && decide ((u.sq q).state = .active) &&
    decide (u.condition q = .ready)

/-- The queue the intake arbiter grants: the first that may be granted, counting upward, cyclically, from the one after
the last granted (R164). -/
def HostUnit.nextGrant (u : HostUnit) : Option Nat :=
  ((List.range Config.queues).map (fun i => (u.lastGranted + 1 + i) % Config.queues)).find? u.mayGrant

/-- At a grant one entry of the bound completion queue is set aside, and the read of the record is issued (R164). -/
def HostUnit.grant (u : HostUnit) (q : Nat) : HostUnit :=
  let m := (u.sq q).boundCq
  { u.setCq m { u.cq m with reserved := (u.cq m).reserved + 1 } with
    lastGranted := q, fetch := some { sq := q, stale := false } }

/-- The intake arbiter looks for a queue to grant. It handles one record at a time, so it grants nothing while a fetch
is out (R164). R166 takes a fence wait whose count is 0 as soon as the arbiter is free, and the grant conditions of R164
do not name it: either may come first, by the order of the commands INTAKE_GRANT and FENCED_RECORD_TAKEN (log entry
34). -/
def State.intakeGrant (s : State) : State :=
  if s.host.fetch.isSome then s
  else
    match s.host.nextGrant with
    | some q => { s with host := s.host.grant q }
    | none => s

/-- The fetch of queue `q` has returned and its set-aside entry goes back (R162, R164). -/
def HostUnit.dropFetch (u : HostUnit) (q : Nat) : HostUnit := { u.returnEntry q with fetch := none }

/-- A fetch that is to be discarded returns (R162). -/
def State.staleReturn (s : State) : State :=
  match s.host.fetch with
  | some x => if x.stale then { s with host := s.host.dropFetch x.sq } else s
  | none => s

/-- The host answers the fetch with an error (R164). A fetch that is to be discarded is discarded whatever the
answer. -/
def State.fetchError (s : State) : State :=
  match s.host.fetch with
  | some x =>
    if x.stale then { s with host := s.host.dropFetch x.sq }
    else State.faultQueue { s with host := s.host.dropFetch x.sq } x.sq readErrorDetail
  | none => s

/-! ## RESTART_QUEUE and NOP (R172, R173) -/

/-- The unit takes NOP (R172). -/
def State.takeNop (s : State) (ctx : Ctx) : State := s.finishNow ctx .ok (low32 s.clock.frame)

/-- The unit takes RESTART_QUEUE (R173). -/
def State.takeRestartQueue (s : State) (ctx : Ctx) (q : Nat) : State :=
  let sq := s.host.sq q
  if sq.state = .faulted then
    State.finishNow { s with host := s.host.setSq q { sq with state := .active, head := sq.tail } } ctx .ok
      (ringDistance sq.head sq.tail sq.size)
  else s.finishNow ctx .busy 0

/-! ## Taking, checking and routing a record (R164, R165) -/

/-- A groupable request with group 0 goes straight to its owner, which stages it (R103, R165). -/
def State.takeGroupable (s : State) (ctx : Ctx) (q : GroupRequest) : State :=
  match q with
  | .playback r => s.stagePlayback ctx r
  | .band r => s.stageBand ctx r
  | .compose r => s.stageClock ctx (.compose r)

/-- A request that passed the format checks is routed: a grouped one to the Frame Group Unit, any other to its owner,
which takes it at once (R165). -/
def State.route (s : State) (ctx : Ctx) (group : Nat) (q : Request) : State :=
  match q with
  | .groupable r => if group = 0 then s.takeGroupable ctx r else s.holdRequest ctx group r
  | .nop => s.takeNop ctx
  | .restartQueue n => s.takeRestartQueue ctx n
  | .loadScene id count address => s.takeLoadScene ctx id count address
  | .deleteScene id => s.takeDeleteScene ctx id
  | .queryScene id => s.takeQueryScene ctx id
  | .configPlayback n priority time => s.takeConfigPlayback ctx n priority time
  | .queryPlayback n => s.takeQueryPlayback ctx n
  | .runCue r => s.takeRunCue ctx r
  | .loadBand r => s.takeLoadBand ctx r
  | .setFramePeriod p => s.takeSetFramePeriod ctx p
  | .readLevels first count address => s.takeReadLevels ctx first count address
  | .showReset => s.takeShowReset ctx
  | .commit g => s.takeCommit ctx g
  | .abortGroup g => s.takeAbortGroup ctx g
  | .configPort r => s.takeConfigPort ctx r
  | .configFeed n slot timeout => s.takeConfigFeed ctx n slot timeout
  | .configSupply interval mode policy => s.takeConfigSupply ctx interval mode policy
  | .powerUp => s.takePowerUp ctx
  | .powerDown => s.takePowerDown ctx
  | .clearFault mask => s.takeClearFault ctx mask
  | .queryFeeds => s.takeQueryFeeds ctx

/-- The components in force at a port, which LOAD_BAND's address check reads (R91, R177). -/
def State.componentsAt (s : State) (port : Nat) : Nat := (s.ports.port port).applied.components

/-- A taken record is checked for format, and completed or routed (R165). -/
def State.checkAndRoute (s : State) (ctx : Ctx) (r : RequestRecord) : State :=
  match formatCheck s.componentsAt r with
  | .badKind => s.finishNow ctx .badKind r.kind.toNat
  | .badField offset => s.finishNow ctx .badField offset
  | .passed q => s.route ctx r.body.group.toNat q

/-- What the unit notes with a record taken from queue `q` (R164). -/
def HostUnit.ctxOf (u : HostUnit) (q : Nat) (r : RequestRecord) : Ctx :=
  { tag := r.body.tag, sq := q, head := ringNext (u.sq q).head (u.sq q).size }

/-- Head advances by one, wrapping, outstanding rises by one, and no fence wait is left (R164, R166). -/
def HostUnit.advance (u : HostUnit) (q : Nat) : HostUnit :=
  u.setSq q
    { u.sq q with
      head := ringNext (u.sq q).head (u.sq q).size, outstanding := (u.sq q).outstanding + 1, fence := none }

/-- A record of queue `q` is taken, checked and routed (R164, R165). -/
def State.takeRecord (s : State) (q : Nat) (r : RequestRecord) : State :=
  State.checkAndRoute { s with host := s.host.advance q } (s.host.ctxOf q r) r

/-- A fetched record with FENCE set becomes its queue's fence wait, with the outstanding count as its count, and keeps
its set-aside entry (R166). -/
def HostUnit.holdFence (u : HostUnit) (q : Nat) (r : RequestRecord) : HostUnit :=
  u.setSq q { u.sq q with fence := some { record := r, count := (u.sq q).outstanding } }

/-- The fetched record arrives (R164, R166). With no fetch out it belongs to one issued before a reset, and it is
discarded (R174); the record of a fetch that is to be discarded is discarded (R162). -/
def State.recordArrives (s : State) (r : RequestRecord) : State :=
  match s.host.fetch with
  | none => s
  | some x =>
    if x.stale then { s with host := s.host.dropFetch x.sq }
    else
      let u := { s.host with fetch := none }
      if fenceFlag r.body = true ∧ 0 < (u.sq x.sq).outstanding then { s with host := u.holdFence x.sq r }
      else State.takeRecord { s with host := u } x.sq r

/-- The fence wait of queue `q` is taken once its count is 0, the intake arbiter is free and the intake pause is clear
(R166). -/
def State.takeFenced (s : State) (q : Nat) : State :=
  match (s.host.sq q).fence with
  | none => s
  | some w =>
    if s.host.state = .running ∧ w.count = 0 ∧ s.host.fetch = none ∧ s.host.intakePause = false then
      s.takeRecord q w.record
    else s

/-! ## Writes that find a fence wait to be taken (R162, R166, R175) -/

/-- A write of `v` to SQ_TAIL`q` (R162). A fence wait of the queue that may be taken is taken and routed first: its
record is taken as soon as its count is 0, and a fault or a tail that gives the record up comes after (R166, R175). DESIGN
CHOICE: a wait with count 0 that cannot be taken yet, because a fetch of another queue is out or the intake pause is set,
is discarded by such a write (R162), though R175 takes its record before the fault (log entry 46). -/
def State.writeTail (s : State) (q v : Nat) : State := (s.takeFenced q).writeTailNow q v

/-- A write of `width` bytes at `offset` of the register window (R179). An access that is not a whole word, a
register that is not writable and an unassigned offset change nothing; a register with behaviour of its own behaves as
its own command does. -/
def State.writeRegister (s : State) (offset width : Nat) (value : Word32) : State :=
  if width ≠ 4 ∨ offset % 4 ≠ 0 then s
  else
    match offset / 4 with
    | 1 => if value.getLsbD 0 then s.enableSet else s.enableClear
    | 3 => s.writeQtable false value
    | 4 => s.writeQtable true value
    | 5 => s.writeTail 0 (low16 value)
    | 6 => s.writeTail 1 (low16 value)
    | 7 => s.writeTail 2 (low16 value)
    | 8 => s.writeTail 3 (low16 value)
    | 9 => s.writeHead 0 (low16 value)
    | 10 => s.writeHead 1 (low16 value)
    | 11 => s.writeHead 2 (low16 value)
    | 12 => s.writeHead 3 (low16 value)
    | 13 => s.writeCause value
    | 14 => s.writeMask value
    | _ => s

/-! ## Posting events, and the host's answers to record writes (R167, R168, R170) -/

/-- The oldest event is posted if the interface is RUNNING and the event CQ has unreserved room (R170). -/
def State.postEvent (s : State) : State :=
  match s.host.events with
  | [] => s
  | e :: rest =>
    let m := s.host.eventQueue
    if s.host.state = .running ∧ (s.host.cq m).hasRoom = true then
      { s with
        host := { s.host.postRecord m false (eventRecord e (s.host.cq m).nextSequence) with events := rest } }
    else s

/-- Whether a write to completion queue `m` awaits the host's answer. -/
def HostUnit.awaits (u : HostUnit) (m : Nat) : Bool := u.writes.any (fun w => decide (w.queue = m))

/-- The host accepts the oldest unanswered write to completion queue `m`, and INT_CAUSE.CQ`m` is set (R167, R171). With
none out, the write was issued before a reset (R174). -/
def State.writeAccepted (s : State) (m : Nat) : State :=
  if s.host.awaits m then
    { s with
      host := { s.host with writes := s.host.writes.eraseP (fun w => decide (w.queue = m)) }.raiseCause
        (causeOfQueue m) }
  else s

/-- The host answers a record write to completion queue `m` with an error (R168). -/
def State.writeFailed (s : State) (m : Nat) : State :=
  if s.host.state = .running ∧ s.host.awaits m = true then s.halt .cqWrite m else s

end Sys2Proof.Machine
end

