-- ==== Sys2Proof/Machine/FrameWork.lean ====
section
/-! DEFINITION. The work of one frame start: what each block still has to do, and what each piece of that work does.
FRAME_START is one indivisible command; this structure exists only inside it. -/

namespace Sys2Proof.Machine

/-- Why a fade slot was freed (R50). NO_CHANNELS is the answer to a slot request and needs no notice of its own. -/
inductive EndReason where
  | ended | lost | released | cleared | snapped | showReset
deriving DecidableEq, Repr

/-- An end notice of the Transition Engine (R50). -/
structure EndNotice where
  slot : Nat
  playback : Nat
  kind : SlotKind
  reason : EndReason
deriving DecidableEq, Repr

/-- A step of the Playback Controller's work at a frame start. The steps of one entry are separate, because other
blocks' arrivals may be taken between them (R3, R81). -/
inductive ControllerStep where
  /-- Apply the next entry of the staged list stamped with this frame, or end the staged pass (R58). -/
  | stagedPass
  /-- The sweep's visit to a playback (R58). -/
  | sweep (playback : Nat)
  /-- A DELAYED cue reaches its fade start (R63, R65). -/
  | fadeStart (playback cue : Nat)
  /-- A WAIT_SCENE cue is woken by a load-end notice (R64). -/
  | wake (playback cue : Nat)
  /-- The automatic trigger of the head is tried (R61). -/
  | tryHead (playback : Nat)
  /-- A GO has triggered `count` cues; the WITH cue that follows is tried, or GO completes (R72). -/
  | goChain (playback count : Nat) (owed : Owed)
  /-- RELEASE reads the owned count and the release time (R76, steps 2 and 3). -/
  | releaseRead (playback : Nat) (given : Option Nat) (owed : Owed)
  /-- RELEASE asks for a slot (R76, step 4). -/
  | releaseSlot (playback length : Nat) (owed : Owed)
  /-- RELEASE found no slot and snaps (R77). -/
  | snap (playback : Nat) (owed : Owed)
  /-- The controller waits for an answer that the show reset has taken away (R17, R52, R82). -/
  | awaitReset (owed : Option Owed)
deriving DecidableEq, Repr

/-- The work of one frame start. -/
structure FrameWork where
  s : State
  /-- The period of this frame, fixed when the frame start occurs (R100). -/
  period : Nat
  agenda : List ControllerStep
  /-- What the controller still has to do of a handling that is done at once, before anything else of its own: fade
  starts reached and heads to be tried again, in the order in which they came up (R58, R61, R62; log entry 36). -/
  atOnce : List ControllerStep
  /-- The controller's staged pass is over (R124). -/
  stagedOver : Bool
  /-- End notices on their way to the controller, in the order sent. -/
  notices : List EndNotice
  /-- Releases whose slot a later RELEASE of the same playback emptied, until their end notice is taken (R79). -/
  superseded : List (Nat × ReleaseRecord)
  /-- Slots that the Transition Engine ends before it takes its next arrival (R41, R46, R47). -/
  mustEnd : List Nat
  /-- The Transition Engine waits for a report on an arrival that the arbiter discarded (R17, R52). -/
  engineWaits : Bool
  /-- The Band Unit waits for such a report; the request it was applying (R98). -/
  bandWaits : Option Owed
  /-- The requests of the band loads in the load queue, which the Band Unit completes at a show reset (R32, R98). -/
  bandLoads : List Ctx
  /-- Released requests on their way to their owners, in held order (R123). -/
  toController : List (Owed × PlaybackRequest)
  toBands : List (Owed × BandRequest)
  toComposer : List (Owed × ComposeRequest)
  /-- What the host answers to reads of load data while the blocks are at work (R28, log entry 45). -/
  answers : List LoadAnswer
  /-- What the host interface brings while the blocks are at work (R123, log entry 42). -/
  intake : List IntakeArrival
  /-- The Frame Clock has applied a SHOW_RESET and sent its order and notices (R116). -/
  resetSent : Bool
  resetArbiter : Bool
  resetStore : Bool
  resetEngine : Bool
  resetController : Bool
  resetBands : Bool
  resetGroups : Bool
  /-- The slots that the arbiter's report on the show-reset order names, with the channels that each lost, on their way to
  the Transition Engine (R10). -/
  resetLosses : List (Nat × Nat)
deriving DecidableEq, Repr

namespace FrameWork

/-- The frame number. -/
def frame (w : FrameWork) : Nat := w.s.clock.frame

/-- Hand over a completion. -/
def finish (w : FrameWork) (o : Owed) (status : Status) (detail : Nat) : FrameWork :=
  { w with s := w.s.finish o status detail }

/-- Steps that the controller does before the rest of its agenda. -/
def doFirst (w : FrameWork) (steps : List ControllerStep) : FrameWork := { w with agenda := steps ++ w.agenda }

/-- Steps that the controller does at once, after those that came up before them. -/
def doAtOnce (w : FrameWork) (steps : List ControllerStep) : FrameWork := { w with atOnce := w.atOnce ++ steps }

/-- Replace the channel table. -/
def setChannels (w : FrameWork) (t : Table Channel) : FrameWork :=
  { w with s := { w.s with arbiter := { w.s.arbiter with channels := t } } }

/-- Replace a fade slot. -/
def setSlot (w : FrameWork) (k : Nat) (v : FadeSlot) : FrameWork :=
  { w with s := { w.s with engine := w.s.engine.setSlot k v } }

/-- Replace a playback record. -/
def setPlayback (w : FrameWork) (p : Nat) (v : Playback) : FrameWork :=
  { w with s := { w.s with controller := w.s.controller.setPlayback p v } }

/-- A playback record. -/
def playback (w : FrameWork) (p : Nat) : Playback := w.s.controller.playback p

/-! ## Transition Engine (R46 to R52) -/

/-- A slot is freed: FREE, available from the next frame start, a return for a CUE slot's scene, and one end notice
(R35, R47, R48, R50). A slot already FREE is left as it is (R35). -/
def freeSlot (w : FrameWork) (k : Nat) (reason : EndReason) : FrameWork :=
  match w.s.engine.slot k with
  | .free _ => w
  | .inUse r =>
    let w1 := w.setSlot k (.free (w.frame + 1))
    let s1 := match r.kind with
      | .cue _ scene => { w1.s with store := w1.s.store.giveBack scene }
      | .release => w1.s
    { w1 with
      s := s1
      notices := w1.notices ++ [{ slot := k, playback := r.playback, kind := r.kind, reason := reason }] }

/-- A slot loses `n` channels; one that keeps none is freed (R36, R48). -/
def loseChannels (w : FrameWork) (k n : Nat) (reason : EndReason) : FrameWork :=
  match w.s.engine.slot k with
  | .free _ => w
  | .inUse r => if r.count ≤ n then w.freeSlot k reason else w.setSlot k (.inUse { r with count := r.count - n })

/-- The losses of an arbiter's report, in the report's order, which is ascending (R48; log entry 15). -/
def takeLosses (w : FrameWork) (lost : List (Nat × Nat)) (reason : EndReason) : FrameWork :=
  lost.foldl (fun acc l => acc.loseChannels l.1 l.2 reason) w

/-- A slot reaches its end (R47): the settle or release-end order, then the slot is freed. An order that the arbiter
discards leaves the Transition Engine waiting for its show-reset notice (R17, R52). -/
def endSlot (w : FrameWork) (k : Nat) : FrameWork :=
  match w.s.engine.slot k with
  | .free _ => w
  | .inUse r =>
    if w.resetArbiter then { w with engineWaits := true }
    else
      let t := w.s.arbiter.channels
      let report := match r.kind with
        | .cue _ _ => settleOrder t k
        | .release => releaseEndOrder t k
      (w.setChannels report.1).freeSlot k .ended

/-- The answers to a slot request (R45, R46, R52). -/
inductive SlotAnswer where
  | noSlot
  | noChannels (denied : Nat)
  | started (slot granted denied : Nat)
  /-- Refused after the Transition Engine's show-reset notice (R52). -/
  | refused
  /-- The arbiter discarded the batch: no answer comes (R17, R52). -/
  | silent
deriving DecidableEq, Repr

/-- What a slot request carries (R45). -/
structure SlotRequest where
  kind : SlotKind
  playback : Nat
  priority : Nat
  isPaused : Bool
  pairs : List (Nat × Level)
  length : Nat
  curve : Curve
deriving DecidableEq, Repr

/-- The slot a request allocates at frame start `f`, before its batch is reported on (R42, R45). -/
def allocated (q : SlotRequest) (f count : Nat) : FadeRun :=
  { kind := q.kind, playback := q.playback, start := f, length := q.length, curve := q.curve,
    pausedAt := if q.isPaused ∧ 1 ≤ q.length then some f else none, accumulatedPause := 0, count := count }

/-- The batch of a slot request: a fade batch or a release batch (R46). -/
def batchOf (t : Table Channel) (q : SlotRequest) (k : Nat) : Table Channel × ArbiterReport :=
  match q.kind with
  | .cue _ _ => fadeBatch t q.playback q.priority k q.pairs
  | .release => releaseBatch t q.playback k

/-- The reason with which a batch empties another slot (R48). -/
def takeoverReason (kind : SlotKind) : EndReason :=
  match kind with
  | .cue _ _ => .lost
  | .release => .released

/-- The lend for a kept CUE slot (R23, R46). -/
def lendFor (w : FrameWork) (kind : SlotKind) : FrameWork :=
  match kind with
  | .cue _ scene => { w with s := { w.s with store := w.s.store.lend scene } }
  | .release => w

/-- The Transition Engine takes a slot request whole (R45, R46). -/
def requestSlot (w : FrameWork) (q : SlotRequest) : FrameWork × SlotAnswer :=
  if w.resetEngine then (w, .refused)
  else
    match w.s.engine.lowestFree w.frame with
    | none => (w, .noSlot)
    | some k =>
      if w.resetArbiter then
        ({ w.setSlot k (.inUse (allocated q w.frame 0)) with engineWaits := true }, .silent)
      else
        let report := batchOf w.s.arbiter.channels q k
        let w1 := w.setChannels report.1
        if report.2.granted = 0 then (w1.setSlot k (.free (w.frame + 1)), .noChannels report.2.denied)
        else
          let w2 := (w1.setSlot k (.inUse (allocated q w.frame report.2.granted))).lendFor q.kind
          let w3 := w2.takeLosses report.2.lost (takeoverReason q.kind)
          let w4 := if q.length = 0 then { w3 with mustEnd := w3.mustEnd ++ [k] } else w3
          (w4, .started k report.2.granted report.2.denied)

/-! ## Playback Controller: cues (R59 to R67) -/

/-- The frame that a due frame is computed from: this frame, or the frame the playback was paused at (R60, R68). -/
def clockOf (w : FrameWork) (p : Playback) : Nat := p.paused.getD w.frame

/-- A FOLLOW head with no due frame gets it from an end at this frame (R60, R68); any other head is left. -/
def followDue (w : FrameWork) (p : Playback) : List Cue → List Cue
  | [] => []
  | c :: rest =>
    if c.trigger = .follow ∧ c.due = none then
      { c with due := some (w.clockOf p + 1 + framesOf c.followWait w.period) } :: rest
    else c :: rest

/-- The completion of a cue that carries its report flag (R67). -/
def reportCue (w : FrameWork) (c : Cue) (status : Status) : FrameWork :=
  if c.report then w.finish { ctx := c.ctx, dropped := false } status (packPair c.label c.denied) else w

/-- The in-flight cue `id` of playback `p`. -/
def cueOf (w : FrameWork) (p id : Nat) : Option Cue := (w.playback p).inFlight.find? (fun c => decide (c.id = id))

/-- Change the in-flight cue `id` of playback `p`. -/
def setCue (w : FrameWork) (p id : Nat) (g : Cue → Cue) : FrameWork :=
  w.setPlayback p
    { w.playback p with inFlight := (w.playback p).inFlight.map (fun c => if c.id = id then g c else c) }

/-- Whether the head of a playback may be triggered automatically (R61). -/
def headDue (w : FrameWork) (q : Playback) : Bool :=
  match q.pending with
  | [] => false
  | c :: _ =>
    match c.due with
    | none => false
    | some d => decide (q.paused = none ∧ d ≤ w.frame ∧ q.inFlight.length < Config.cuesInFlight)

/-- The due frame of a cue that becomes head because the cue before it was triggered at frame `a` (R59, R60): the last
trigger is then in flight. -/
def becomeHead (a : Nat) (c : Cue) : Cue :=
  match c.trigger with
  | .manual => { c with due := none }
  | .withPrevious => { c with due := some a }
  | .follow => { c with due := none }

/-- The cue in flight that triggering `c` at this frame makes (R62, steps 1 and 2). -/
def triggered (w : FrameWork) (c : Cue) : Cue :=
  { c with
    state := .delayed
    triggerFrame := some w.frame
    length := framesOf c.fadeTime w.period
    due := some (w.frame + framesOf c.delay w.period) }

/-- The head of playback `p` is triggered at this frame (R62); a cue without delay has then reached its fade start
(R62, step 5). -/
def triggerHead (w : FrameWork) (p : Nat) : FrameWork :=
  let q := w.playback p
  match q.pending with
  | [] => w
  | c :: rest =>
    let rest' := match rest with
      | [] => []
      | d :: more => becomeHead w.frame d :: more
    let q' : Playback := { q with
      pending := rest', inFlight := q.inFlight ++ [w.triggered c], lastTrigger := .inFlight c.id }
    (w.setPlayback p q').doAtOnce (if framesOf c.delay w.period = 0 then [.fadeStart p c.id] else [])

/-- The automatic trigger of the head is tried; after a trigger it is tried again for the new head (R61). -/
def tryHead (w : FrameWork) (p : Nat) : FrameWork :=
  if w.headDue (w.playback p) then (w.triggerHead p).doAtOnce [.tryHead p] else w

/-- An in-flight cue reaches a terminal status (R57, R66): it leaves the in-flight set, the last trigger and a waiting
FOLLOW head learn of it, its completion is handed over, and the automatic trigger of the head is tried at once (R58).
DESIGN CHOICE: R66 does not order these, and the model hands the completion over before it tries the trigger (log entry
40). -/
def endCue (w : FrameWork) (p id : Nat) (status : Status) : FrameWork :=
  match w.cueOf p id with
  | none => w
  | some c =>
    let q := w.playback p
    let wasLast := decide (q.lastTrigger = .inFlight id)
    let q' : Playback := { q with
      inFlight := q.inFlight.filter (fun d => decide (d.id ≠ id))
      lastTrigger := if wasLast then .ended else q.lastTrigger
      pending := if wasLast then w.followDue q q.pending else q.pending }
    ((w.setPlayback p q').reportCue { c with terminal := some status } status).tryHead p

/-! ## Playback Controller: notices (R50, R66, R79) -/

/-- The status of a CUE slot's cue (R66). -/
def cueStatus : EndReason → Status
  | .ended => .ok
  | .lost => .superseded
  | _ => .cancelled

/-- The status of a RELEASE slot's RELEASE (R79). -/
def releaseStatus : EndReason → Status
  | .ended => .ok
  | .lost | .released | .snapped => .superseded
  | .cleared | .showReset => .cancelled

/-- A release slot has been freed: its RELEASE completes with its moved count (R79). The RELEASE is the playback's
running one, or one that a later RELEASE has already replaced in the record. -/
def endRelease (w : FrameWork) (p k : Nat) (status : Status) : FrameWork :=
  let q := w.playback p
  if q.releaseSlot = some k then
    let w1 := w.setPlayback p { q with releaseSlot := none, releaseRecord := none }
    match q.releaseRecord with
    | some r => w1.finish r.owed status r.moved
    | none => w1
  else
    match w.superseded.find? (fun x => decide (x.1 = k)) with
    | some x =>
      { w with superseded := w.superseded.eraseP (fun x => decide (x.1 = k)) }.finish x.2.owed status x.2.moved
    | none => w

/-- The controller takes an end notice (R66, R79). -/
def takeNotice (w : FrameWork) (n : EndNotice) : FrameWork :=
  match n.kind with
  | .cue id _ => w.endCue n.playback id (cueStatus n.reason)
  | .release => w.endRelease n.playback n.slot (releaseStatus n.reason)

/-- The controller takes every end notice sent so far, in the order sent; what it does at once for one stands before
what it does for the next (R58). -/
def takeNotices (w : FrameWork) : FrameWork :=
  w.notices.foldl takeNotice { w with notices := [] }

/-! ## Playback Controller: fade start (R63 to R65) -/

/-- The slot request of a cue (R45, R65). -/
def cueRequest (q : Playback) (p : Nat) (c : Cue) (pairs : List (Nat × Level)) : SlotRequest :=
  { kind := .cue c.id c.scene, playback := p, priority := q.priority, isPaused := q.paused.isSome, pairs := pairs,
    length := c.length, curve := c.curve }

/-- The slot request of a cue brings no answer: the cue is read no more, and ends CANCELLED (R52, R82). Until then it stands
as a DELAYED cue without a due frame, which neither the sweep nor a load-end notice takes up (log entry 39). -/
def unanswered (w : FrameWork) (p id : Nat) : FrameWork :=
  w.setCue p id (fun d => { d with state := .delayed, due := none })

/-- A cue goes on to its slot request, and the answer decides (R65). Notices sent before the answer are taken before
it, since one block's messages arrive in order. DESIGN CHOICE: the store's show-reset handling never falls between the
reading and the lend (R32, log entry 37); and after a refused request, which no answer follows (R52), the controller
goes on with its passes, where for a RELEASE it waits for its own show-reset notice (R82, log entry 39). The cue itself is
left to the show reset then. -/
def startCue (w : FrameWork) (p : Nat) (c : Cue) (pairs : List (Nat × Level)) : FrameWork :=
  let w0 := w.takeNotices
  match w0.requestSlot (cueRequest (w0.playback p) p c pairs) with
  | (w1, .noSlot) => w1.endCue p c.id .noSlot
  | (w1, .noChannels denied) => (w1.setCue p c.id (fun d => { d with denied := denied })).endCue p c.id .denied
  | (w1, .started k _ denied) =>
    w1.setCue p c.id (fun d => { d with state := .fading, slot := some k, due := none, denied := denied })
  | (w1, .refused) => w1.unanswered p c.id
  | (w1, .silent) => (w1.unanswered p c.id).doFirst [.awaitReset none]

/-- The reading of a cue's scene decides what follows (R22, R63, R64). DESIGN CHOICE: the reading, the slot request and
the lend are one piece of work (log entry 37). -/
def readScene (w : FrameWork) (p : Nat) (c : Cue) : FrameWork :=
  match (w.s.store.scene c.scene).state with
  | .ready => w.startCue p c (w.s.store.scene c.scene).entries
  | .loading => w.setCue p c.id (fun d => { d with state := .waitScene, due := none })
  | .empty => w.endCue p c.id .noScene

/-- A DELAYED cue reaches its fade start (R63). -/
def fadeStart (w : FrameWork) (p id : Nat) : FrameWork :=
  match w.cueOf p id with
  | some c => if c.state = .delayed then w.readScene p c else w
  | none => w

/-- A WAIT_SCENE cue is woken (R64). -/
def wakeCue (w : FrameWork) (p id : Nat) : FrameWork :=
  match w.cueOf p id with
  | some c => if c.state = .waitScene then w.readScene p c else w
  | none => w

/-! ## Playback Controller: staged requests (R72 to R77) -/

/-- GO is applied (R72). -/
def applyGo (w : FrameWork) (p : Nat) (o : Owed) : FrameWork :=
  let q := w.playback p
  if q.paused.isSome then w.finish o .paused 0
  else if q.pending = [] then w.finish o .empty 0
  else if Config.cuesInFlight ≤ q.inFlight.length then w.finish o .busy 0
  else (w.triggerHead p).doFirst [.goChain p 1 o]

/-- After a GO has triggered `n` cues: the new head is triggered if it is due, or GO completes (R72). A cue it triggered that
ended at its fade start has completed before it (log entry 36). DESIGN CHOICE: this is a piece of work of its own, so that an
end notice or a load-end notice may be taken between the head's trigger and the chain (R58 and R81 differ; log entry 52); a
WITH cue that such a notice lets go is triggered by it and is not counted (log entry 16). -/
def goChain (w : FrameWork) (p n : Nat) (o : Owed) : FrameWork :=
  if w.headDue (w.playback p) then (w.triggerHead p).doFirst [.goChain p (n + 1) o] else w.finish o .ok n

/-- PAUSE is applied (R73, R40). -/
def applyPause (w : FrameWork) (p : Nat) (o : Owed) : FrameWork :=
  let q := w.playback p
  if q.paused.isSome then w.finish o .ok 0
  else
    let w1 := w.setPlayback p { q with paused := some w.frame }
    { w1 with s := { w1.s with engine := w1.s.engine.pauseOrder p w.frame } }.finish o .ok 1

/-- A due frame is shifted by a pause of `n` frames (R68). -/
def shiftDue (n : Nat) (c : Cue) : Cue := { c with due := c.due.map (· + n) }

/-- RESUME shifts the due frames of the DELAYED cues and of the head (R68). -/
def shiftPlayback (n : Nat) (q : Playback) : Playback :=
  { q with
    paused := none
    inFlight := q.inFlight.map (fun c => if c.state = .delayed then shiftDue n c else c)
    pending := match q.pending with
      | [] => []
      | c :: rest => shiftDue n c :: rest }

/-- RESUME is applied (R74, R41): slots that the resume brings to their end are ended as part of taking the order. The
spec gives no order among several such ends; the model may take them in any order (`WorkItem.slotMustEnd`, log entry
1). DESIGN CHOICE: RESUME's OK is handed over before the completions of the cues and of the RELEASE whose slots the
resume brings to their end, an order that R41 and R74 do not give (log entry 38), and in the same piece of work as the
resume order (log entry 51). -/
def applyResume (w : FrameWork) (p : Nat) (o : Owed) : FrameWork :=
  let q := w.playback p
  match q.paused with
  | none => w.finish o .ok 0
  | some at_ =>
    let w1 := w.setPlayback p (shiftPlayback (w.frame - at_) q)
    let e := w1.s.engine.resumeOrder p w.frame
    { w1 with s := { w1.s with engine := e }, mustEnd := w1.mustEnd ++ e.endingOf p w.frame }.finish o .ok
      (w.frame - at_)

/-- Whether a cue in flight is DELAYED or WAIT_SCENE. -/
def waiting (c : Cue) : Bool := decide (c.state = .delayed ∨ c.state = .waitScene)

/-- Every pending cue of a list ends CANCELLED (R75, R82). DESIGN CHOICE: their completions stand in list order, an
order that R75 does not give (log entry 41). -/
def cancelCues (w : FrameWork) (cues : List Cue) : FrameWork :=
  cues.foldl (fun acc c => acc.reportCue c .cancelled) w

/-- The CUE slots among the slots an order took channels from. -/
def cueSlots (w : FrameWork) (lost : List (Nat × Nat)) : Nat :=
  (lost.filter (fun l =>
    match w.s.engine.slot l.1 with
    | .inUse r => decide (r.kind ≠ .release)
    | .free _ => false)).length

/-- The DELAYED and WAIT_SCENE cues of a playback end CANCELLED (R75, R76). DESIGN CHOICE: in trigger order, an order
that R75 and R76 do not give (log entry 41). -/
def cancelWaiting (w : FrameWork) (p : Nat) : FrameWork :=
  ((w.playback p).inFlight.filter waiting).foldl (fun acc c => acc.endCue p c.id .cancelled) w

/-- CLEAR is applied (R75, R14). The controller takes the end notices of the freed slots before CLEAR completes. DESIGN
CHOICE: the pending cues end in list order and the waiting cues in trigger order (log entry 41); and the cancelled cues, the
clear order, the end notices and CLEAR's OK are one piece of work, so that no other block's work and no other completion
falls between them, though R3 and R103 order nothing between blocks (log entry 51). -/
def applyClear (w : FrameWork) (p : Nat) (o : Owed) : FrameWork :=
  let q := w.playback p
  let w1 := w.cancelCues q.pending
  let w2 := w1.setPlayback p { q with pending := [] }
  let w3 := w2.cancelWaiting p
  if w.resetArbiter then w3.doFirst [.awaitReset (some o)]
  else
    let report := clearOrder w3.s.arbiter.channels p
    let cues := w3.cueSlots report.2.lost
    let w4 := ((w3.setChannels report.1).takeLosses report.2.lost .cleared).takeNotices
    let w5 := w4.setPlayback p { w4.playback p with paused := none }
    w5.finish o .ok (q.pending.length + (q.inFlight.filter waiting).length + cues)

/-- RELEASE is applied: step 1 cancels the waiting cues, and the other steps follow (R76). A head that the room lets go
(R66) is triggered before step 2 and is none of the cues that step 1 cancels (log entry 17). -/
def applyRelease (w : FrameWork) (p : Nat) (given : Option Nat) (o : Owed) : FrameWork :=
  (w.cancelWaiting p).doFirst [.releaseRead p given o]

/-- RELEASE with an owned count of 0 completes; otherwise its time is converted (R76, steps 2 and 3). -/
def releaseRead (w : FrameWork) (p : Nat) (given : Option Nat) (o : Owed) : FrameWork :=
  if w.s.arbiter.ownedCount p = 0 then w.finish o .ok 0
  else w.doFirst [.releaseSlot p (framesOf (given.getD (w.playback p).defaultRelease) w.period) o]

/-- The slot request of a RELEASE (R45, R76). -/
def releaseRequest (q : Playback) (p length : Nat) : SlotRequest :=
  { kind := .release, playback := p, priority := q.priority, isPaused := q.paused.isSome, pairs := [],
    length := length, curve := .linear }

/-- A RELEASE's slot has started: the record names it, and an earlier release waits for its own end notice (R77). -/
def recordRelease (w : FrameWork) (p k moved : Nat) (o : Owed) : FrameWork :=
  let q := w.playback p
  let w1 := w.setPlayback p
    { q with releaseSlot := some k, releaseRecord := some { owed := o, moved := moved } }
  match q.releaseSlot, q.releaseRecord with
  | some j, some r => { w1 with superseded := w1.superseded ++ [(j, r)] }
  | _, _ => w1

/-- RELEASE asks for its slot, and the answer decides its course (R77). DESIGN CHOICE: where the request is refused (R52),
the controller waits for its own show-reset notice before anything else of its passes (log entry 39); and a RELEASE whose
batch moves no channel completes in the same piece of work (log entry 51). -/
def releaseSlot (w : FrameWork) (p length : Nat) (o : Owed) : FrameWork :=
  let w0 := w.takeNotices
  match w0.requestSlot (releaseRequest (w0.playback p) p length) with
  | (w1, .noSlot) => w1.doFirst [.snap p o]
  | (w1, .noChannels _) => w1.finish o .ok 0
  | (w1, .started k granted _) => w1.recordRelease p k granted o
  | (w1, .refused) => w1.doFirst [.awaitReset (some o)]
  | (w1, .silent) => w1.doFirst [.awaitReset (some o)]

/-- A RELEASE that found no slot snaps (R15, R77). The spec gives no order between its own completion and those of the
cues and of the earlier RELEASE that the snap ends; the model hands over SNAPPED with the arbiter's report, before it
takes the end notices (log entry 32), and before the arbiter takes another arrival (log entry 51). -/
def applySnap (w : FrameWork) (p : Nat) (o : Owed) : FrameWork :=
  if w.resetArbiter then w.doFirst [.awaitReset (some o)]
  else
    let report := snapOrder w.s.arbiter.channels p
    ((w.setChannels report.1).takeLosses report.2.lost .snapped).finish o .snapped report.2.granted

/-- A request of the Playback Controller is applied. -/
def applyPlayback (w : FrameWork) (o : Owed) (r : PlaybackRequest) : FrameWork :=
  match r with
  | .go p => w.applyGo p o
  | .pause p => w.applyPause p o
  | .resume p => w.applyResume p o
  | .clear p => w.applyClear p o
  | .release p given => w.applyRelease p given o

/-! ## Playback Controller: the two passes (R58) -/

/-- The staged pass: the next entry stamped with this frame, or the end of the pass (R58). -/
def stagedPass (w : FrameWork) : FrameWork :=
  match takeStaged w.frame w.s.controller.staged with
  | some (e, rest) =>
    let w1 := { w with s := { w.s with controller := { w.s.controller with staged := rest } } }
    (w1.doFirst [.stagedPass]).applyPlayback e.owed e.request
  | none => { w with stagedOver := true }

/-- The sweep's visit to a playback: its DELAYED cues due at this frame reach their fade start, in trigger order, and
the head's automatic trigger is tried (R58). -/
def sweep (w : FrameWork) (p : Nat) : FrameWork :=
  let q := w.playback p
  if q.paused.isSome then w
  else
    w.doFirst
      (((q.inFlight.filter (fun c => decide (c.state = .delayed ∧ c.due = some w.frame))).map
          (fun c => ControllerStep.fadeStart p c.id)) ++ [.tryHead p])

/-- A released request reaches the controller (R124). After the show-reset notice it ends CANCELLED (R128). A RESUME
taken after the staged pass is followed by the sweep's work for its playback. -/
def takeReleased (w : FrameWork) (o : Owed) (r : PlaybackRequest) : FrameWork :=
  if w.resetController then w.finish o .cancelled 0
  else
    match r with
    | .resume p => if w.stagedOver then (w.applyResume p o).doFirst [.sweep p] else w.applyResume p o
    | _ => w.applyPlayback o r

/-- The WAIT_SCENE cues of a playback that wait on a scene. -/
def waitersOf (w : FrameWork) (scene p : Nat) : List ControllerStep :=
  ((w.playback p).inFlight.filter (fun c => decide (c.state = .waitScene ∧ c.scene = scene))).map
    (fun c => .wake p c.id)

/-- The controller takes a load-end notice: every cue waiting on the scene reads it again at once, in ascending playback
number and in trigger order (R58, R64). -/
def takeLoadEnd (w : FrameWork) (scene : Nat) : FrameWork :=
  w.doFirst ((List.range Config.playbacks).flatMap (w.waitersOf scene))

/-- One step of the controller's agenda. -/
def controllerStep (w : FrameWork) : ControllerStep → FrameWork
  | .stagedPass => w.stagedPass
  | .sweep p => w.sweep p
  | .fadeStart p id => w.fadeStart p id
  | .wake p id => w.wakeCue p id
  | .tryHead p => w.tryHead p
  | .goChain p n o => w.goChain p n o
  | .releaseRead p given o => w.releaseRead p given o
  | .releaseSlot p length o => w.releaseSlot p length o
  | .snap p o => w.applySnap p o
  | .awaitReset _ => w

/-! ## Band Unit (R93 to R96) -/

/-- START_BAND is applied (R93, R94). The spec gives no order between its completion and those of the cues and RELEASEs
whose slots its batch empties, which are the Playback Controller's (R103); the model hands over START_BAND's with the
arbiter's report, before the end notices are taken (log entry 33), and before the arbiter takes another claim (log entry
51). -/
def applyStartBand (w : FrameWork) (o : Owed) (b priority : Nat) : FrameWork :=
  let band := w.s.bands.band b
  let config := (w.s.ports.port band.portOf).applied
  match startBandRefusal band config, band.setup with
  | some (status, detail), _ => w.finish o status detail
  | none, none => w
  | none, some d =>
    if w.resetArbiter then { w with bandWaits := some o }
    else
      let range := bandRange d config
      let report := bandBatch w.s.arbiter.channels b priority range.1 range.2
      let w1 := (w.setChannels report.1).takeLosses report.2.lost .lost
      let run : BandRun :=
        { originFrame := w.frame, priority := priority, firstChannel := range.1, channelCount := range.2,
          denied := report.2.denied }
      { w1 with s := { w1.s with bands := w1.s.bands.setBand b (.running d run) } }.finish o .ok
        (packPair report.2.granted report.2.denied)

/-- STOP_BAND is applied (R95, R13). DESIGN CHOICE: the stop order and STOP_BAND's OK are one piece of work, so that the OK
stands before the completion of every request whose claim the arbiter takes after the stop order, an order that R103 does
not give (log entry 51). -/
def applyStopBand (w : FrameWork) (o : Owed) (b : Nat) : FrameWork :=
  match w.s.bands.band b with
  | .running d r =>
    if w.resetArbiter then { w with bandWaits := some o }
    else
      let report := stopOrder w.s.arbiter.channels b
      let w1 := w.setChannels report.1
      { w1 with s := { w1.s with bands := w1.s.bands.setBand b (stoppedAt d r w.frame) } }.finish o .ok
        report.2.granted
  | .stopped _ => w.finish o .ok 0
  | _ => w.finish o .notReady 0

/-- SET_ROLL is applied (R96). -/
def applySetRoll (w : FrameWork) (o : Owed) (b : Nat) (step : Int) (period : Nat) (offset : Option Nat) : FrameWork :=
  match rolledAt (w.s.bands.band b) w.frame step period offset with
  | some (band, o0) => { w with s := { w.s with bands := w.s.bands.setBand b band } }.finish o .ok o0
  | none => w.finish o .notReady 0

/-- A request of the Band Unit is applied. -/
def applyBand (w : FrameWork) (o : Owed) (r : BandRequest) : FrameWork :=
  match r with
  | .start b priority => w.applyStartBand o b priority
  | .stop b => w.applyStopBand o b
  | .setRoll b step period offset => w.applySetRoll o b step period offset

/-- A released request reaches the Band Unit; after its show-reset notice it ends CANCELLED (R124, R128). -/
def takeReleasedBand (w : FrameWork) (o : Owed) (r : BandRequest) : FrameWork :=
  if w.resetBands then w.finish o .cancelled 0 else w.applyBand o r

/-! ## Frame Clock and Composer (R103, R112, R116) -/

/-- SHOW_RESET is applied by the Frame Clock (R116, R164). DESIGN CHOICE: its OK is handed over before the completions that
the other blocks' show-reset handling ends CANCELLED, an order that R103 and R116 do not give (log entry 47). -/
def applyShowReset (w : FrameWork) (o : Owed) : FrameWork :=
  { w with
    resetSent := true
    s := { w.s with
      clock := { w.s.clock with parks := [], master := 65535 }
      host := { w.s.host with intakePause := false } } }.finish o .ok 0

/-- A staged request of the Frame Clock and Composer is applied. -/
def applyClock (w : FrameWork) (o : Owed) (r : ClockRequest) : FrameWork :=
  match r with
  | .compose q => { w with s := w.s.applyCompose o q }
  | .setPeriod p => { w with s := { w.s with clock := { w.s.clock with period := p } } }.finish o .ok w.s.clock.period
  | .showReset => w.applyShowReset o

/-- A released request reaches the composer; after the show reset it ends CANCELLED (R116). -/
def takeReleasedCompose (w : FrameWork) (o : Owed) (q : ComposeRequest) : FrameWork :=
  if w.resetSent then w.finish o .cancelled 0 else { w with s := w.s.applyCompose o q }

/-! ## Frame Group Unit (R123) -/

/-- A removed request is handed to its owner, after those already handed to it (R123). -/
def handOut (w : FrameWork) (h : HeldRequest) : FrameWork :=
  let o : Owed := { ctx := h.ctx, dropped := false }
  match h.request with
  | .playback r => { w with toController := w.toController ++ [(o, r)] }
  | .band r => { w with toBands := w.toBands ++ [(o, r)] }
  | .compose r => { w with toComposer := w.toComposer ++ [(o, r)] }

/-- COMMIT is applied (R123). DESIGN CHOICE: its OK is handed over before the completions of the requests that it releases,
an order that R103 and R123 do not give between the unit and the owners (log entry 48). -/
def applyCommit (w : FrameWork) (o : Owed) (group : Nat) : FrameWork :=
  let members := w.s.groups.members group
  let w1 := { w with s := { w.s with groups := { w.s.groups with hold := w.s.groups.without group } } }
  (members.foldl handOut w1).finish o .ok members.length

/-! ## Load data that arrives in the midst of the frame start (R28, R81, R97) -/

/-- Data of a load that the show reset has cancelled is discarded (R32): every load once the store has taken its notice,
and a band load at the head once the Band Unit, which hands over its completion, has taken its own (R98). That the Band
Unit may be first is log entry 45. -/
def dataCancelled (w : FrameWork) : Bool :=
  w.resetStore || (w.resetBands && w.s.store.loads.head?.any Load.fillsBand)

/-- The host answers a read of load data. A load that ends now ends at this frame: its notice is stamped with it (R28,
R81). -/
def takeAnswer (w : FrameWork) (a : LoadAnswer) : FrameWork :=
  if w.dataCancelled then w
  else
    let t := w.s.loadAnswer w.frame a
    { w with s := t, bandLoads := bandRequests t.store.loads }

/-! ## Requests that join a group in the midst of the frame start (R123, R126) -/

end FrameWork

/-- What the host interface brings in the midst of a frame start does what its command does. DESIGN CHOICE: a record, or a
fence wait, that carries no group is not taken there (log entry 42). -/
def State.intakeArrival (s : State) : IntakeArrival → State
  | .grant => s.intakeGrant
  | .record r => if carriesGroup r.body then s.recordArrives r else s
  | .fenced q => if (s.host.sq q.val).fence.any (fun w => carriesGroup w.record.body) then s.takeFenced q.val else s

namespace FrameWork

/-- The host interface brings something. Once a SHOW_RESET has been applied at this frame, what comes waits until the frame
start is over: a request taken then has a later effective frame, and the hold list is empty after the frame start (R115,
R128). -/
def takeArrival (w : FrameWork) (a : IntakeArrival) : FrameWork :=
  if w.resetSent then w else { w with s := w.s.intakeArrival a }

/-! ## The show reset at each block (R17, R32, R52, R82, R98, R128) -/

/-- The arbiter takes the show-reset order (R17) and reports on it as on every order (R10): the slots that lost channels go
to the Transition Engine. The number of channels changed goes to the Frame Clock, which no rule lets do anything with it. -/
def showResetArbiter (w : FrameWork) : FrameWork :=
  let report := showResetOrder w.s.arbiter.channels
  { w.setChannels report.1 with resetArbiter := true, resetLosses := report.2.lost }

/-- The Transition Engine takes the report on the show-reset order: each slot named loses the channels named, and one that
keeps none is freed (R48). A slot that the engine's own notice has freed before is left (R35, R52). DESIGN CHOICE: R48 says
this of a report on any arrival, R36 and the table of reasons do not name this one; the reason is SHOW_RESET, which R50 gives
to a slot that a show reset frees (log entry 49). -/
def takeResetReport (w : FrameWork) : FrameWork :=
  { w with resetLosses := [] }.takeLosses w.resetLosses .showReset

/-- The store takes its notice (R32). -/
def showResetStore (w : FrameWork) : FrameWork := { w with s := w.s.showResetStore, resetStore := true }

/-- The Transition Engine takes its notice: every IN_USE slot is freed, in ascending order (R52). -/
def showResetEngine (w : FrameWork) : FrameWork :=
  { w.s.engine.inUseSlots.foldl (fun acc k => acc.freeSlot k .showReset) w with
    resetEngine := true, engineWaits := false, mustEnd := [] }

/-- The completion that an unfinished step of the controller owes. -/
def ControllerStep.owed : ControllerStep → Option Owed
  | .goChain _ _ o => some o
  | .releaseRead _ _ o => some o
  | .releaseSlot _ _ o => some o
  | .snap _ o => some o
  | .awaitReset o => o
  | _ => none

/-- The staged entries stamped with this frame. -/
def dueEntries {ρ : Type} (f : Nat) (l : List (Staged ρ)) : List (Staged ρ) := l.filter (fun e => decide (e.frame = f))

/-- The staged entries stamped with another frame. -/
def otherEntries {ρ : Type} (f : Nat) (l : List (Staged ρ)) : List (Staged ρ) :=
  l.filter (fun e => decide (e.frame ≠ f))

/-- Completions end CANCELLED with detail 0. -/
def cancelOwed (w : FrameWork) (owed : List Owed) : FrameWork :=
  owed.foldl (fun acc o => acc.finish o .cancelled 0) w

/-- A playback's cues and its RELEASE end CANCELLED (R82). -/
def cancelPlayback (w : FrameWork) (p : Nat) : FrameWork :=
  let q := w.playback p
  let w1 := w.cancelCues (q.pending ++ q.inFlight)
  match q.releaseRecord with
  | some r => w1.finish r.owed .cancelled r.moved
  | none => w1

/-- The controller takes its notice (R82). -/
def showResetController (w : FrameWork) : FrameWork :=
  let w1 := w.cancelOwed (w.agenda.filterMap ControllerStep.owed)
  let w2 := w1.cancelOwed ((dueEntries w.frame w.s.controller.staged).map Staged.owed)
  let w3 := (List.range Config.playbacks).foldl cancelPlayback w2
  let w4 := w.superseded.foldl (fun acc x => acc.finish x.2.owed .cancelled x.2.moved) w3
  { w4 with
    agenda := [], atOnce := [], superseded := [], stagedOver := true, resetController := true
    s := { w4.s with
      controller := { w4.s.controller with
        playbacks := Table.empty
        staged := otherEntries w.frame w4.s.controller.staged } } }

/-- The Band Unit takes its notice: the request it waits with, the staged entries of this frame and the cancelled band
loads end CANCELLED (R32, R98). -/
def showResetBands (w : FrameWork) : FrameWork :=
  let w1 := w.cancelOwed
    (w.bandWaits.toList ++ (dueEntries w.frame w.s.bands.staged).map Staged.owed ++
      w.bandLoads.map (fun c => { ctx := c, dropped := false }))
  { w1 with
    bandWaits := none, bandLoads := [], resetBands := true
    s := { w1.s with bands := { records := Table.empty, staged := otherEntries w.frame w1.s.bands.staged } } }

/-- The Frame Group Unit takes its notice (R128). -/
def showResetGroups (w : FrameWork) : FrameWork :=
  let w1 := { w with s := w.s.cancelHeld w.s.groups.hold }
  let w2 := w1.cancelOwed ((dueEntries w.frame w.s.groups.commits).map Staged.owed)
  { w2 with
    resetGroups := true
    s := { w2.s with groups := { hold := [], commits := otherEntries w.frame w2.s.groups.commits } } }

end FrameWork

end Sys2Proof.Machine
end

