-- ==== Sys2Proof/Machine/FrameStart.lean ====
section
/-! DEFINITION. FRAME_START: the order in which the blocks take their work at a frame start (R3, R58, R81, R101, R103).
Every piece of work that may be taken next is listed; the command's operand picks one (log entry 1); and the work ends
when nothing is left. -/

namespace Sys2Proof.Machine

/-- A piece of work that a block may take next at a frame start. DESIGN CHOICE: each is taken whole, with the orders it sends
to other blocks, their reports, and the completion it brings (log entry 51). -/
inductive WorkItem where
  /-- The Frame Group Unit applies its next COMMIT (R123). -/
  | commit
  /-- The composer takes its next released request (R124). -/
  | composerReleased
  /-- The Frame Clock and Composer applies its next staged entry (R103). -/
  | composerStaged
  /-- The Strip Ports apply their next CONFIG_PORT (R137). -/
  | portStaged
  /-- The Transition Engine ends a slot before it takes anything else (R41, R46). Of several that one resume order brings
  to their end, any may be ended first: the spec gives no order among them (R47). -/
  | slotMustEnd (slot : Nat)
  /-- The Transition Engine ends a slot whose end frame this is (R47). -/
  | slotEnd (slot : Nat)
  /-- The controller takes an end notice (R66, R79). -/
  | endNotice
  /-- The controller takes a load-end notice (R64). -/
  | loadEndNotice
  /-- The controller takes its next released request (R124). -/
  | playbackReleased
  /-- The controller does the next step of its own two passes (R58). -/
  | controllerStep
  /-- The Band Unit takes its next released request (R124). -/
  | bandReleased
  /-- The Band Unit applies its next staged entry (R87). -/
  | bandStaged
  /-- The arbiter takes the show-reset order (R17). -/
  | resetArbiter
  /-- A block takes its show-reset notice (R32, R52, R82, R98, R128). -/
  | resetStore
  | resetEngine
  | resetController
  | resetBands
  | resetGroups
  /-- The Transition Engine takes the arbiter's report on the show-reset order (R10, R48, R52). -/
  | resetReport
  /-- The host answers a read of load data, and a load may end (R25, R28, R81, R97). -/
  | loadAnswer
  /-- The host interface brings something, and a request may join its group (R123, R126). -/
  | intakeArrival
deriving DecidableEq, Repr

namespace FrameWork

/-! ## What may be taken next -/

/-- The Transition Engine may take an order or a slot request: it has no slot to end first and waits for no report. -/
def engineReady (w : FrameWork) : Bool := w.mustEnd.isEmpty && !w.engineWaits

/-- The controller's staged list holds an entry stamped with this frame that sends the Transition Engine an order. -/
def nextOrdersEngine (w : FrameWork) : Bool :=
  match takeStaged w.frame w.s.controller.staged with
  | some (e, _) =>
    match e.request with
    | .pause _ => true
    | .resume _ => true
    | _ => false
  | none => false

/-- The controller waits for an answer that the show reset has taken away (R17, R52). -/
def awaitsReset (w : FrameWork) : Bool :=
  match w.agenda with
  | .awaitReset _ :: _ => true
  | _ => false

/-- Whether a step of the controller may be taken: one that asks or orders the Transition Engine waits until that block
may take it, and one that asks it waits for the answer to the request before (R58). -/
def stepReady (w : FrameWork) : ControllerStep → Bool
  | .stagedPass => !w.nextOrdersEngine || w.mustEnd.isEmpty
  | .fadeStart _ _ => w.engineReady && !w.awaitsReset
  | .wake _ _ => w.engineReady
  | .releaseSlot _ _ _ => w.engineReady
  | .awaitReset _ => false
  | _ => true

/-- The controller is in the middle of handling a notice or of what follows at once, and takes no other notice (R58). A
controller that waits for the show reset takes them. In what order things done at once follow each other is log entry
36. -/
def handling (w : FrameWork) : Bool :=
  match w.agenda with
  | .awaitReset _ :: _ => false
  | .wake _ _ :: _ => true
  | _ => !w.atOnce.isEmpty

/-- The controller is between two entries of its work, where it may take a released request. R124 says when one is
applied, and leaves open whether it may be taken inside one entry or inside the sweep's visit to one playback; the model
takes it only between them (log entry 35). -/
def betweenEntries (w : FrameWork) : Bool :=
  match w.agenda with
  | [] => true
  | .stagedPass :: _ => true
  | .sweep _ :: _ => true
  | _ => false

/-- Whether the next released request of the controller may be taken. -/
def releasedReady (w : FrameWork) : Bool :=
  w.betweenEntries && w.atOnce.isEmpty &&
    match w.toController with
    | [] => false
    | (_, .pause _) :: _ => w.mustEnd.isEmpty
    | (_, .resume _) :: _ => w.mustEnd.isEmpty
    | _ => true

/-- One item, if it may be taken. -/
def listed (may : Bool) (i : WorkItem) : List WorkItem := if may then [i] else []

/-- The slots that may end now. -/
def slotItems (w : FrameWork) : List WorkItem :=
  if w.engineReady && !w.resetEngine then (w.s.engine.ending w.frame).map WorkItem.slotEnd
  else if w.engineWaits then []
  else w.mustEnd.map WorkItem.slotMustEnd

/-- The controller's next step: of what it does at once, and else of its agenda. -/
def nextStep (w : FrameWork) : Option ControllerStep := (w.atOnce ++ w.agenda).head?

/-- The controller's next step, if it may be taken. -/
def controllerItems (w : FrameWork) : List WorkItem :=
  match w.nextStep with
  | none => []
  | some step => listed (w.stepReady step) .controllerStep

/-- Whether the Transition Engine may take its show-reset notice: it takes nothing before the slots it has to end, unless
it waits for a report that the show reset has taken away (R41, R46, R52). -/
def engineMayReset (w : FrameWork) : Bool := w.mustEnd.isEmpty || w.engineWaits

/-- The next load-end notice stamped with this frame. -/
def nextLoadEnd (w : FrameWork) : Option LoadEndNotice :=
  w.s.store.notices.find? (fun n => decide (n.frame = w.frame))

/-- Everything that may be taken next. -/
def enabled (w : FrameWork) : List WorkItem :=
  listed (takeStaged w.frame w.s.groups.commits).isSome .commit ++
  listed (!w.toComposer.isEmpty) .composerReleased ++
  listed (takeStaged w.frame w.s.clock.staged).isSome .composerStaged ++
  listed (takeStaged w.frame w.s.ports.staged).isSome .portStaged ++
  w.slotItems ++
  listed (!w.notices.isEmpty && !w.handling) .endNotice ++
  listed (w.nextLoadEnd.isSome && !w.handling) .loadEndNotice ++
  listed w.releasedReady .playbackReleased ++
  w.controllerItems ++
  listed (!w.toBands.isEmpty && w.bandWaits.isNone) .bandReleased ++
  listed ((takeStaged w.frame w.s.bands.staged).isSome && w.bandWaits.isNone) .bandStaged ++
  listed (w.resetSent && !w.resetArbiter) .resetArbiter ++
  listed (w.resetSent && !w.resetStore) .resetStore ++
  listed (w.resetSent && !w.resetEngine && w.engineMayReset) .resetEngine ++
  listed (w.resetSent && !w.resetController && !w.handling) .resetController ++
  listed (w.resetSent && !w.resetBands) .resetBands ++
  listed (w.resetSent && !w.resetGroups) .resetGroups ++
  listed (!w.resetLosses.isEmpty && w.engineReady) .resetReport ++
  listed (!w.answers.isEmpty) .loadAnswer ++
  listed (!w.intake.isEmpty) .intakeArrival

/-! ## Taking one piece of work -/

/-- The next staged COMMIT is applied. -/
def doCommit (w : FrameWork) : FrameWork :=
  match takeStaged w.frame w.s.groups.commits with
  | some (e, rest) =>
    { w with s := { w.s with groups := { w.s.groups with commits := rest } } }.applyCommit e.owed e.request
  | none => w

/-- The next staged entry of the Frame Clock and Composer is applied. -/
def doComposerStaged (w : FrameWork) : FrameWork :=
  match takeStaged w.frame w.s.clock.staged with
  | some (e, rest) =>
    { w with s := { w.s with clock := { w.s.clock with staged := rest } } }.applyClock e.owed e.request
  | none => w

/-- The next staged CONFIG_PORT is applied. -/
def doPortStaged (w : FrameWork) : FrameWork :=
  match takeStaged w.frame w.s.ports.staged with
  | some (e, rest) =>
    { w with s := State.applyConfigPort { w.s with ports := { w.s.ports with staged := rest } } e }
  | none => w

/-- The next staged entry of the Band Unit is applied. -/
def doBandStaged (w : FrameWork) : FrameWork :=
  match takeStaged w.frame w.s.bands.staged with
  | some (e, rest) =>
    { w with s := { w.s with bands := { w.s.bands with staged := rest } } }.applyBand e.owed e.request
  | none => w

/-- The next released request of the composer is taken. -/
def doComposerReleased (w : FrameWork) : FrameWork :=
  match w.toComposer with
  | (o, q) :: rest => { w with toComposer := rest }.takeReleasedCompose o q
  | [] => w

/-- The next released request of the controller is taken. -/
def doPlaybackReleased (w : FrameWork) : FrameWork :=
  match w.toController with
  | (o, q) :: rest => { w with toController := rest }.takeReleased o q
  | [] => w

/-- The next released request of the Band Unit is taken. -/
def doBandReleased (w : FrameWork) : FrameWork :=
  match w.toBands with
  | (o, q) :: rest => { w with toBands := rest }.takeReleasedBand o q
  | [] => w

/-- One of the slots that must end first is ended. -/
def doSlotMustEnd (w : FrameWork) (k : Nat) : FrameWork := { w with mustEnd := w.mustEnd.erase k }.endSlot k

/-- The oldest end notice is taken. -/
def doEndNotice (w : FrameWork) : FrameWork :=
  match w.notices with
  | n :: rest => { w with notices := rest }.takeNotice n
  | [] => w

/-- The oldest load-end notice stamped with this frame is taken. -/
def doLoadEnd (w : FrameWork) : FrameWork :=
  match w.nextLoadEnd with
  | some n =>
    { w with s := { w.s with store := { w.s.store with
        notices := w.s.store.notices.eraseP (fun m => decide (m.frame = w.frame)) } } }.takeLoadEnd n.scene
  | none => w

/-- The host's next answer to a read of load data comes in. -/
def doAnswer (w : FrameWork) : FrameWork :=
  match w.answers with
  | a :: rest => { w with answers := rest }.takeAnswer a
  | [] => w

/-- The host interface brings the next thing. -/
def doArrival (w : FrameWork) : FrameWork :=
  match w.intake with
  | a :: rest => { w with intake := rest }.takeArrival a
  | [] => w

/-- The controller's next step is done. -/
def doControllerStep (w : FrameWork) : FrameWork :=
  match w.atOnce with
  | step :: rest => { w with atOnce := rest }.controllerStep step
  | [] =>
    match w.agenda with
    | step :: rest => { w with agenda := rest }.controllerStep step
    | [] => w

/-- Take one piece of work. -/
def take (w : FrameWork) : WorkItem → FrameWork
  | .commit => w.doCommit
  | .composerReleased => w.doComposerReleased
  | .composerStaged => w.doComposerStaged
  | .portStaged => w.doPortStaged
  | .slotMustEnd k => w.doSlotMustEnd k
  | .slotEnd k => w.endSlot k
  | .endNotice => w.doEndNotice
  | .loadEndNotice => w.doLoadEnd
  | .playbackReleased => w.doPlaybackReleased
  | .controllerStep => w.doControllerStep
  | .bandReleased => w.doBandReleased
  | .bandStaged => w.doBandStaged
  | .resetArbiter => w.showResetArbiter
  | .resetStore => w.showResetStore
  | .resetEngine => w.showResetEngine
  | .resetController => w.showResetController
  | .resetBands => w.showResetBands
  | .resetGroups => w.showResetGroups
  | .resetReport => w.takeResetReport
  | .loadAnswer => w.doAnswer
  | .intakeArrival => w.doArrival

/-- The piece of work that the number `n` picks, if any may be taken. -/
def pick (w : FrameWork) (n : Nat) : Option WorkItem := w.enabled[n % w.enabled.length]?

/-- Take pieces of work, `picks` picking each, until none may be taken. -/
def run : Nat → List Nat → FrameWork → FrameWork
  | 0, _, w => w
  | fuel + 1, picks, w =>
    match w.pick (picks.headD 0) with
    | some i => run fuel picks.tail (w.take i)
    | none => w

/-! ## The measure of what is left -/

/-- How many cues a playback holds. -/
def cuesOf (q : Playback) : Nat := q.pending.length + q.inFlight.length

/-- How many of them are pending. -/
def pendingOf (q : Playback) : Nat := q.pending.length

/-- 1 for a slot that is IN_USE. -/
def busyOf : FadeSlot → Nat
  | .inUse _ => 1
  | .free _ => 0

/-- The cues that the playbacks hold. -/
def cues (w : FrameWork) : Nat := w.s.controller.playbacks.total cuesOf

/-- The cues that are pending. -/
def pendingCues (w : FrameWork) : Nat := w.s.controller.playbacks.total pendingOf

/-- The slots that are IN_USE. -/
def busySlots (w : FrameWork) : Nat := w.s.engine.slots.total busyOf

/-- The slots that may be allocated now. -/
def openSlots (w : FrameWork) : Nat := (List.range Config.slots).countP (w.s.engine.mayAllocate w.frame)

/-- The weight of a step of the controller, where the playbacks hold at most `n` cues. -/
def stepWeight (n : Nat) : ControllerStep → Nat
  | .sweep _ => n + 3
  | .releaseRead _ _ _ => 3
  | .releaseSlot _ _ _ => 2
  | .awaitReset _ => 0
  | .stagedPass | .fadeStart _ _ | .wake _ _ | .tryHead _ | .goChain _ _ _ | .snap _ _ => 1

/-- The weight of what the blocks are already doing: a pending cue may be triggered, reach its fade start and let the
next head be tried; an open slot may be allocated and must then be ended; an IN_USE slot may end and send its notice. -/
def inHand (n : Nat) (w : FrameWork) : Nat :=
  3 * w.pendingCues + 3 * w.openSlots + 2 * w.busySlots + w.notices.length + w.mustEnd.length +
    (!w.engineWaits).toNat + (w.atOnce.map (stepWeight n)).sum + (w.agenda.map (stepWeight n)).sum

/-- How many staged entries are stamped with this frame. -/
def dueCount {ρ : Type} (f : Nat) (l : List (Staged ρ)) : Nat := l.countP (fun e => decide (e.frame = f))

/-- How many load-end notices are. -/
def dueLoadEnds (f : Nat) (l : List LoadEndNotice) : Nat := l.countP (fun x => decide (x.frame = f))

/-- The weight of what the blocks have still to take, where the playbacks hold at most `n` cues and at most `m` slots are
IN_USE or open: a RESUME brings up to `m` slots to their end and is followed by a sweep; a load-end notice wakes up to
`n` cues; an answer of the host may end a load; a held request becomes a released one, and an arrival may bring a held request. -/
def toTake (n m : Nat) (w : FrameWork) : Nat :=
  (m + n + 5) * w.toController.length + w.toBands.length + w.toComposer.length +
    (m + 4) * dueCount w.frame w.s.controller.staged + dueCount w.frame w.s.bands.staged +
    dueCount w.frame w.s.clock.staged + dueCount w.frame w.s.ports.staged + dueCount w.frame w.s.groups.commits +
    (m + n + 6) * w.s.groups.hold.length + (m + n + 7) * w.intake.length + (n + 2) * w.answers.length + (n + 1) * dueLoadEnds w.frame w.s.store.notices +
    2 * (!w.resetArbiter).toNat + (!w.resetStore).toNat + 2 * (!w.resetEngine).toNat +
    (!w.resetController).toNat + (!w.resetBands).toNat + (!w.resetGroups).toNat + (!w.resetLosses.isEmpty).toNat

/-- A measure that every piece of work lowers, whatever the order: `run` with this many pieces ends with nothing left
(`FrameWork.run_finished`, log entry 30). -/
def left (w : FrameWork) : Nat := w.inHand w.cues + w.toTake w.cues (w.openSlots + w.busySlots)

end FrameWork

/-! ## The frame start -/

/-- A FOLLOW cue that has become head by being appended gets its due frame, before the staged pass (R59, R60, R68). -/
def Playback.setHead (p : Playback) (f period : Nat) : Playback :=
  match p.pending, p.lastTrigger with
  | _, .inFlight _ => p
  | [], _ => p
  | c :: rest, _ =>
    if c.trigger = .follow ∧ c.due = none then
      { p with pending := { c with due := some (p.paused.getD f + 1 + framesOf c.followWait period) } :: rest }
    else p

/-- The heads of all pending lists are set (R59). -/
def PlaybackController.setHeads (c : PlaybackController) (f period : Nat) : PlaybackController :=
  { c with playbacks := c.playbacks.mapCells Playback.atReset (fun _ p => p.setHead f period) }

/-- The period of frame `f`: the last SET_FRAME_PERIOD stamped `f`, or the period in force (R100). -/
def FrameClock.periodOf (c : FrameClock) (f : Nat) : Nat :=
  c.staged.foldl
    (fun acc e =>
      match e.request with
      | .setPeriod p => if e.frame = f then p else acc
      | _ => acc)
    c.period

/-- The controller's own work at a frame start: the staged pass, then the sweep over the playbacks (R58). -/
def frameAgenda : List ControllerStep := .stagedPass :: (List.range Config.playbacks).map ControllerStep.sweep

/-- The work of frame start `f`, with nothing taken yet. -/
def State.beginFrame (s : State) (f : Nat) : FrameWork :=
  let period := s.clock.periodOf f
  { s := { s with
      clock := { s.clock with frame := f }
      controller := s.controller.setHeads f period }
    period := period, agenda := frameAgenda, atOnce := [], stagedOver := false, notices := [], superseded := [],
    mustEnd := [], engineWaits := false, bandWaits := none, bandLoads := bandRequests s.store.loads, toController := [],
    toBands := [], toComposer := [], answers := [], intake := [], resetSent := false, resetArbiter := false, resetStore := false,
    resetEngine := false, resetController := false, resetBands := false, resetGroups := false,
    resetLosses := [] }

/-- FRAME_START (R100, R101): the frame number rises by one, and every block takes all its work for the new frame. Load
data may arrive in the midst of it, and a load may end there (R28, R31, R81, R97); and requests of a group may be taken
there and join the hold list, so that the second of two COMMITs of one frame releases what joined between them (R123,
R126). DESIGN CHOICE: every other command comes whole before it or whole after it (log entry 42). -/
def State.frameStart (s : State) (course : FrameCourse) : State :=
  let w : FrameWork :=
    { s.beginFrame (s.clock.frame + 1) with answers := course.answers, intake := course.intake }
  (FrameWork.run w.left course.picks w).s

end Sys2Proof.Machine
end

