-- ==== Sys2Proof/Machine/FrameCommands.lean ====
section
/-! DEFINITION. The commands of the Frame Clock and Composer: the frame start, the latch, and the host's answers to the
writes of a level snapshot (06). -/

namespace Sys2Proof.Machine

/-- The frame period expires: frame start (R100, R101). -/
def execFrameStart (course : FrameCourse) (s : State) : Host.Outcome State Fault Refusal :=
  .next (s.frameStart course)

/-- The latch of the current frame; SAFE_IN is at `safeIn` (R101, R106). -/
def execLatch (safeIn : Bool) (s : State) : Host.Outcome State Fault Refusal :=
  .next (s.latchFrame safeIn)

/-- The host has accepted every write of snapshot `which` (R114). -/
def execReadLevelsWriteDone (which : Fin 2) (s : State) : Host.Outcome State Fault Refusal :=
  .next (s.endSnapshot which.val .ok)

/-- The host answers a write of snapshot `which` with an error (R114). -/
def execReadLevelsWriteError (which : Fin 2) (s : State) : Host.Outcome State Fault Refusal :=
  .next (s.endSnapshot which.val .hostWriteError)

end Sys2Proof.Machine
end

