-- ==== Sys2Proof/Machine/InterfaceCommands.lean ====
section
/-! DEFINITION. The commands at the host interface: register writes, the queue table, intake, fences, the event list and
the host's answers to record writes (10, 11.4, 11.7). -/

namespace Sys2Proof.Machine

/-- CONTROL.ENABLE is written 1 (R159). -/
def execControlEnableSet (s : State) : Host.Outcome State Fault Refusal :=
  .next s.enableSet

/-- CONTROL.ENABLE is written 0 (R159, R174). -/
def execControlEnableClear (s : State) : Host.Outcome State Fault Refusal :=
  .next s.enableClear

/-- The read of the queue table is answered (R160, R178). -/
def execQueueTableRead (answer : Option (List Byte)) (s : State) : Host.Outcome State Fault Refusal :=
  .next (s.queueTableAnswered answer)

/-- A write to QTABLE_LO or QTABLE_HI (R171). -/
def execQtableWrite (high : Bool) (value : Word32) (s : State) : Host.Outcome State Fault Refusal :=
  .next (s.writeQtable high value)

/-- A write to SQ_TAIL of queue `q` (R162, R179). -/
def execSqTailWrite (q : Fin 4) (value : Word32) (s : State) : Host.Outcome State Fault Refusal :=
  .next (s.writeTail q.val (low16 value))

/-- A write to CQ_HEAD of queue `q` (R163, R179). -/
def execCqHeadWrite (q : Fin 4) (value : Word32) (s : State) : Host.Outcome State Fault Refusal :=
  .next (s.writeHead q.val (low16 value))

/-- A write to INT_CAUSE (R171). -/
def execIntCauseWrite (value : Word32) (s : State) : Host.Outcome State Fault Refusal :=
  .next (s.writeCause value)

/-- Any other write access to the register window (R171, R179). -/
def execRegisterWrite (offset width : Nat) (value : Word32) (s : State) : Host.Outcome State Fault Refusal :=
  .next (s.writeRegister offset width value)

/-- The intake arbiter looks for a queue to grant (R164). -/
def execIntakeGrant (s : State) : Host.Outcome State Fault Refusal :=
  .next s.intakeGrant

/-- The host answers the record fetch with an error (R164). -/
def execFetchReadError (s : State) : Host.Outcome State Fault Refusal :=
  .next s.fetchError

/-- A fetch that is to be discarded returns (R162). -/
def execStaleFetchReturn (s : State) : Host.Outcome State Fault Refusal :=
  .next s.staleReturn

/-- The fence wait of queue `q` may be taken (R166). -/
def execFencedRecordTaken (q : Fin 4) (s : State) : Host.Outcome State Fault Refusal :=
  .next (s.takeFenced q.val)

/-- The fetched record arrives, and its kind byte names no request kind (R165, R176). -/
def execUnknownKindRecord (kind : Byte) (body : RecordBody) (s : State) : Host.Outcome State Fault Refusal :=
  .next (s.recordArrives { kind := kind, body := body })

/-- The oldest event is looked at for posting (R170). -/
def execEventPost (s : State) : Host.Outcome State Fault Refusal :=
  .next s.postEvent

/-- The host accepts the oldest unanswered record write to completion queue `q` (R167, R171). -/
def execRecordWriteAccepted (q : Fin 4) (s : State) : Host.Outcome State Fault Refusal :=
  .next (s.writeAccepted q.val)

/-- The host answers a record write to completion queue `q` with an error (R168). -/
def execCqWriteError (q : Fin 4) (s : State) : Host.Outcome State Fault Refusal :=
  .next (s.writeFailed q.val)

/-- A fetched record with FENCE set arrives (R166). -/
def execFencedRecordFetched (record : RequestRecord) (s : State) : Host.Outcome State Fault Refusal :=
  .next (s.recordArrives record)

end Sys2Proof.Machine
end

