-- ==== Sys2Proof/Machine/LoadCommands.lean ====
section
/-! DEFINITION. The commands that bring load data, or the failure of its read, from host memory (02). -/

namespace Sys2Proof.Machine

/-- The data of an item of a load returns from host memory (R25, R26, R92). -/
def execLoadItemReceived (item : LoadItem) (s : State) : Host.Outcome State Fault Refusal :=
  .next (s.loadItem s.effectiveFrame item)

/-- The host answers a read of the fetching load's data with an error (R26, R92). -/
def execLoadHostReadError (s : State) : Host.Outcome State Fault Refusal :=
  .next (s.loadError s.effectiveFrame)

end Sys2Proof.Machine
end

