-- ==== Sys2Proof/Machine/PortCommands.lean ====
section
/-! DEFINITION. The commands at the strip ports: the end of a transmission, an echo record, and the end of the echo window
(08). -/

namespace Sys2Proof.Machine

/-- A complete echo record arrives on the port's echo line (R135, 11.6). -/
def execEchoRecord (port : Fin 8) (sequence : Byte) (check : BitVec 16) (s : State) : Host.Outcome State Fault Refusal :=
  .next (s.hearEcho port.val sequence check)

/-- The port's echo window closes (R135, R136). -/
def execEchoWindowClose (port : Fin 8) (s : State) : Host.Outcome State Fault Refusal :=
  .next (s.echoWindowCloses port.val)

/-- The last bit of the port's wire frame has gone (R133, R135). -/
def execTransmissionEnd (port : Fin 8) (s : State) : Host.Outcome State Fault Refusal :=
  .next (s.endTransmission port.val)

end Sys2Proof.Machine
end

