-- ==== Sys2Proof/Machine/RequestCommands.lean ====
section
/-! DEFINITION. The commands of the 32 request kinds: the record of that kind that the Host Queue Unit fetched arrives,
and is made its queue's fence wait, or is taken, checked, and completed or routed to its owner, which acts on it
(R164 to R166). `State.route` leads to the page of each kind. -/

namespace Sys2Proof.Machine

/-- NOP (R164, R165, R172): the fetched record of this kind arrives. -/
def execNop (body : RecordBody) (s : State) : Host.Outcome State Fault Refusal :=
  .next (s.recordArrives { kind := Kind.nop.code, body := body })

/-- RESTART_QUEUE (R173): the fetched record of this kind arrives. -/
def execRestartQueue (body : RecordBody) (s : State) : Host.Outcome State Fault Refusal :=
  .next (s.recordArrives { kind := Kind.restartQueue.code, body := body })

/-- LOAD_SCENE (R27): the fetched record of this kind arrives. -/
def execLoadScene (body : RecordBody) (s : State) : Host.Outcome State Fault Refusal :=
  .next (s.recordArrives { kind := Kind.loadScene.code, body := body })

/-- DELETE_SCENE (R29): the fetched record of this kind arrives. -/
def execDeleteScene (body : RecordBody) (s : State) : Host.Outcome State Fault Refusal :=
  .next (s.recordArrives { kind := Kind.deleteScene.code, body := body })

/-- QUERY_SCENE (R30): the fetched record of this kind arrives. -/
def execQueryScene (body : RecordBody) (s : State) : Host.Outcome State Fault Refusal :=
  .next (s.recordArrives { kind := Kind.queryScene.code, body := body })

/-- CONFIG_PLAYBACK (R69): the fetched record of this kind arrives. -/
def execConfigPlayback (body : RecordBody) (s : State) : Host.Outcome State Fault Refusal :=
  .next (s.recordArrives { kind := Kind.configPlayback.code, body := body })

/-- QUERY_PLAYBACK (R80): the fetched record of this kind arrives. -/
def execQueryPlayback (body : RecordBody) (s : State) : Host.Outcome State Fault Refusal :=
  .next (s.recordArrives { kind := Kind.queryPlayback.code, body := body })

/-- RUN_CUE (R70, R71): the fetched record of this kind arrives. -/
def execRunCue (body : RecordBody) (s : State) : Host.Outcome State Fault Refusal :=
  .next (s.recordArrives { kind := Kind.runCue.code, body := body })

/-- GO (R53, R72, R120): the fetched record of this kind arrives. -/
def execGo (body : RecordBody) (s : State) : Host.Outcome State Fault Refusal :=
  .next (s.recordArrives { kind := Kind.go.code, body := body })

/-- PAUSE (R53, R73, R120): the fetched record of this kind arrives. -/
def execPause (body : RecordBody) (s : State) : Host.Outcome State Fault Refusal :=
  .next (s.recordArrives { kind := Kind.pause.code, body := body })

/-- RESUME (R53, R74, R120): the fetched record of this kind arrives. -/
def execResume (body : RecordBody) (s : State) : Host.Outcome State Fault Refusal :=
  .next (s.recordArrives { kind := Kind.resume.code, body := body })

/-- CLEAR (R53, R75, R120): the fetched record of this kind arrives. -/
def execClear (body : RecordBody) (s : State) : Host.Outcome State Fault Refusal :=
  .next (s.recordArrives { kind := Kind.clear.code, body := body })

/-- RELEASE (R53, R76, R120): the fetched record of this kind arrives. -/
def execRelease (body : RecordBody) (s : State) : Host.Outcome State Fault Refusal :=
  .next (s.recordArrives { kind := Kind.release.code, body := body })

/-- LOAD_BAND (R91): the fetched record of this kind arrives. -/
def execLoadBand (body : RecordBody) (s : State) : Host.Outcome State Fault Refusal :=
  .next (s.recordArrives { kind := Kind.loadBand.code, body := body })

/-- START_BAND (R87, R93, R120): the fetched record of this kind arrives. -/
def execStartBand (body : RecordBody) (s : State) : Host.Outcome State Fault Refusal :=
  .next (s.recordArrives { kind := Kind.startBand.code, body := body })

/-- STOP_BAND (R87, R95, R120): the fetched record of this kind arrives. -/
def execStopBand (body : RecordBody) (s : State) : Host.Outcome State Fault Refusal :=
  .next (s.recordArrives { kind := Kind.stopBand.code, body := body })

/-- SET_ROLL (R87, R96, R120): the fetched record of this kind arrives. -/
def execSetRoll (body : RecordBody) (s : State) : Host.Outcome State Fault Refusal :=
  .next (s.recordArrives { kind := Kind.setRoll.code, body := body })

/-- PARK (R103, R108, R120): the fetched record of this kind arrives. -/
def execPark (body : RecordBody) (s : State) : Host.Outcome State Fault Refusal :=
  .next (s.recordArrives { kind := Kind.park.code, body := body })

/-- UNPARK (R103, R109, R120): the fetched record of this kind arrives. -/
def execUnpark (body : RecordBody) (s : State) : Host.Outcome State Fault Refusal :=
  .next (s.recordArrives { kind := Kind.unpark.code, body := body })

/-- SET_MASTER (R103, R110, R120): the fetched record of this kind arrives. -/
def execSetMaster (body : RecordBody) (s : State) : Host.Outcome State Fault Refusal :=
  .next (s.recordArrives { kind := Kind.setMaster.code, body := body })

/-- SET_FRAME_PERIOD (R111): the fetched record of this kind arrives. -/
def execSetFramePeriod (body : RecordBody) (s : State) : Host.Outcome State Fault Refusal :=
  .next (s.recordArrives { kind := Kind.setFramePeriod.code, body := body })

/-- READ_LEVELS (R113): the fetched record of this kind arrives. -/
def execReadLevels (body : RecordBody) (s : State) : Host.Outcome State Fault Refusal :=
  .next (s.recordArrives { kind := Kind.readLevels.code, body := body })

/-- SHOW_RESET (R115): the fetched record of this kind arrives. -/
def execShowReset (body : RecordBody) (s : State) : Host.Outcome State Fault Refusal :=
  .next (s.recordArrives { kind := Kind.showReset.code, body := body })

/-- COMMIT (R122): the fetched record of this kind arrives. -/
def execCommit (body : RecordBody) (s : State) : Host.Outcome State Fault Refusal :=
  .next (s.recordArrives { kind := Kind.commit.code, body := body })

/-- ABORT_GROUP (R125): the fetched record of this kind arrives. -/
def execAbortGroup (body : RecordBody) (s : State) : Host.Outcome State Fault Refusal :=
  .next (s.recordArrives { kind := Kind.abortGroup.code, body := body })

/-- CONFIG_PORT (R138): the fetched record of this kind arrives. -/
def execConfigPort (body : RecordBody) (s : State) : Host.Outcome State Fault Refusal :=
  .next (s.recordArrives { kind := Kind.configPort.code, body := body })

/-- CONFIG_FEED (R150): the fetched record of this kind arrives. -/
def execConfigFeed (body : RecordBody) (s : State) : Host.Outcome State Fault Refusal :=
  .next (s.recordArrives { kind := Kind.configFeed.code, body := body })

/-- CONFIG_SUPPLY (R151): the fetched record of this kind arrives. -/
def execConfigSupply (body : RecordBody) (s : State) : Host.Outcome State Fault Refusal :=
  .next (s.recordArrives { kind := Kind.configSupply.code, body := body })

/-- POWER_UP (R152): the fetched record of this kind arrives. -/
def execPowerUp (body : RecordBody) (s : State) : Host.Outcome State Fault Refusal :=
  .next (s.recordArrives { kind := Kind.powerUp.code, body := body })

/-- POWER_DOWN (R153): the fetched record of this kind arrives. -/
def execPowerDown (body : RecordBody) (s : State) : Host.Outcome State Fault Refusal :=
  .next (s.recordArrives { kind := Kind.powerDown.code, body := body })

/-- CLEAR_FAULT (R154): the fetched record of this kind arrives. -/
def execClearFault (body : RecordBody) (s : State) : Host.Outcome State Fault Refusal :=
  .next (s.recordArrives { kind := Kind.clearFault.code, body := body })

/-- QUERY_FEEDS (R155): the fetched record of this kind arrives. -/
def execQueryFeeds (body : RecordBody) (s : State) : Host.Outcome State Fault Refusal :=
  .next (s.recordArrives { kind := Kind.queryFeeds.code, body := body })

end Sys2Proof.Machine
end

