-- ==== Sys2Proof/Machine/ResetCommands.lean ====
section
/-! DEFINITION. The two resets from outside: cold reset and a reset of the link. -/

namespace Sys2Proof.Machine

/-- COLD_RESET (R18, R34, R51, R53, R99, R118, R129, R140, R158, R174). -/
def execColdReset (s : State) : Host.Outcome State Fault Refusal :=
  .next s.coldReset

/-- LINK_RESET: CONTROL.ENABLE is cleared with a host interface reset, and the interface is OFF (R159, R174). -/
def execLinkReset (s : State) : Host.Outcome State Fault Refusal :=
  .next s.turnOff

end Sys2Proof.Machine
end

