-- ==== Sys2Proof/Machine/SupplyCommands.lean ====
section
/-! DEFINITION. The commands at the supply: the good inputs and the ends of the timers (09). -/

namespace Sys2Proof.Machine

/-- The feed's good input becomes asserted (R143). -/
def execFeedGoodAsserted (feed : Fin 6) (s : State) : Host.Outcome State Fault Refusal :=
  .next (s.goodAsserted feed.val)

/-- The feed's good input becomes deasserted (R143). -/
def execFeedGoodDeasserted (feed : Fin 6) (s : State) : Host.Outcome State Fault Refusal :=
  .next (s.goodDeasserted feed.val)

/-- The feed's good deadline is reached (R144). -/
def execGoodTimeout (feed : Fin 6) (s : State) : Host.Outcome State Fault Refusal :=
  .next (s.goodTimeout feed.val)

/-- The slot interval of the rising step ends (R147). -/
def execRiseIntervalEnd (s : State) : Host.Outcome State Fault Refusal :=
  .next s.riseIntervalEnds

/-- The slot interval of the falling step ends (R149). -/
def execFallIntervalEnd (s : State) : Host.Outcome State Fault Refusal :=
  .next s.fallIntervalEnds

end Sys2Proof.Machine
end

