-- ==== Sys2Proof/Machine/Dispatch.lean ====
section
/-! DEFINITION. The meaning of every command: one arm for each constructor of Instr. -/

namespace Sys2Proof.Machine

/-- What a command does to everything but the queue of waiting commands. -/
def exec (i : Instr) (s : State) : Host.Outcome State Fault Refusal :=
  match i with
  | .coldReset => Sys2Proof.Machine.execColdReset s
  | .linkReset => Sys2Proof.Machine.execLinkReset s
  | .controlEnableSet => Sys2Proof.Machine.execControlEnableSet s
  | .controlEnableClear => Sys2Proof.Machine.execControlEnableClear s
  | .queueTableRead answer => Sys2Proof.Machine.execQueueTableRead answer s
  | .qtableWrite high value => Sys2Proof.Machine.execQtableWrite high value s
  | .sqTailWrite q value => Sys2Proof.Machine.execSqTailWrite q value s
  | .cqHeadWrite q value => Sys2Proof.Machine.execCqHeadWrite q value s
  | .intCauseWrite value => Sys2Proof.Machine.execIntCauseWrite value s
  | .registerWrite offset width value => Sys2Proof.Machine.execRegisterWrite offset width value s
  | .intakeGrant => Sys2Proof.Machine.execIntakeGrant s
  | .fetchReadError => Sys2Proof.Machine.execFetchReadError s
  | .staleFetchReturn => Sys2Proof.Machine.execStaleFetchReturn s
  | .fencedRecordTaken q => Sys2Proof.Machine.execFencedRecordTaken q s
  | .unknownKindRecord kind body => Sys2Proof.Machine.execUnknownKindRecord kind body s
  | .nop body => Sys2Proof.Machine.execNop body s
  | .restartQueue body => Sys2Proof.Machine.execRestartQueue body s
  | .loadScene body => Sys2Proof.Machine.execLoadScene body s
  | .deleteScene body => Sys2Proof.Machine.execDeleteScene body s
  | .queryScene body => Sys2Proof.Machine.execQueryScene body s
  | .configPlayback body => Sys2Proof.Machine.execConfigPlayback body s
  | .queryPlayback body => Sys2Proof.Machine.execQueryPlayback body s
  | .runCue body => Sys2Proof.Machine.execRunCue body s
  | .go body => Sys2Proof.Machine.execGo body s
  | .pause body => Sys2Proof.Machine.execPause body s
  | .resume body => Sys2Proof.Machine.execResume body s
  | .clear body => Sys2Proof.Machine.execClear body s
  | .release body => Sys2Proof.Machine.execRelease body s
  | .loadBand body => Sys2Proof.Machine.execLoadBand body s
  | .startBand body => Sys2Proof.Machine.execStartBand body s
  | .stopBand body => Sys2Proof.Machine.execStopBand body s
  | .setRoll body => Sys2Proof.Machine.execSetRoll body s
  | .park body => Sys2Proof.Machine.execPark body s
  | .unpark body => Sys2Proof.Machine.execUnpark body s
  | .setMaster body => Sys2Proof.Machine.execSetMaster body s
  | .setFramePeriod body => Sys2Proof.Machine.execSetFramePeriod body s
  | .readLevels body => Sys2Proof.Machine.execReadLevels body s
  | .showReset body => Sys2Proof.Machine.execShowReset body s
  | .commit body => Sys2Proof.Machine.execCommit body s
  | .abortGroup body => Sys2Proof.Machine.execAbortGroup body s
  | .configPort body => Sys2Proof.Machine.execConfigPort body s
  | .configFeed body => Sys2Proof.Machine.execConfigFeed body s
  | .configSupply body => Sys2Proof.Machine.execConfigSupply body s
  | .powerUp body => Sys2Proof.Machine.execPowerUp body s
  | .powerDown body => Sys2Proof.Machine.execPowerDown body s
  | .clearFault body => Sys2Proof.Machine.execClearFault body s
  | .queryFeeds body => Sys2Proof.Machine.execQueryFeeds body s
  | .frameStart course => Sys2Proof.Machine.execFrameStart course s
  | .latch safeIn => Sys2Proof.Machine.execLatch safeIn s
  | .readLevelsWriteDone which => Sys2Proof.Machine.execReadLevelsWriteDone which s
  | .readLevelsWriteError which => Sys2Proof.Machine.execReadLevelsWriteError which s
  | .echoRecord port sequence check => Sys2Proof.Machine.execEchoRecord port sequence check s
  | .echoWindowClose port => Sys2Proof.Machine.execEchoWindowClose port s
  | .loadItemReceived item => Sys2Proof.Machine.execLoadItemReceived item s
  | .loadHostReadError => Sys2Proof.Machine.execLoadHostReadError s
  | .feedGoodAsserted feed => Sys2Proof.Machine.execFeedGoodAsserted feed s
  | .feedGoodDeasserted feed => Sys2Proof.Machine.execFeedGoodDeasserted feed s
  | .goodTimeout feed => Sys2Proof.Machine.execGoodTimeout feed s
  | .riseIntervalEnd => Sys2Proof.Machine.execRiseIntervalEnd s
  | .fallIntervalEnd => Sys2Proof.Machine.execFallIntervalEnd s
  | .eventPost => Sys2Proof.Machine.execEventPost s
  | .recordWriteAccepted q => Sys2Proof.Machine.execRecordWriteAccepted q s
  | .cqWriteError q => Sys2Proof.Machine.execCqWriteError q s
  | .transmissionEnd port => Sys2Proof.Machine.execTransmissionEnd port s
  | .fencedRecordFetched record => Sys2Proof.Machine.execFencedRecordFetched record s

end Sys2Proof.Machine
end

