-- ==== Sys2Proof/Safety.lean ====
section
/-! DEFINITION. What a state of the engine must satisfy: the laws of the device that the spec names, and the model's
own canonical form. The first law (R1) needs no predicate: `Holding` gives a channel at most one owner, and a FREE one
none. The sixth law (R167) speaks of runs, and the tenth (R132) of what a latch does; they are claims about commands. -/

namespace Sys2Proof.Safety

open Machine

/-- Every table of the state is in canonical form (the model's own). -/
def canonical (s : State) : Prop :=
  s.arbiter.channels.wf Channel.dark = true ∧ s.store.scenes.wf Scene.none = true ∧
  s.engine.slots.wf FadeSlot.atReset = true ∧ s.controller.playbacks.wf Playback.atReset = true ∧
  s.bands.records.wf Band.undefined = true ∧ s.ports.records.wf Port.atReset = true ∧
  s.supply.feeds.wf Feed.atReset = true ∧ s.host.submission.wf SubmissionQueue.inactive = true ∧
  s.host.completion.wf CompletionQueue.inactive = true

/-- The blocks that the scenes hold (R21). -/
def heldBlocks (t : SceneStore) : Nat := (t.scenes.cells.map (fun c => c.2.blocks)).sum

/-- How many channels are FADING under slot `k`. -/
def drivenBy (s : State) (k : Nat) : Nat :=
  (s.arbiter.channels.cells.filter (fun x => decide (x.2.holding.slot = some k))).length

/-- Whether a slot is an IN_USE CUE slot whose cue belongs to scene `i`. -/
def servesScene (i : Nat) : FadeSlot → Bool
  | .free _ => false
  | .inUse r =>
    match r.kind with
    | .cue _ j => decide (j = i)
    | .release => false

/-- The second law (R36): a slot is IN_USE exactly while some channel names it. -/
def secondLaw (s : State) : Prop :=
  ∀ k, (∃ r, s.engine.slot k = .inUse r) ↔ ∃ c, (s.arbiter.channel c).holding.slot = some k

/-- The third law (R23): a scene's use count is the number of IN_USE CUE slots whose cue belongs to it, and only a READY
scene has one that is not 0. -/
def thirdLaw (s : State) : Prop :=
  ∀ i, (s.store.scene i).useCount = (s.engine.slots.cells.filter (fun x => servesScene i x.2)).length ∧
    ((s.store.scene i).useCount ≠ 0 → (s.store.scene i).state = .ready)

/-- The channel count of an IN_USE slot is the number of channels FADING under it, 1 or more (R35, R36). -/
def slotCounts (s : State) : Prop :=
  ∀ k r, s.engine.slot k = .inUse r → r.count = drivenBy s k ∧ 1 ≤ r.count

/-- The scenes (R19, R20, R25, R26): the entries of a scene name channels 0 to 4095, each at most once; the chain has the
blocks that the entry count needs; an EMPTY scene holds nothing, and a READY one all its entries. -/
def sceneContents (s : State) : Prop :=
  ∀ i, ((s.store.scene i).entries.map Prod.fst).Nodup ∧ (∀ e ∈ (s.store.scene i).entries, e.1 ≤ 4095) ∧
    (s.store.scene i).blocks = ((s.store.scene i).entryCount + 15) / 16 ∧
    ((s.store.scene i).state = .empty → s.store.scene i = Scene.none) ∧
    ((s.store.scene i).state = .ready → (s.store.scene i).entries.length = (s.store.scene i).entryCount)

/-- The load queue (R24, R25): at most four loads, the head alone FETCHING, for different scenes and bands, none with all
its items received; a scene or a band is LOADING exactly while a load for it is queued, and holds what that load has
received. The loads' numbers rise and have all been given out (log entry 31). -/
def loadQueueLaw (s : State) : Prop :=
  s.store.loads.length ≤ 4 ∧ (s.store.loads.map Load.target).Nodup ∧
  (∀ (j : Nat) (l : Load), s.store.loads[j]? = some l → (l.fetching = true ↔ j = 0) ∧ l.received < l.itemCount) ∧
  (∀ i, (s.store.scene i).state = .loading ↔ ∃ l ∈ s.store.loads, l.target = .scene i) ∧
  (∀ n, (∃ d, s.bands.band n = .loading d) ↔ ∃ l ∈ s.store.loads, l.target = .band n) ∧
  (∀ l ∈ s.store.loads,
    (∀ i, l.target = .scene i →
      (s.store.scene i).entryCount = l.itemCount ∧ (s.store.scene i).entries.length = l.received) ∧
    ∀ n d, l.target = .band n → s.bands.band n = .loading d → d.pattern.length = l.received) ∧
  s.store.loads.Pairwise (fun a b => a.id < b.id) ∧ ∀ l ∈ s.store.loads, l.id < s.store.nextLoad

/-- The second and the third law with what keeps them. -/
def showLaws (s : State) : Prop :=
  secondLaw s ∧ thirdLaw s ∧ slotCounts s ∧ sceneContents s ∧ loadQueueLaw s

/-- The fourth law (R21): the free-block count plus the blocks held by scenes is 2,048. -/
def fourthLaw (s : State) : Prop := s.store.freeBlocks + heldBlocks s.store = 2048

/-- The fifth law (R55): at most 16 cues pending and 4 in flight. -/
def fifthLaw (s : State) : Prop :=
  ∀ p, (s.controller.playback p).pending.length ≤ 16 ∧ (s.controller.playback p).inFlight.length ≤ 4

/-- The seventh law (R163): the records posted and not yet released plus the reservations never exceed the size minus
one. -/
def seventhLaw (s : State) : Prop :=
  ∀ m, (s.host.cq m).posted + (s.host.cq m).reserved ≤ (s.host.cq m).size - 1

/-- The eighth law (R119): at most 128 held requests, each with a group from 1 to 15. That each is of a groupable kind
is the type `GroupRequest`. -/
def eighthLaw (s : State) : Prop :=
  s.groups.hold.length ≤ 128 ∧ ∀ h ∈ s.groups.hold, 1 ≤ h.group ∧ h.group ≤ 15

/-- The ninth law (R107): no two park ranges share a channel; with the list's order and capacity. -/
def ninthLaw (s : State) : Prop :=
  s.clock.parks.length ≤ 32 ∧
  s.clock.parks.Pairwise (fun a b => a.first ≤ b.first ∧ ∀ c, ¬(a.covers c = true ∧ b.covers c = true))

/-- The eleventh law (R146): while RISING at slot k no feed of a slot above k is RAMPING, and while FALLING at slot k
every feed of a slot above k is OFF or FAULT. -/
def eleventhLaw (s : State) : Prop :=
  (s.supply.state = .rising →
    ∀ n < 6, s.supply.currentSlot < (s.supply.feed n).slot → (s.supply.feed n).state ≠ .ramping) ∧
  (s.supply.state = .falling →
    ∀ n < 6, s.supply.currentSlot < (s.supply.feed n).slot →
      (s.supply.feed n).state = .off ∨ (s.supply.feed n).state = .fault)

/-- Whether a feed is OFF or in FAULT, so that its enable line is deasserted. -/
def resting (f : Feed) : Prop := f.state = .off ∨ f.state = .fault

/-- The eleventh law with what keeps it (R141, R142, R146 to R149): slots are 0 to 8, and the rise set holds feed
numbers; a feed is RAMPING only in the rise set at the slot that the rise has reached, or below the slot that the fall
has reached; in DOWN, in slot 0, and from the slot that the fall has reached upward, feeds rest; and a TOGETHER fall is
at slot 0. -/
def sequencerLaw (s : State) : Prop :=
  eleventhLaw s ∧
  (∀ n < 6, (s.supply.feed n).slot ≤ 8) ∧
  (∀ n < 6, (s.supply.feed n).state = .ramping →
    (s.supply.state = .rising ∧ n ∈ s.supply.riseSet ∧ (s.supply.feed n).slot = s.supply.currentSlot) ∨
    (s.supply.state = .falling ∧ (s.supply.feed n).slot < s.supply.currentSlot)) ∧
  (s.supply.state = .falling → ∀ n < 6, s.supply.currentSlot ≤ (s.supply.feed n).slot → resting (s.supply.feed n)) ∧
  (s.supply.state = .down → ∀ n < 6, resting (s.supply.feed n)) ∧
  (∀ n < 6, (s.supply.feed n).slot = 0 → resting (s.supply.feed n)) ∧
  (s.supply.state = .falling → s.supply.mode = .together → s.supply.currentSlot = 0) ∧
  ∀ n ∈ s.supply.riseSet, n < 6

/-- The twelfth law (R169): the event list never holds two entries of the same kind for the same object. -/
def twelfthLaw (s : State) : Prop :=
  s.host.events.Pairwise (fun a b => ¬(a.kind = b.kind ∧ a.object = b.object))

/-- The frame periods in force, accepted and staged are legal ones (R100, R111). -/
def legalPeriods (s : State) : Prop :=
  (25 ≤ s.clock.period ∧ s.clock.period ≤ 400) ∧ (25 ≤ s.clock.acceptedPeriod ∧ s.clock.acceptedPeriod ≤ 400) ∧
  ∀ e ∈ s.clock.staged, ∀ p, e.request = .setPeriod p → 25 ≤ p ∧ p ≤ 400

/-- The interface is quiet outside RUNNING (R159, R174): nothing is being fetched or written, no queue is active, no
request is held, no load is queued and no snapshot is held; and ENABLE is set exactly when it is not OFF. -/
def quietOutsideRunning (s : State) : Prop :=
  (s.host.state ≠ .running →
    s.host.fetch = none ∧ s.host.writes = [] ∧ s.groups.hold = [] ∧ s.store.loads = [] ∧ s.clock.reads = [] ∧
      (∀ n, s.host.sq n = SubmissionQueue.inactive) ∧ ∀ m, s.host.cq m = CompletionQueue.inactive) ∧
  (s.host.enable = true ↔ s.host.state ≠ .off)

/-- What IFSTATE, SQ_TAILn and CQ_HEADn hold fits the bits they have in the register map (R178, R179, 11.7): a halt names
a queue 0 to 3, and tails and heads are values of 16 bits. -/
def registersFit (s : State) : Prop :=
  s.host.haltQueue < 4 ∧ (∀ n, (s.host.sq n).tail < 65536) ∧ ∀ m, (s.host.cq m).head < 65536

end Sys2Proof.Safety
end

