-- ==== Sys2Proof/WellFormed.lean ====
section
/-! DEFINITION. Which commands can occur: the checks on the operands that the types do not make. `exec` gives every
command a meaning, well formed or not. -/

namespace Sys2Proof

open Machine

/-- A record has 56 bytes after its common header (11.1). -/
def RecordBody.wf (b : RecordBody) : Bool := decide (b.params.length = 56)

/-- The request kind of each constructor that stands for one. -/
def Instr.kind : Instr → Option Kind
  | .nop _ => some .nop
  | .restartQueue _ => some .restartQueue
  | .loadScene _ => some .loadScene
  | .deleteScene _ => some .deleteScene
  | .queryScene _ => some .queryScene
  | .configPlayback _ => some .configPlayback
  | .queryPlayback _ => some .queryPlayback
  | .runCue _ => some .runCue
  | .go _ => some .go
  | .pause _ => some .pause
  | .resume _ => some .resume
  | .clear _ => some .clear
  | .release _ => some .release
  | .loadBand _ => some .loadBand
  | .startBand _ => some .startBand
  | .stopBand _ => some .stopBand
  | .setRoll _ => some .setRoll
  | .park _ => some .park
  | .unpark _ => some .unpark
  | .setMaster _ => some .setMaster
  | .setFramePeriod _ => some .setFramePeriod
  | .readLevels _ => some .readLevels
  | .showReset _ => some .showReset
  | .commit _ => some .commit
  | .abortGroup _ => some .abortGroup
  | .configPort _ => some .configPort
  | .configFeed _ => some .configFeed
  | .configSupply _ => some .configSupply
  | .powerUp _ => some .powerUp
  | .powerDown _ => some .powerDown
  | .clearFault _ => some .clearFault
  | .queryFeeds _ => some .queryFeeds
  | .coldReset | .linkReset | .controlEnableSet | .controlEnableClear | .queueTableRead _ | .qtableWrite _ _ => none
  | .sqTailWrite _ _ | .cqHeadWrite _ _ | .intCauseWrite _ | .registerWrite _ _ _ | .intakeGrant => none
  | .fetchReadError | .staleFetchReturn | .fencedRecordTaken _ | .unknownKindRecord _ _ => none
  | .frameStart _ | .latch _ | .readLevelsWriteDone _ | .readLevelsWriteError _ | .echoRecord _ _ _ => none
  | .echoWindowClose _ | .loadItemReceived _ | .loadHostReadError | .feedGoodAsserted _ => none
  | .feedGoodDeasserted _ | .goodTimeout _ | .riseIntervalEnd | .fallIntervalEnd | .eventPost => none
  | .recordWriteAccepted _ | .cqWriteError _ | .transmissionEnd _ | .fencedRecordFetched _ => none

/-- The record that a command brings from a submission queue, if it brings one. -/
def Instr.record : Instr → Option RequestRecord
  | .nop b => some ⟨Kind.nop.code, b⟩
  | .restartQueue b => some ⟨Kind.restartQueue.code, b⟩
  | .loadScene b => some ⟨Kind.loadScene.code, b⟩
  | .deleteScene b => some ⟨Kind.deleteScene.code, b⟩
  | .queryScene b => some ⟨Kind.queryScene.code, b⟩
  | .configPlayback b => some ⟨Kind.configPlayback.code, b⟩
  | .queryPlayback b => some ⟨Kind.queryPlayback.code, b⟩
  | .runCue b => some ⟨Kind.runCue.code, b⟩
  | .go b => some ⟨Kind.go.code, b⟩
  | .pause b => some ⟨Kind.pause.code, b⟩
  | .resume b => some ⟨Kind.resume.code, b⟩
  | .clear b => some ⟨Kind.clear.code, b⟩
  | .release b => some ⟨Kind.release.code, b⟩
  | .loadBand b => some ⟨Kind.loadBand.code, b⟩
  | .startBand b => some ⟨Kind.startBand.code, b⟩
  | .stopBand b => some ⟨Kind.stopBand.code, b⟩
  | .setRoll b => some ⟨Kind.setRoll.code, b⟩
  | .park b => some ⟨Kind.park.code, b⟩
  | .unpark b => some ⟨Kind.unpark.code, b⟩
  | .setMaster b => some ⟨Kind.setMaster.code, b⟩
  | .setFramePeriod b => some ⟨Kind.setFramePeriod.code, b⟩
  | .readLevels b => some ⟨Kind.readLevels.code, b⟩
  | .showReset b => some ⟨Kind.showReset.code, b⟩
  | .commit b => some ⟨Kind.commit.code, b⟩
  | .abortGroup b => some ⟨Kind.abortGroup.code, b⟩
  | .configPort b => some ⟨Kind.configPort.code, b⟩
  | .configFeed b => some ⟨Kind.configFeed.code, b⟩
  | .configSupply b => some ⟨Kind.configSupply.code, b⟩
  | .powerUp b => some ⟨Kind.powerUp.code, b⟩
  | .powerDown b => some ⟨Kind.powerDown.code, b⟩
  | .clearFault b => some ⟨Kind.clearFault.code, b⟩
  | .queryFeeds b => some ⟨Kind.queryFeeds.code, b⟩
  | .unknownKindRecord kind b => some ⟨kind, b⟩
  | .fencedRecordFetched r => some r
  | .coldReset | .linkReset | .controlEnableSet | .controlEnableClear | .queueTableRead _ | .qtableWrite _ _ => none
  | .sqTailWrite _ _ | .cqHeadWrite _ _ | .intCauseWrite _ | .registerWrite _ _ _ | .intakeGrant => none
  | .fetchReadError | .staleFetchReturn | .fencedRecordTaken _ => none
  | .frameStart _ | .latch _ | .readLevelsWriteDone _ | .readLevelsWriteError _ | .echoRecord _ _ _ => none
  | .echoWindowClose _ | .loadItemReceived _ | .loadHostReadError | .feedGoodAsserted _ => none
  | .feedGoodDeasserted _ | .goodTimeout _ | .riseIntervalEnd | .fallIntervalEnd | .eventPost => none
  | .recordWriteAccepted _ | .cqWriteError _ | .transmissionEnd _ => none

/-- A register with a command of its own: CONTROL, the queue-table address, the tails, the heads and INT_CAUSE. -/
def ownCommandRegister (offset : Nat) : Bool :=
  decide (offset = 0x04 ∨ (0x0C ≤ offset ∧ offset ≤ 0x34 ∧ offset % 4 = 0))

/-- A load item is 4, 6 or 8 bytes (11.5). -/
def LoadItem.wf (item : LoadItem) : Bool :=
  decide (item.bytes.length = 4 ∨ item.bytes.length = 6 ∨ item.bytes.length = 8)

/-- An answer with an item brings such an item. -/
def LoadAnswer.wf : LoadAnswer → Bool
  | .item x => x.wf
  | .error => true

/-- A record that comes inside a frame start is 64 bytes and carries a group. -/
def IntakeArrival.wf : IntakeArrival → Bool
  | .grant => true
  | .record r => r.body.wf && carriesGroup r.body
  | .fenced _ => true

/-- Whether a command can occur as it stands:
- a record is 64 bytes, its kind byte agrees with its command, and the fenced one has FENCE set;
- the queue table is 144 bytes (11.4), and a load item is 4, 6 or 8 (11.5), inside a frame start too;
- a record that comes inside a frame start carries a group;
- REGISTER_WRITE is not a whole-word write of a register that has a command of its own. -/
def Instr.wf (i : Instr) : Bool :=
  match i with
  | .queueTableRead (some bytes) => decide (bytes.length = 144)
  | .registerWrite offset width _ => decide (width ≤ 4) && !(decide (width = 4) && ownCommandRegister offset)
  | .unknownKindRecord kind b => (Kind.ofCode kind).isNone && b.wf
  | .fencedRecordFetched r => fenceFlag r.body && r.body.wf
  | .loadItemReceived item => item.wf
  | .frameStart course => course.answers.all LoadAnswer.wf && course.intake.all IntakeArrival.wf
  | i =>
    match i.record with
    | some r => r.body.wf
    | none => true

end Sys2Proof
end

