-- ==== Sys2Proof/Certificates/Slice0/Obligations.lean ====
section
/-! DEFINITION. The statements for the provers, in the order of OBLIGATIONS.json. `Sys2Proof.Claims` holds the words
they share. -/

namespace Sys2Proof.Claims

open Machine Safety

/-! ## Records -/

/-- The record that has just been fetched from submission queue `q` is to be taken at once (R164, R166): the fetch is
not to be discarded, and a record with FENCE set finds nothing outstanding. -/
def takes (s : State) (q : Nat) (b : RecordBody) : Prop :=
  s.host.fetch = some { sq := q, stale := false } ∧ (fenceFlag b = true → (s.host.sq q).outstanding = 0)

/-- The state after the three steps that take a record of queue `q` (R164): head has advanced by one, outstanding has
risen by one, and the fetch is over. -/
def taken (s : State) (q : Nat) : State :=
  { s with
    host := { s.host with
      fetch := none
      submission := s.host.submission.set SubmissionQueue.inactive q
        { s.host.sq q with
          head := ringNext (s.host.sq q).head (s.host.sq q).size
          outstanding := (s.host.sq q).outstanding + 1
          fence := none } } }

/-- What is noted with a request for its completion: the tag, the queue and the new head (R164). -/
def noted (s : State) (q : Nat) (b : RecordBody) : Ctx :=
  { tag := b.tag, sq := q, head := ringNext (s.host.sq q).head (s.host.sq q).size }

/-- The record of kind `k` passes the format checks (R165). -/
def passes (s : State) (k : Kind) (b : RecordBody) : Prop :=
  formatCheck s.componentsAt { kind := k.code, body := b } = .passed (requestOf k b)

/-- A completion that is still to be handed over. -/
def owes (c : Ctx) : Owed := { ctx := c, dropped := false }

/-- The eleven groupable kinds (R120): the command, the kind, and the request that the record's fields spell (11.1). -/
def groupables (b : RecordBody) : List (Instr × Kind × GroupRequest) :=
  [(.go b, .go, .playback (.go (field b 8 1))),
   (.pause b, .pause, .playback (.pause (field b 8 1))),
   (.resume b, .resume, .playback (.resume (field b 8 1))),
   (.clear b, .clear, .playback (.clear (field b 8 1))),
   (.release b, .release,
     .playback (.release (field b 8 1) (if field b 9 1 = 1 then some (field b 10 2) else none))),
   (.startBand b, .startBand, .band (.start (field b 8 1) (field b 9 1))),
   (.stopBand b, .stopBand, .band (.stop (field b 8 1))),
   (.setRoll b, .setRoll,
     .band (.setRoll (field b 8 1) (field16s b 10) (field b 12 2)
       (if field b 9 1 = 1 then some (field b 14 2) else none))),
   (.park b, .park, .compose (.park (field b 8 2) (field b 10 2) (BitVec.ofNat 16 (field b 12 2)))),
   (.unpark b, .unpark, .compose (.unpark (field b 8 2) (field b 10 2))),
   (.setMaster b, .setMaster, .compose (.setMaster (BitVec.ofNat 16 (field b 8 2))))]

/-- A request joins the tail of its owner's staged list, stamped with the next frame, its completion owed (R102,
R103). -/
def staged (s : State) (c : Ctx) : GroupRequest → State
  | .playback r =>
    { s with controller := { s.controller with
        staged := s.controller.staged ++ [{ frame := s.clock.frame + 1, owed := owes c, request := r }] } }
  | .band r =>
    { s with bands := { s.bands with
        staged := s.bands.staged ++ [{ frame := s.clock.frame + 1, owed := owes c, request := r }] } }
  | .compose r =>
    { s with clock := { s.clock with
        staged := s.clock.staged ++ [{ frame := s.clock.frame + 1, owed := owes c, request := .compose r }] } }

end Sys2Proof.Claims

open Sys2Proof Sys2Proof.Machine Sys2Proof.Safety Sys2Proof.Claims

/-! ## The machine as a whole -/

/-- One step takes the command at the front of the queue, whole, with the queue's rest. On an empty queue the engine
idles: that clause is the model's choice (log entry 6). -/
def Obligations.StepTakesTheFrontCommand : Prop :=
  (∀ (c : Instr) (rest : List Instr) (s : State), step (s.withPending (c :: rest)) = exec c (s.withPending rest)) ∧
  ∀ s : State, s.pending = [] → step s = .next s

/-- Every command has an effect in every state: none ends in a fault or a refusal, and none touches the queue of
waiting commands. -/
def Obligations.EveryCommandAnswersANextState : Prop :=
  ∀ (c : Instr) (s : State), ∃ t, exec c s = .next t ∧ t.pending = s.pending

/-! ## Resets -/

/-- COLD_RESET, from any state: every channel FREE at level 0 with last level 0 (R18); every scene EMPTY, 2,048 blocks
free, no load (R34); every slot FREE, available from 0 (R51); the playbacks and the staged lists of R53; every band
UNDEFINED (R99); frame 0, period 250 and the rest of R118; both lists of R129 empty; every port DISABLED with the
values of R130; every feed and the sequencer at the values of R141 and R146 (R158); the interface OFF, the halt code
NONE, the intake pause clear, every register 0 (R174, R171). These clauses are the model's, by log entry: a feed's
good input is kept (7), the next sequence number and the event CQ (8), the count of messages is kept (9), no load-end
notice, no fetch and no record write is left (12), the count of loads is kept (31), and the waiting commands are kept
(6). -/
def Obligations.ColdResetReturnsEveryBlock : Prop :=
  ∀ s : State, canonical s → ∃ t, exec .coldReset s = .next t ∧
    (∀ c, t.arbiter.channel c = { holding := .free 0, last := 0 }) ∧
    (∀ i, t.store.scene i = { state := .empty, entryCount := 0, blocks := 0, useCount := 0, entries := [] }) ∧
    t.store.freeBlocks = 2048 ∧ t.store.loads = [] ∧ t.store.notices = [] ∧ t.store.nextLoad = s.store.nextLoad ∧
    (∀ k, t.engine.slot k = .free 0) ∧
    (∀ p, t.controller.playback p =
      { priority := 0, defaultRelease := 0, pending := [], inFlight := [], paused := none, releaseSlot := none,
        releaseRecord := none, lastTrigger := .absent }) ∧
    t.controller.staged = [] ∧
    (∀ b, t.bands.band b = .undefined) ∧ t.bands.staged = [] ∧
    t.clock =
      { frame := 0, period := 250, acceptedPeriod := 250, master := 65535, parks := [], safe := false, staged := [],
        reads := [] } ∧
    t.groups.hold = [] ∧ t.groups.commits = [] ∧
    (∀ k, t.ports.port k =
      { applied := PortConfig.atReset, accepted := PortConfig.atReset, state := .disabled, missCount := 0,
        goodCount := 0, lostAt := none, line := .idle }) ∧
    t.ports.staged = [] ∧
    (∀ n, t.supply.feed n =
      { state := .off, slot := 0, timeoutMs := 1000, deadline := none, cause := none,
        good := (s.supply.feed n).good }) ∧
    t.supply =
      { feeds := t.supply.feeds, state := .down, currentSlot := 0, riseSet := [], interval := none,
        slotIntervalMs := 100, mode := .sequential, policy := .isolate, rise := none, fall := none } ∧
    t.host =
      { state := .off, haltCode := .none, haltQueue := 0, enable := false, qtableLo := 0, qtableHi := 0, intCause := 0,
        intMask := 0, submission := Table.empty, completion := Table.empty, eventQueue := 0, lastGranted := 3,
        fetch := none, intakePause := false, events := [], writes := [], messages := s.host.messages } ∧
    t.pending = s.pending

/-- The state after cold reset satisfies every law of the device that is a property of a state, the second (R36) and
the third (R23) among them, with what keeps each of them; and what the registers read fits their bits (R179). -/
def Obligations.LawsHoldAfterReset : Prop :=
  canonical State.reset ∧ fourthLaw State.reset ∧ fifthLaw State.reset ∧ seventhLaw State.reset ∧
  eighthLaw State.reset ∧ ninthLaw State.reset ∧ sequencerLaw State.reset ∧ twelfthLaw State.reset ∧
  legalPeriods State.reset ∧ quietOutsideRunning State.reset ∧ registersFit State.reset ∧ showLaws State.reset

namespace Sys2Proof.Claims

open Machine Safety

/-- The scenes that the loads in the queue were filling, in queue order. -/
def loadingScenes (s : State) : List Nat :=
  s.store.loads.filterMap (fun l => match l.target with
    | .scene i => some i
    | .band _ => none)

/-- The bands that the loads in the queue were filling. -/
def loadingBands (s : State) : List Nat :=
  s.store.loads.filterMap (fun l => match l.target with
    | .scene _ => none
    | .band b => some b)

/-- What a host interface reset does to the blocks other than the Host Queue Unit: loads and READ_LEVELS are abandoned,
the hold list is emptied, and every completion owed is marked dropped; everything else goes on (R33, R83, R99, R118,
R129, R140, R157). -/
def blocksReset (s t : State) : Prop :=
  t.arbiter = s.arbiter ∧ t.engine = s.engine ∧ t.pending = s.pending ∧
  t.store.loads = [] ∧ t.store.nextLoad = s.store.nextLoad ∧
  (∀ i, t.store.scene i = if i ∈ loadingScenes s then Scene.none else s.store.scene i) ∧
  t.store.freeBlocks + heldBlocks t.store = s.store.freeBlocks + heldBlocks s.store ∧
  t.store.notices = s.store.notices ++
    (loadingScenes s).map (fun i => { scene := i, state := .empty, frame := s.clock.frame + 1 }) ∧
  (∀ b, t.bands.band b = if b ∈ loadingBands s then .undefined else s.bands.band b) ∧
  t.bands.staged = s.bands.staged.map Staged.drop ∧
  (∀ p, t.controller.playback p =
    { s.controller.playback p with
      pending := (s.controller.playback p).pending.map (fun c => { c with report := false })
      inFlight := (s.controller.playback p).inFlight.map (fun c => { c with report := false })
      releaseRecord := (s.controller.playback p).releaseRecord.map
        (fun r => { r with owed := { r.owed with dropped := true } }) }) ∧
  t.controller.staged = s.controller.staged.map Staged.drop ∧ t.controller.nextCue = s.controller.nextCue ∧
  t.clock = { s.clock with staged := s.clock.staged.map Staged.drop, reads := [] } ∧
  t.groups = { hold := [], commits := s.groups.commits.map Staged.drop } ∧
  t.ports = { s.ports with staged := s.ports.staged.map Staged.drop } ∧
  t.supply = { s.supply with rise := s.supply.rise.map Owed.drop, fall := s.supply.fall.map Owed.drop }

/-- What it does to the Host Queue Unit, but for the interface state, ENABLE, INT_CAUSE and the halt code (R174). -/
def unitReset (u v : HostUnit) : Prop :=
  (∀ n, v.sq n = SubmissionQueue.inactive) ∧ (∀ m, v.cq m = CompletionQueue.inactive) ∧
  v.events = [] ∧ v.lastGranted = 3 ∧ v.fetch = none ∧ v.writes = [] ∧
  v.qtableLo = u.qtableLo ∧ v.qtableHi = u.qtableHi ∧ v.intMask = u.intMask ∧ v.intakePause = u.intakePause

/-- Entry into HALTED (R161): the effects of a host interface reset, the halt code and the queue it names, and
INT_CAUSE with HALTED alone set. -/
def halts (s t : State) (code : HaltCode) (queue : Nat) : Prop :=
  blocksReset s t ∧ unitReset s.host t.host ∧ t.host.state = .halted ∧ t.host.enable = s.host.enable ∧
  t.host.haltCode = code ∧ t.host.haltQueue = queue ∧ t.host.intCause = 0b010000#6

end Sys2Proof.Claims

/-- CONTROL.ENABLE and the link (R159, R174). ENABLE written 1 moves OFF to STARTING and nothing else, and changes
nothing in another state. LINK_RESET, and ENABLE written 0 outside OFF, are a host interface reset: the interface is
OFF with ENABLE 0 and INT_CAUSE 0, the halt code is kept, and every block acts by its own rule. ENABLE written 0 in
OFF changes nothing. That LINK_RESET does all this in OFF too, where it empties the event list and INT_CAUSE, is read
from R174 by inference (log entry 18, unsafe). Two clauses are the model's choices: the load-end notices of the abandoned
loads are sent in queue order, which R33 does not give (log entry 44, unsafe), and an inactive completion queue holds 1 as
its next sequence number (log entry 8, unsafe). -/
def Obligations.EnableAndLinkResetMoveTheInterface : Prop :=
  ∀ s : State, canonical s →
    (s.host.state = .off →
      exec .controlEnableSet s = .next { s with host := { s.host with state := .starting, enable := true } } ∧
      exec .controlEnableClear s = .next s) ∧
    (s.host.state ≠ .off → exec .controlEnableSet s = .next s) ∧
    ∃ t, exec .linkReset s = .next t ∧ (s.host.state ≠ .off → exec .controlEnableClear s = .next t) ∧
      blocksReset s t ∧ unitReset s.host t.host ∧ t.host.state = .off ∧ t.host.enable = false ∧
      t.host.intCause = 0 ∧ t.host.haltCode = s.host.haltCode ∧ t.host.haltQueue = s.host.haltQueue

/-! ## The queue table -/

namespace Sys2Proof.Claims

open Machine Safety

/-- Completion queue index `m` of the table names an active queue (R178). -/
def activeCq (bytes : List Byte) (m : Nat) : Prop := m ≤ 3 ∧ (tableCq bytes m).active = true

/-- A check of the queue table fails for queue number `n` (R160, checks 2 to 5; R178). -/
def checkFails (bytes : List Byte) (code : HaltCode) (n : Nat) : Prop :=
  match code with
  | .misaligned =>
    ((tableSq bytes n).active = true ∧ (tableSq bytes n).base % 64 ≠ 0) ∨
      ((tableCq bytes n).active = true ∧ (tableCq bytes n).base % 16 ≠ 0)
  | .badSize =>
    ((tableSq bytes n).active = true ∧
      ((tableSq bytes n).size < 2 ∨ 1024 < (tableSq bytes n).size ∨
        2 ^ 64 < (tableSq bytes n).base + 64 * (tableSq bytes n).size)) ∨
      ((tableCq bytes n).active = true ∧
        ((tableCq bytes n).size < 4 ∨ 1024 < (tableCq bytes n).size ∨
          2 ^ 64 < (tableCq bytes n).base + 16 * (tableCq bytes n).size))
  | .sqUnbound => (tableSq bytes n).active = true ∧ ¬activeCq bytes (tableSq bytes n).bound
  | .eventCq => n = 0 ∧ ¬activeCq bytes (tableEventCq bytes)
  | .none | .tableRead | .cqWrite => False

/-- The checks that come before the one with this code, the table's address apart (R160). -/
def earlierChecks : HaltCode → List HaltCode
  | .badSize => [.misaligned]
  | .sqUnbound => [.misaligned, .badSize]
  | .eventCq => [.misaligned, .badSize, .sqUnbound]
  | .none | .tableRead | .misaligned | .cqWrite => []

/-- The table at this address fails first by this check, and for this lowest-numbered queue (R160, R178). -/
def tableHalts (address : Nat) (bytes : List Byte) (code : HaltCode) (n : Nat) : Prop :=
  (address % 64 ≠ 0 ∧ code = .misaligned ∧ n = 0) ∨
  (address % 64 = 0 ∧ n < 4 ∧ checkFails bytes code n ∧ (∀ j < n, ¬checkFails bytes code j) ∧
    ∀ c ∈ earlierChecks code, ∀ j < 4, ¬checkFails bytes c j)

/-- Every check of the table passes (R160). -/
def tablePasses (address : Nat) (bytes : List Byte) : Prop :=
  address % 64 = 0 ∧
  ∀ c ∈ [HaltCode.misaligned, .badSize, .sqUnbound, .eventCq], ∀ j < 4, ¬checkFails bytes c j

/-- The table address (R160). -/
def tableAddress (s : State) : Nat := s.host.qtableLo.toNat + 2 ^ 32 * s.host.qtableHi.toNat

end Sys2Proof.Claims

/-- QUEUE_TABLE_READ with a table that passes every check: the interface is RUNNING with its copy of the table. Each
active submission queue is ACTIVE with head 0 and tail 0, each inactive one INACTIVE; each active completion queue has
its counts at 0 and next sequence 1; nothing else changes (R160). -/
def Obligations.QueueTableAccepted : Prop :=
  ∀ (s : State) (bytes : List Byte), s.host.state = .starting → tablePasses (tableAddress s) bytes →
    ∃ u : HostUnit, exec (.queueTableRead (some bytes)) s = .next { s with host := u } ∧
      u =
        { s.host with
          state := .running
          submission := u.submission
          completion := u.completion
          eventQueue := tableEventCq bytes } ∧
      (∀ n < 4, u.sq n =
        if (tableSq bytes n).active then
          { state := .active, base := BitVec.ofNat 64 (tableSq bytes n).base, size := (tableSq bytes n).size,
            boundCq := (tableSq bytes n).bound, head := 0, tail := 0, outstanding := 0, fence := none }
        else SubmissionQueue.inactive) ∧
      ∀ m < 4, u.cq m =
        if (tableCq bytes m).active then
          { active := true, base := BitVec.ofNat 64 (tableCq bytes m).base, size := (tableCq bytes m).size, tail := 0,
            head := 0, posted := 0, reserved := 0, nextSequence := 1 }
        else CompletionQueue.inactive

/-- What halts the interface. QUEUE_TABLE_READ answered with an error halts with TABLE_READ; a table that fails a
check halts with the code of the first check that fails and the lowest-numbered queue that fails it (R160, R178); a
table address that is not aligned is looked at before the queues' bases and gives MISALIGNED with index 0, whatever
the bases are (log entry 43, the model's choice). An
answer outside STARTING is discarded (R174). CQ_WRITE_ERROR while RUNNING halts with CQ_WRITE and the queue written
(R168); with no write to that queue awaiting its answer it changes nothing (log entry 3). Entry into HALTED has the
effects of a host interface reset (R161), two of which are the model's choices: the load-end notices of the abandoned loads
are sent in queue order, which R33 does not give (log entry 44, unsafe), and an inactive completion queue holds 1 as its
next sequence number (log entry 8, unsafe). -/
def Obligations.HaltsFollowFailedChecksAndWrites : Prop :=
  ∀ s : State, canonical s →
    (s.host.state = .starting →
      (∃ t, exec (.queueTableRead none) s = .next t ∧ halts s t .tableRead 0) ∧
      ∀ (bytes : List Byte) (code : HaltCode) (n : Nat), tableHalts (tableAddress s) bytes code n →
        ∃ t, exec (.queueTableRead (some bytes)) s = .next t ∧ halts s t code n) ∧
    (s.host.state ≠ .starting → ∀ answer, exec (.queueTableRead answer) s = .next s) ∧
    ∀ q : Fin 4,
      (s.host.state = .running ∧ (∃ w ∈ s.host.writes, w.queue = q.val) →
        ∃ t, exec (.cqWriteError q) s = .next t ∧ halts s t .cqWrite q.val) ∧
      (s.host.state ≠ .running ∨ (∀ w ∈ s.host.writes, w.queue ≠ q.val) → exec (.cqWriteError q) s = .next s)

/-! ## Register writes -/

namespace Sys2Proof.Claims

open Machine Safety

/-- INT_CAUSE and INT_MASK take these values. One message is sent when the interrupt condition begins to hold (R171);
the count of messages is the model's own (log entry 9). -/
def withInterrupts (u : HostUnit) (cause mask : BitVec 6) : HostUnit :=
  { u with
    intCause := cause
    intMask := mask
    messages := u.messages + (if u.intCause &&& u.intMask = 0 ∧ cause &&& mask ≠ 0 then 1 else 0) }

/-- An ignored register write sets INT_CAUSE.HOST_ERROR (R171). -/
def hostErrorSet (s : State) : State :=
  { s with host := withInterrupts s.host (s.host.intCause ||| 0b100000#6) s.host.intMask }

/-- An event raised: it joins the list's end unless an entry of its kind and object is waiting (R169). -/
def joined (l : List EventEntry) (e : EventEntry) : List EventEntry :=
  if ∃ x ∈ l, x.kind = e.kind ∧ x.object = e.object then l else l ++ [e]

/-- An event raised now (R169). -/
def eventNow (s : State) (kind : EventKind) (object detail : Nat) : EventEntry :=
  { kind := kind, object := object, frame := BitVec.ofNat 32 s.clock.frame, detail := BitVec.ofNat 32 detail }

/-- A fetch issued for queue `q` is to be discarded, and the set-aside entry of its fence wait, if it has one, is
returned (R162). -/
def recordsDropped (u v : HostUnit) (q : Nat) : Prop :=
  v.fetch = u.fetch.map (fun x => if x.sq = q then { x with stale := true } else x) ∧
  ∀ m, v.cq m =
    if (u.sq q).fence.isSome = true ∧ m = (u.sq q).boundCq then { u.cq m with reserved := (u.cq m).reserved - 1 }
    else u.cq m

/-- The fence wait of queue `q` may be taken (R166). -/
def fenceDue (s : State) (q : Nat) : Prop :=
  (∃ w, (s.host.sq q).fence = some w ∧ w.count = 0) ∧ s.host.state = .running ∧ s.host.fetch = none ∧
  s.host.intakePause = false

end Sys2Proof.Claims

/-- Writes to the table address, INT_CAUSE and INT_MASK (R171). QTABLE_WRITE is stored while the interface is OFF and
otherwise sets HOST_ERROR. Writing 1 to a bit of INT_CAUSE clears it, writing 0 leaves it. REGISTER_WRITE of INT_MASK
stores its six bits. Each changes nothing else; the count of messages is the model's own (log entry 9). -/
def Obligations.InterruptAndTableRegisterWrites : Prop :=
  ∀ (s : State) (v : Word32),
    (s.host.state = .off →
      exec (.qtableWrite false v) s = .next { s with host := { s.host with qtableLo := v } } ∧
      exec (.qtableWrite true v) s = .next { s with host := { s.host with qtableHi := v } }) ∧
    (s.host.state ≠ .off → ∀ high, exec (.qtableWrite high v) s = .next (hostErrorSet s)) ∧
    exec (.intCauseWrite v) s =
      .next { s with host := { s.host with intCause := s.host.intCause &&& ~~~(v.setWidth 6) } } ∧
    exec (.registerWrite 0x38 4 v) s =
      .next { s with host := withInterrupts s.host s.host.intCause (v.setWidth 6) }

/-- SQ_TAIL_WRITE, by the queue's state and the value in bits 15 to 0 (R162, R179): it records the tail, discards what
the new tail gives up when it equals head, faults an ACTIVE queue with BAD_TAIL, is ignored, or sets HOST_ERROR. A
fence wait of the queue that may be taken is taken and routed first, and the write then finds what that left (R175; that
the write itself takes it is log entry 34, the model's choice). A fence wait with count 0 that cannot be taken yet, because a
fetch of another queue is out or the intake pause is set, is discarded by a fault and by a tail equal to head: the model's
choice (log entry 46, unsafe), since R162 discards it and R175 takes its record before the fault. -/
def Obligations.TailWritesByQueueState : Prop :=
  ∀ (s : State) (q : Fin 4) (v : Word32),
    (s.host.state ≠ .running → exec (.sqTailWrite q v) s = .next s) ∧
    (fenceDue s q → ∃ t, exec (.fencedRecordTaken q) s = .next t ∧
      exec (.sqTailWrite q v) s = exec (.sqTailWrite q v) t ∧ ¬fenceDue t q) ∧
    (s.host.state = .running → ¬fenceDue s q →
      ((s.host.sq q).state = .inactive → exec (.sqTailWrite q v) s = .next (hostErrorSet s)) ∧
      ((s.host.sq q).state = .faulted ∧ (s.host.sq q).size ≤ v.toNat % 65536 →
        exec (.sqTailWrite q v) s = .next s) ∧
      (v.toNat % 65536 < (s.host.sq q).size →
        ((s.host.sq q).state = .faulted ∨
          ((s.host.sq q).state = .active ∧ v.toNat % 65536 ≠ (s.host.sq q).head)) →
        exec (.sqTailWrite q v) s =
          .next { s with
            host := { s.host with
              submission := s.host.submission.set SubmissionQueue.inactive q
                { s.host.sq q with tail := v.toNat % 65536 } } }) ∧
      ((s.host.sq q).state = .active ∧ v.toNat % 65536 < (s.host.sq q).size ∧
          v.toNat % 65536 = (s.host.sq q).head →
        ∃ u : HostUnit, exec (.sqTailWrite q v) s = .next { s with host := u } ∧
          u = { s.host with submission := u.submission, completion := u.completion, fetch := u.fetch } ∧
          (∀ j, u.sq j =
            if j = q.val then { s.host.sq q with tail := v.toNat % 65536, fence := none } else s.host.sq j) ∧
          recordsDropped s.host u q) ∧
      ((s.host.sq q).state = .active ∧ (s.host.sq q).size ≤ v.toNat % 65536 →
        ∃ u : HostUnit, exec (.sqTailWrite q v) s = .next { s with host := u } ∧
          u =
            { s.host with
              submission := u.submission
              completion := u.completion
              fetch := u.fetch
              events := joined s.host.events (eventNow s .queueFault q 2) } ∧
          (∀ j, u.sq j = if j = q.val then { s.host.sq q with state := .faulted, fence := none } else s.host.sq j) ∧
          recordsDropped s.host u q))

/-- CQ_HEAD_WRITE (R163, R179). A value in the posted region, `k` entries forward from the head, is accepted and
releases those entries; any other value, and a write to an inactive queue, sets HOST_ERROR; a write while the
interface is not RUNNING is ignored, whatever the queue. Of an active queue the head and the posted count are in the
ranges that R163 gives them. -/
def Obligations.HeadWritesReleaseEntries : Prop :=
  ∀ (s : State) (m : Fin 4) (v : Word32),
    (s.host.state ≠ .running → exec (.cqHeadWrite m v) s = .next s) ∧
    (s.host.state = .running → (s.host.cq m).active = false →
      exec (.cqHeadWrite m v) s = .next (hostErrorSet s)) ∧
    (s.host.state = .running → (s.host.cq m).active = true → (s.host.cq m).head < (s.host.cq m).size →
      (s.host.cq m).posted < (s.host.cq m).size →
      (∀ k ≤ (s.host.cq m).posted, v.toNat % 65536 = ((s.host.cq m).head + k) % (s.host.cq m).size →
        exec (.cqHeadWrite m v) s =
          .next { s with
            host := { s.host with
              completion := s.host.completion.set CompletionQueue.inactive m
                { s.host.cq m with head := v.toNat % 65536, posted := (s.host.cq m).posted - k } } }) ∧
      ((∀ k ≤ (s.host.cq m).posted, v.toNat % 65536 ≠ ((s.host.cq m).head + k) % (s.host.cq m).size) →
        exec (.cqHeadWrite m v) s = .next (hostErrorSet s)))

namespace Sys2Proof.Claims

open Machine

/-- The code of an interface state in IFSTATE (11.7). -/
def interfaceCode : InterfaceState → Nat
  | .off => 0
  | .starting => 1
  | .running => 2
  | .halted => 3

/-- The halt codes (R178). -/
def haltNumber : HaltCode → Nat
  | .none => 0
  | .tableRead => 1
  | .misaligned => 2
  | .badSize => 3
  | .sqUnbound => 4
  | .eventCq => 5
  | .cqWrite => 6

end Sys2Proof.Claims

/-- R179: an access that is not a whole word, or from 0x3C upward, reads 0 and changes nothing; unassigned bits read
0, and what is written to them is ignored; a tail or head write uses bits 15 to 0. The rest are parts of other rules and
of the register map (11.7): IDENT reads 0x24080001, and it and IFSTATE ignore writes (R171); CONTROL reads ENABLE (R159);
IFSTATE reads the state, the last halt code and its queue index (R159, R161, R178); QTABLE_LO and QTABLE_HI the two halves
of the table address (R160); a tail and a head register what R162 and R163 keep; INT_CAUSE and INT_MASK their six bits
(R171). The premises on the halt's queue, the tails and the heads are the law `registersFit`, which StepKeepsTheHostLaws
and LawsHoldAfterReset have. -/
def Obligations.RegisterAccessesAreWholeWords : Prop :=
  ∀ (s : State) (offset width : Nat) (v w : Word32),
    (width ≠ 4 ∨ offset % 4 ≠ 0 ∨ 0x3C ≤ offset →
      exec (.registerWrite offset width v) s = .next s ∧ readRegister s offset width = 0) ∧
    readRegister s 0x00 4 = 0x24080001 ∧
    (readRegister s 0x04 4).getLsbD 0 = s.host.enable ∧ (∀ i, 1 ≤ i → (readRegister s 0x04 4).getLsbD i = false) ∧
    ((readRegister s 0x08 4).extractLsb 1 0).toNat = interfaceCode s.host.state ∧
    ((readRegister s 0x08 4).extractLsb 11 8).toNat = haltNumber s.host.haltCode ∧
    (s.host.haltQueue < 4 →
      ((readRegister s 0x08 4).extractLsb 13 12).toNat = s.host.haltQueue ∧
      ∀ i, (2 ≤ i ∧ i < 8) ∨ 14 ≤ i → (readRegister s 0x08 4).getLsbD i = false) ∧
    readRegister s 0x0C 4 = s.host.qtableLo ∧ readRegister s 0x10 4 = s.host.qtableHi ∧
    (∀ n < 4, (s.host.sq n).tail < 65536 →
      ((readRegister s (0x14 + 4 * n) 4).extractLsb 15 0).toNat = (s.host.sq n).tail ∧
      ∀ i, 16 ≤ i → (readRegister s (0x14 + 4 * n) 4).getLsbD i = false) ∧
    (∀ n < 4, (s.host.cq n).head < 65536 →
      ((readRegister s (0x24 + 4 * n) 4).extractLsb 15 0).toNat = (s.host.cq n).head ∧
      ∀ i, 16 ≤ i → (readRegister s (0x24 + 4 * n) 4).getLsbD i = false) ∧
    (readRegister s 0x34 4).extractLsb 5 0 = s.host.intCause ∧ (readRegister s 0x38 4).extractLsb 5 0 = s.host.intMask ∧
    (∀ i, 6 ≤ i → (readRegister s 0x34 4).getLsbD i = false ∧ (readRegister s 0x38 4).getLsbD i = false) ∧
    (v.getLsbD 0 = w.getLsbD 0 → exec (.registerWrite 0x04 4 v) s = exec (.registerWrite 0x04 4 w) s) ∧
    (v.toNat % 65536 = w.toNat % 65536 → ∀ n : Fin 4,
      exec (.sqTailWrite n v) s = exec (.sqTailWrite n w) s ∧ exec (.cqHeadWrite n v) s = exec (.cqHeadWrite n w) s) ∧
    (v.setWidth 6 = w.setWidth 6 →
      exec (.intCauseWrite v) s = exec (.intCauseWrite w) s ∧
        exec (.registerWrite 0x38 4 v) s = exec (.registerWrite 0x38 4 w) s) ∧
    exec (.registerWrite 0x00 4 v) s = .next s ∧ exec (.registerWrite 0x08 4 v) s = .next s

/-! ## Intake -/

namespace Sys2Proof.Claims

open Machine Safety

/-- Queue `q` may be granted: the interface is RUNNING, the intake pause is clear, and the queue is ACTIVE and READY,
that is, records wait, no fence wait is present, and the bound completion queue has unreserved room (R162, R163,
R164). -/
def grantable (s : State) (q : Nat) : Prop :=
  s.host.state = .running ∧ s.host.intakePause = false ∧ (s.host.sq q).state = .active ∧
  (s.host.sq q).head ≠ (s.host.sq q).tail ∧ (s.host.sq q).fence = none ∧
  (s.host.cq (s.host.sq q).boundCq).posted + (s.host.cq (s.host.sq q).boundCq).reserved <
    (s.host.cq (s.host.sq q).boundCq).size - 1

end Sys2Proof.Claims

/-- INTAKE_GRANT (R164): with no record being handled, the grant goes to the first queue that may be granted, counting
upward, cyclically, from the one after the last granted; one entry of its completion queue is set aside and its record
is fetched. Where no queue may be granted, or a record is being handled, nothing changes. A fetch that brings no
record. FETCH_READ_ERROR: the set-aside entry is returned, head is not moved, the queue is FAULTED and QUEUE_FAULT is
raised with detail READ_ERROR (R164). STALE_FETCH_RETURN, and any answer to a fetch that is to be discarded: the
set-aside entry is returned and the record is not taken (R162; the error answer: log entry 19). While a fetch is out
its queue has no fence wait, since a FENCED queue is not granted (R166). A grant looks at no fence wait of another queue, also
where that wait could be taken (log entry 34, the model's choice). -/
def Obligations.GrantsAndFetches : Prop :=
  (∀ s : State,
     (s.host.fetch = none → ∀ d < 4, grantable s ((s.host.lastGranted + 1 + d) % 4) →
       (∀ e < d, ¬grantable s ((s.host.lastGranted + 1 + e) % 4)) →
       exec .intakeGrant s =
         .next { s with
           host := { s.host with
             completion := s.host.completion.set CompletionQueue.inactive
               (s.host.sq ((s.host.lastGranted + 1 + d) % 4)).boundCq
               { s.host.cq (s.host.sq ((s.host.lastGranted + 1 + d) % 4)).boundCq with
                 reserved := (s.host.cq (s.host.sq ((s.host.lastGranted + 1 + d) % 4)).boundCq).reserved + 1 }
             lastGranted := (s.host.lastGranted + 1 + d) % 4
             fetch := some { sq := (s.host.lastGranted + 1 + d) % 4, stale := false } } }) ∧
     (s.host.fetch ≠ none ∨ (∀ q < 4, ¬grantable s q) → exec .intakeGrant s = .next s)) ∧
  (∀ (s : State) (q : Nat),
     (s.host.fetch = some { sq := q, stale := false } → (s.host.sq q).fence = none →
       ∃ u : HostUnit, exec .fetchReadError s = .next { s with host := u } ∧
         u =
           { s.host with
             submission := u.submission
             completion := u.completion
             fetch := none
             events := joined s.host.events (eventNow s .queueFault q 1) } ∧
         (∀ j, u.sq j = if j = q then { s.host.sq q with state := .faulted } else s.host.sq j) ∧
         ∀ m, u.cq m =
           if m = (s.host.sq q).boundCq then { s.host.cq m with reserved := (s.host.cq m).reserved - 1 }
           else s.host.cq m) ∧
     (s.host.fetch = some { sq := q, stale := true } →
       ∀ c : Instr, c = .staleFetchReturn ∨ c = .fetchReadError ∨ c.record.isSome = true →
         exec c s =
           .next { s with
             host := { s.host with
               fetch := none
               completion := s.host.completion.set CompletionQueue.inactive (s.host.sq q).boundCq
                 { s.host.cq (s.host.sq q).boundCq with
                   reserved := (s.host.cq (s.host.sq q).boundCq).reserved - 1 } } }))

/-- Fences (R166). A record with FENCE set, of any kind or none, that finds completions of its queue outstanding
becomes the queue's fence wait, with the outstanding count as its count, and keeps its set-aside entry; head does not
move and no request is taken. FENCED_RECORD_TAKEN: a fence wait whose count is 0 is taken when the arbiter handles no
record and the intake pause is clear, and what follows is what follows the arrival of the same record with nothing
outstanding. Until then the queue stays FENCED and nothing changes. -/
def Obligations.FencesHoldAndReleaseRecords : Prop :=
  (∀ (i : Instr) (r : RequestRecord) (s : State) (q : Nat), i.record = some r →
     s.host.fetch = some { sq := q, stale := false } → fenceFlag r.body = true → 0 < (s.host.sq q).outstanding →
     exec i s =
       .next { s with
         host := { s.host with
           fetch := none
           submission := s.host.submission.set SubmissionQueue.inactive q
             { s.host.sq q with fence := some { record := r, count := (s.host.sq q).outstanding } } } }) ∧
  ∀ (s : State) (q : Fin 4) (w : FenceWait), (s.host.sq q).fence = some w →
    (w.count = 0 → (s.host.sq q).outstanding = 0 → s.host.state = .running → s.host.fetch = none →
      s.host.intakePause = false → ∀ i : Instr, i.record = some w.record →
        ∃ t, exec (.fencedRecordTaken q) s = .next t ∧
          exec i { s with host := { s.host with fetch := some { sq := q, stale := false } } } = .next t) ∧
    (w.count ≠ 0 ∨ s.host.fetch ≠ none ∨ s.host.intakePause = true → exec (.fencedRecordTaken q) s = .next s)

/-! ## Format checks -/

namespace Sys2Proof.Claims

open Machine Safety

/-- The 32 kind codes (11.1). -/
def kindCodes : List Byte :=
  [0x01, 0x02, 0x10, 0x11, 0x12, 0x20, 0x21, 0x22, 0x23, 0x24, 0x25, 0x26, 0x27, 0x30, 0x31, 0x32, 0x33, 0x40, 0x41,
    0x42, 0x43, 0x44, 0x45, 0x50, 0x51, 0x60, 0x70, 0x71, 0x72, 0x73, 0x74, 0x75]

/-- The offsets of the parameter bytes of each kind (11.1). -/
def parameterBytes : Kind → List Nat
  | .nop | .showReset | .powerUp | .powerDown | .queryFeeds => []
  | .restartQueue | .deleteScene | .queryScene | .queryPlayback | .go | .pause | .resume | .clear | .stopBand => [8]
  | .commit | .abortGroup | .clearFault => [8]
  | .startBand | .setMaster | .setFramePeriod => [8, 9]
  | .configFeed | .configSupply => [8, 9, 10]
  | .configPlayback | .release | .unpark => [8, 9, 10, 11]
  | .park => [8, 9, 10, 11, 12, 13]
  | .setRoll => [8, 9, 10, 11, 12, 13, 14, 15]
  | .runCue => [8, 9, 10, 11, 12, 13, 14, 15, 16, 17, 18, 19]
  | .configPort => [8, 9, 10, 11, 12, 13, 14, 15, 16, 17, 18, 19, 20, 21]
  | .loadScene => [8, 10, 11, 16, 17, 18, 19, 20, 21, 22, 23]
  | .readLevels => [8, 9, 10, 11, 16, 17, 18, 19, 20, 21, 22, 23]
  | .loadBand =>
    [8, 9, 10, 11, 12, 13, 14, 15, 16, 17, 18, 19, 20, 21, 24, 25, 26, 27, 28, 29, 30, 31]

/-- Byte `o` offends the second check: it is the flags with a reserved bit set, or a reserved byte that is not 0 (R165,
R176). -/
def reservedSet (k : Kind) (b : RecordBody) (o : Nat) : Prop :=
  (o = 1 ∧ 4 ≤ b.flags.toNat) ∨ (o = 3 ∧ b.reserved3 ≠ 0) ∨ (o = 6 ∧ b.reserved6.toNat % 256 ≠ 0) ∨
  (o = 7 ∧ b.reserved6.toNat / 256 ≠ 0) ∨
  (8 ≤ o ∧ o < 64 ∧ o ∉ parameterBytes k ∧ b.params.getD (o - 8) 0 ≠ 0)

/-- A kind that may carry a group (R120). -/
def mayCarryGroup (k : Kind) : Prop :=
  k ∈ [Kind.go, .pause, .resume, .clear, .release, .startBand, .stopBand, .setRoll, .park, .unpark, .setMaster]

/-- A run of channels: the first is 0 to 4095, the count 1 to 4,096, and their sum at most 4,096. The sum is asked at
the first channel's offset, of a count within its range (log entry 13). -/
def channelRun (b : RecordBody) : List (Nat × Prop) :=
  [(8, field b 8 2 ≤ 4095 ∧ (1 ≤ field b 10 2 → field b 10 2 ≤ 4096 → field b 8 2 + field b 10 2 ≤ 4096)),
   (10, 1 ≤ field b 10 2 ∧ field b 10 2 ≤ 4096)]

/-- The condition on each parameter that has one, at its offset (the pages of the kinds; R177). `components` gives the
components in force at a port. -/
def limits (components : Nat → Nat) (k : Kind) (b : RecordBody) : List (Nat × Prop) :=
  match k with
  | .nop | .showReset | .powerUp | .powerDown | .queryFeeds | .deleteScene | .queryScene | .setMaster => []
  | .restartQueue => [(8, field b 8 1 ≤ 3)]
  | .loadScene =>
    [(10, 1 ≤ field b 10 2 ∧ field b 10 2 ≤ 1024),
     (16, field b 16 8 % 4 = 0 ∧ field b 16 8 + 4 * field b 10 2 ≤ 2 ^ 64)]
  | .configPlayback => [(8, field b 8 1 ≤ 15), (9, field b 9 1 ≤ 7)]
  | .queryPlayback | .go | .pause | .resume | .clear => [(8, field b 8 1 ≤ 15)]
  | .runCue => [(8, field b 8 1 ≤ 15), (10, 1 ≤ field b 10 2), (18, field b 18 1 ≤ 4), (19, field b 19 1 ≤ 2)]
  | .release => [(8, field b 8 1 ≤ 15), (9, field b 9 1 ≤ 1)]
  | .loadBand =>
    [(8, field b 8 1 ≤ 7), (9, field b 9 1 ≤ 7), (10, field b 10 2 ≤ 511),
     (12, field b 12 2 ≤ 512 ∧ (field b 14 2 ≤ 512 → field b 16 2 ≤ 512 →
       1 ≤ field b 12 2 + field b 14 2 + field b 16 2 ∧ field b 12 2 + field b 14 2 + field b 16 2 ≤ 512)),
     (14, field b 14 2 ≤ 512), (16, field b 16 2 ≤ 512), (18, -255 ≤ field16s b 18 ∧ field16s b 18 ≤ 255),
     (20, 1 ≤ field b 20 2),
     (24, field b 24 8 % 2 = 0 ∧
       field b 24 8 + (field b 12 2 + field b 14 2 + field b 16 2) *
         (if components (field b 9 1) = 4 then 8 else 6) ≤ 2 ^ 64)]
  | .startBand => [(8, field b 8 1 ≤ 7), (9, field b 9 1 ≤ 7)]
  | .stopBand => [(8, field b 8 1 ≤ 7)]
  | .setRoll =>
    [(8, field b 8 1 ≤ 7), (9, field b 9 1 ≤ 1), (10, -255 ≤ field16s b 10 ∧ field16s b 10 ≤ 255),
     (12, 1 ≤ field b 12 2), (14, field b 9 1 = 1 → field b 14 2 ≤ 511)]
  | .park | .unpark => channelRun b
  | .setFramePeriod => [(8, 25 ≤ field b 8 2 ∧ field b 8 2 ≤ 400)]
  | .readLevels =>
    channelRun b ++ [(16, field b 16 8 % 4 = 0 ∧ field b 16 8 + 2 * field b 10 2 ≤ 2 ^ 64)]
  | .commit | .abortGroup => [(8, 1 ≤ field b 8 1 ∧ field b 8 1 ≤ 15)]
  | .configPort =>
    [(8, field b 8 1 ≤ 7), (9, field b 9 1 ≤ 1),
     (10, field b 10 2 ≤ 4095 ∧ (field b 12 2 ≤ 512 → field b 14 1 = 3 ∨ field b 14 1 = 4 →
       field b 10 2 + field b 12 2 * field b 14 1 ≤ 4096)),
     (12, field b 12 2 ≤ 512), (14, field b 14 1 = 3 ∨ field b 14 1 = 4), (15, field b 15 1 = 8 ∨ field b 15 1 = 16),
     (16, field b 16 1 ≤ 3), (17, field b 17 1 ≤ 1), (18, field b 18 1 ≤ 5 ∨ field b 18 1 = 255),
     (19, field b 19 1 ≤ 1)]
  | .configFeed => [(8, field b 8 1 ≤ 5), (9, field b 9 1 ≤ 8), (10, 1 ≤ field b 10 1)]
  | .configSupply => [(9, field b 9 1 ≤ 1), (10, field b 10 1 ≤ 1)]
  | .clearFault => [(8, 1 ≤ field b 8 1 ∧ field b 8 1 ≤ 63)]

end Sys2Proof.Claims

/-- The format checks of a record of a known kind, in order (R165, R176, R177): the lowest reserved byte that is set;
REPORT on a kind other than RUN_CUE; the group; the lowest parameter that breaks its limit. A record that offends none
passes, and is the request that its fields spell. Where a sum check stands, and when it is asked, is the model's
choice (log entry 13). -/
def Obligations.FormatChecksInOrder : Prop :=
  ∀ (components : Nat → Nat) (k : Kind) (b : RecordBody),
    (∀ o, reservedSet k b o → (∀ j < o, ¬reservedSet k b j) →
      formatCheck components { kind := k.code, body := b } = .badField o) ∧
    ((∀ o, ¬reservedSet k b o) →
      (reportFlag b = true ∧ k ≠ .runCue → formatCheck components { kind := k.code, body := b } = .badField 1) ∧
      ((reportFlag b = true → k = .runCue) →
        (15 < b.group.toNat ∨ (b.group ≠ 0 ∧ ¬mayCarryGroup k) →
          formatCheck components { kind := k.code, body := b } = .badField 2) ∧
        (b.group.toNat ≤ 15 → (b.group ≠ 0 → mayCarryGroup k) →
          (∀ p ∈ limits components k b, ¬p.2 → (∀ x ∈ limits components k b, x.1 < p.1 → x.2) →
            formatCheck components { kind := k.code, body := b } = .badField p.1) ∧
          ((∀ p ∈ limits components k b, p.2) →
            formatCheck components { kind := k.code, body := b } = .passed (requestOf k b)))))

/-- A record that fails its format checks completes at intake and reaches no owner (R165): a kind byte that is none of
the 32 kinds completes BAD_KIND with the value, whatever command brings it, and any other failure completes BAD_FIELD
with the offset. It has been taken: head has moved and its completion is posted. -/
def Obligations.RefusedRecordsCompleteAtIntake : Prop :=
  ∀ (i : Instr) (r : RequestRecord) (s : State) (q : Nat), i.record = some r → takes s q r.body →
    (r.kind ∉ kindCodes → exec i s = .next ((taken s q).finishNow (noted s q r.body) .badKind r.kind.toNat)) ∧
    ∀ o, formatCheck s.componentsAt r = .badField o →
      exec i s = .next ((taken s q).finishNow (noted s q r.body) .badField o)

/-! ## Completions -/

namespace Sys2Proof.Claims

open Machine

/-- The status codes (11.2). -/
def statusCode : Status → Nat
  | .ok => 0
  | .cancelled => 1
  | .superseded => 2
  | .denied => 3
  | .snapped => 4
  | .empty => 5
  | .badKind => 6
  | .badField => 7
  | .busy => 8
  | .paused => 9
  | .noScene => 10
  | .noSlot => 11
  | .noSpace => 12
  | .inUse => 13
  | .listFull => 14
  | .holdFull => 15
  | .overlap => 16
  | .notFound => 17
  | .notReady => 18
  | .tooLong => 19
  | .feedFault => 20
  | .aborted => 21
  | .hostReadError => 22
  | .hostWriteError => 23

/-- The event kind codes (11.2). -/
def eventCode : EventKind → Nat
  | .feedFault => 1
  | .portLost => 2
  | .portRegained => 3
  | .safeEntered => 4
  | .safeLeft => 5
  | .queueFault => 6
  | .supplyTripped => 7

end Sys2Proof.Claims

/-- What handing over a completion does (R167, 11.2). With the interface RUNNING, the completion not dropped and its
entry set aside, one record is written at the bound queue's tail, with the bytes of 11.2; tail and the sequence
advance, posted rises and reserved falls, the source queue's outstanding count falls and its fence wait counts down. A
completion that is dropped, or finds the interface not RUNNING, changes nothing (R83, R159, R174). -/
def Obligations.CompletionAccounting : Prop :=
  ∀ (s : State) (o : Owed) (status : Status) (detail : Nat),
    (o.dropped = true ∨ s.host.state ≠ .running → s.finish o status detail = s) ∧
    (o.dropped = false → s.host.state = .running → 0 < (s.host.cq (s.host.sq o.ctx.sq).boundCq).reserved →
      (s.host.cq (s.host.sq o.ctx.sq).boundCq).tail < (s.host.cq (s.host.sq o.ctx.sq).boundCq).size →
      ∃ u : HostUnit, s.finish o status detail = { s with host := u } ∧
        u =
          { s.host with
            submission := u.submission
            completion := u.completion
            writes := s.host.writes ++
              [{ queue := (s.host.sq o.ctx.sq).boundCq
                 address := (s.host.cq (s.host.sq o.ctx.sq).boundCq).base +
                   BitVec.ofNat 64 (16 * (s.host.cq (s.host.sq o.ctx.sq).boundCq).tail)
                 bytes :=
                   [1, BitVec.ofNat 8 (statusCode status), o.ctx.tag.setWidth 8, (o.ctx.tag >>> 8).setWidth 8,
                     BitVec.ofNat 8 o.ctx.sq, 0, BitVec.ofNat 8 o.ctx.head, BitVec.ofNat 8 (o.ctx.head / 2 ^ 8),
                     BitVec.ofNat 8 detail, BitVec.ofNat 8 (detail / 2 ^ 8), BitVec.ofNat 8 (detail / 2 ^ 16),
                     BitVec.ofNat 8 (detail / 2 ^ 24), 0, 0,
                     BitVec.ofNat 8 (s.host.cq (s.host.sq o.ctx.sq).boundCq).nextSequence,
                     BitVec.ofNat 8 ((s.host.cq (s.host.sq o.ctx.sq).boundCq).nextSequence / 2 ^ 8)] }] } ∧
        (∀ j, u.sq j =
          if j = o.ctx.sq then
            { s.host.sq j with
              outstanding := (s.host.sq j).outstanding - 1
              fence := (s.host.sq j).fence.map (fun w => { w with count := w.count - 1 }) }
          else s.host.sq j) ∧
        ∀ m, u.cq m =
          if m = (s.host.sq o.ctx.sq).boundCq then
            { s.host.cq m with
              tail := ((s.host.cq m).tail + 1) % (s.host.cq m).size
              posted := (s.host.cq m).posted + 1
              reserved := (s.host.cq m).reserved - 1
              nextSequence := if (s.host.cq m).nextSequence < 65535 then (s.host.cq m).nextSequence + 1 else 1 }
          else s.host.cq m)

/-! ## The requests of the Host Queue Unit -/

/-- NOP completes OK at once with the low 32 bits of the frame number, and does nothing else (R172); with FENCE set
and requests of its queue outstanding it is a fence wait, and does not complete. RESTART_QUEUE of a FAULTED queue
makes it ACTIVE with its head at its tail, and completes OK with the number of records passed over; of any other queue
it completes BUSY with detail 0 and changes nothing (R173). -/
def Obligations.NopAndRestartQueueAnswer : Prop :=
  (∀ (s : State) (q : Nat) (b : RecordBody),
     (takes s q b → passes s .nop b →
       exec (.nop b) s = .next ((taken s q).finishNow (noted s q b) .ok (s.clock.frame % 2 ^ 32))) ∧
     (s.host.fetch = some { sq := q, stale := false } → fenceFlag b = true → 0 < (s.host.sq q).outstanding →
       ∃ t, exec (.nop b) s = .next t ∧ t.host.writes = s.host.writes ∧
         (t.host.sq q).fence.map FenceWait.count = some (s.host.sq q).outstanding)) ∧
  ∀ (s : State) (q : Nat) (b : RecordBody), takes s q b → passes s .restartQueue b →
    (((taken s q).host.sq (field b 8 1)).state = .faulted →
      ((taken s q).host.sq (field b 8 1)).head < ((taken s q).host.sq (field b 8 1)).size →
      ((taken s q).host.sq (field b 8 1)).tail < ((taken s q).host.sq (field b 8 1)).size →
      exec (.restartQueue b) s =
        .next (State.finishNow
          { taken s q with
            host := { (taken s q).host with
              submission := (taken s q).host.submission.set SubmissionQueue.inactive (field b 8 1)
                { (taken s q).host.sq (field b 8 1) with
                  state := .active
                  head := ((taken s q).host.sq (field b 8 1)).tail } } }
          (noted s q b) .ok
          ((((taken s q).host.sq (field b 8 1)).tail + ((taken s q).host.sq (field b 8 1)).size -
            ((taken s q).host.sq (field b 8 1)).head) % ((taken s q).host.sq (field b 8 1)).size))) ∧
    (((taken s q).host.sq (field b 8 1)).state ≠ .faulted →
      exec (.restartQueue b) s = .next ((taken s q).finishNow (noted s q b) .busy 0))

/-! ## Staging and holding -/

/-- A groupable request with group 0 is staged by its owner with the next frame as its effective frame; it is not
checked and does not complete at intake (R53, R87, R102, R103, R165). COMMIT is staged with the next frame, without a
check (R122). SHOW_RESET is staged with the next frame, and the intake pause is set (R115). Neither completes at
intake. -/
def Obligations.FrameRequestsAreStaged : Prop :=
  (∀ (s : State) (q : Nat) (b : RecordBody), takes s q b → b.group = 0 →
     ∀ e ∈ groupables b, passes s e.2.1 b → exec e.1 s = .next (staged (taken s q) (noted s q b) e.2.2)) ∧
  ∀ (s : State) (q : Nat) (b : RecordBody), takes s q b →
    (passes s .commit b →
      exec (.commit b) s =
        .next { taken s q with
          groups := { s.groups with
            commits := s.groups.commits ++
              [{ frame := s.clock.frame + 1, owed := owes (noted s q b), request := field b 8 1 }] } }) ∧
    (passes s .showReset b →
      exec (.showReset b) s =
        .next { taken s q with
          clock := { s.clock with
            staged := s.clock.staged ++
              [{ frame := s.clock.frame + 1, owed := owes (noted s q b), request := .showReset }] }
          host := { (taken s q).host with intakePause := true } })

/-- A groupable request with a group joins the tail of the hold list and does not complete; with 128 requests held it
completes HOLD_FULL with detail 128 and is not held (R120). ABORT_GROUP removes the group's held requests, hands over
CANCELLED with detail 0 for each in held order, leaves the other groups, and completes OK with their number (R125). A
record that carries a group and arrives in the midst of a frame start, a grant there, and a fence wait that carries a group
and may be taken there do what their commands do, so that a request joins before, between or after the COMMITs of that
frame (R123, R126); a record or a fence wait with group 0 is not taken there (log entry 42, the model's choice), and none
once a SHOW_RESET has been applied at that frame (R115, R128). -/
def Obligations.HeldRequestsJoinAndLeave : Prop :=
  (∀ (s : State) (q : Nat) (b : RecordBody), takes s q b → b.group ≠ 0 →
     ∀ e ∈ groupables b, passes s e.2.1 b →
       (s.groups.hold.length < 128 →
         exec e.1 s =
           .next { taken s q with
             groups := { s.groups with
               hold := s.groups.hold ++
                 [{ group := b.group.toNat, ctx := noted s q b, request := e.2.2 }] } }) ∧
       (128 ≤ s.groups.hold.length → exec e.1 s = .next ((taken s q).finishNow (noted s q b) .holdFull 128))) ∧
  (∀ (s : State) (q : Nat) (b : RecordBody), takes s q b → passes s .abortGroup b →
     exec (.abortGroup b) s =
       .next (State.finishNow
         ((s.groups.hold.filter (fun h => h.group = field b 8 1)).foldl
           (fun t h => t.finishNow h.ctx .cancelled 0)
           { taken s q with
             groups := { s.groups with hold := s.groups.hold.filter (fun h => h.group ≠ field b 8 1) } })
         (noted s q b) .ok (s.groups.hold.filter (fun h => h.group = field b 8 1)).length)) ∧
  ∀ w : FrameWork,
    (w.resetSent = true → ∀ a, w.takeArrival a = w) ∧
    (w.resetSent = false →
      (∀ (i : Instr) (r : RequestRecord), i.record = some r → r.body.group ≠ 0 →
        ∃ t, exec i w.s = .next t ∧ w.takeArrival (.record r) = { w with s := t }) ∧
      (∀ r : RequestRecord, r.body.group = 0 → w.takeArrival (.record r) = w) ∧
      (∃ t, exec .intakeGrant w.s = .next t ∧ w.takeArrival .grant = { w with s := t }) ∧
      ∀ q : Fin 4,
        ((∀ x, (w.s.host.sq q).fence = some x → x.record.body.group ≠ 0) →
          ∃ t, exec (.fencedRecordTaken q) w.s = .next t ∧ w.takeArrival (.fenced q) = { w with s := t }) ∧
        ∀ x, (w.s.host.sq q).fence = some x → x.record.body.group = 0 → w.takeArrival (.fenced q) = w)

/-! ## The requests of the Frame Clock and Composer and of the Strip Ports, at intake -/

namespace Sys2Proof.Claims

open Machine Safety

/-- A rate in tenths of Mbit/s (R130). -/
def tenthsOf : Rate → Nat
  | .mbit08 => 8
  | .mbit2 => 20
  | .mbit4 => 40
  | .mbit8 => 80

/-- Transmit time + 500 µs ≤ `p` × 100 µs, the comparison made exactly (R111): the transmit time is 9 × (6 + data bytes)
bit-times, and a bit-time is 10 / `tenthsOf rate` µs. -/
def fitsPeriod (c : PortConfig) (p : Nat) : Prop :=
  10 * (9 * (6 + c.pixels * c.components * (c.depth / 8))) + 500 * tenthsOf c.rate ≤ 100 * p * tenthsOf c.rate

/-- Every port that its latest accepted configuration enables fits `p` (R111). -/
def everyPortFits (s : State) (p : Nat) : Prop :=
  ∀ n < 8, (s.ports.port n).accepted.enable = true → fitsPeriod (s.ports.port n).accepted p

/-- The configuration that the fields of a CONFIG_PORT spell (11.1). -/
def portConfig (b : RecordBody) : PortConfig :=
  { enable := decide (field b 9 1 = 1), first := field b 10 2, pixels := field b 12 2, components := field b 14 1,
    depth := field b 15 1, rate := [Rate.mbit08, .mbit2, .mbit4, .mbit8].getD (field b 16 1) .mbit08,
    reversed := decide (field b 17 1 = 1), feed := if field b 18 1 = 255 then none else some (field b 18 1),
    echoCheck := decide (field b 19 1 = 1), safe := BitVec.ofNat 16 (field b 20 2) }

/-- Band `n` is RUNNING on port `p` (R85). -/
def runningOn (s : State) (p n : Nat) : Prop :=
  n < 8 ∧ ∃ d r, s.bands.band n = .running d r ∧ d.port = p

end Sys2Proof.Claims

/-- SET_FRAME_PERIOD (R111): if every enabled port fits, the accepted period becomes the requested one and the request
is staged with the next frame; otherwise it completes TOO_LONG with the smallest period, at least 25, that they all
fit. CONFIG_PORT (R138): BUSY with the lowest band RUNNING on the port; TOO_LONG, with the smallest period that would
fit, for a configuration that enables the port and does not fit the accepted period; otherwise the configuration is
the latest accepted one and the request is staged with the next frame. Nothing else changes. -/
def Obligations.PeriodsAndPortsAreCheckedAtIntake : Prop :=
  (∀ (s : State) (q : Nat) (b : RecordBody), takes s q b → passes s .setFramePeriod b →
     (everyPortFits s (field b 8 2) →
       exec (.setFramePeriod b) s =
         .next { taken s q with
           clock := { s.clock with
             acceptedPeriod := field b 8 2
             staged := s.clock.staged ++
               [{ frame := s.clock.frame + 1, owed := owes (noted s q b), request := .setPeriod (field b 8 2) }] } }) ∧
     (¬everyPortFits s (field b 8 2) →
       ∃ d, (25 ≤ d ∧ everyPortFits s d ∧ ∀ p, 25 ≤ p → everyPortFits s p → d ≤ p) ∧
         exec (.setFramePeriod b) s = .next ((taken s q).finishNow (noted s q b) .tooLong d))) ∧
  (∀ (s : State) (q : Nat) (b : RecordBody), takes s q b → passes s .configPort b →
     (∀ n, runningOn s (field b 8 1) n → (∀ m < n, ¬runningOn s (field b 8 1) m) →
       exec (.configPort b) s = .next ((taken s q).finishNow (noted s q b) .busy n)) ∧
     ((∀ n, ¬runningOn s (field b 8 1) n) →
       (field b 9 1 = 1 ∧ ¬fitsPeriod (portConfig b) s.clock.acceptedPeriod →
         ∃ d, (fitsPeriod (portConfig b) d ∧ ∀ p, fitsPeriod (portConfig b) p → d ≤ p) ∧
           exec (.configPort b) s = .next ((taken s q).finishNow (noted s q b) .tooLong d)) ∧
       ((field b 9 1 = 1 → fitsPeriod (portConfig b) s.clock.acceptedPeriod) →
         exec (.configPort b) s =
           .next { taken s q with
             ports :=
               { records := s.ports.records.set Port.atReset (field b 8 1)
                   { s.ports.port (field b 8 1) with accepted := portConfig b }
                 staged := s.ports.staged ++
                   [{ frame := s.clock.frame + 1, owed := owes (noted s q b),
                      request := { port := field b 8 1, config := portConfig b } }] } })))

/-- READ_LEVELS is held with the next frame as its capture frame and does not complete at intake; while two are held
it completes BUSY with detail 2 and changes nothing (R113). The end of its writes (R114): all accepted, it completes
OK; one answered with an error, HOST_WRITE_ERROR; either way with the low 32 bits of its capture frame, and it is no
longer held. A snapshot that is not captured yet, or stands behind one of the same latch, has no write out, and
nothing changes (log entries 3 and 25). -/
def Obligations.ReadLevelsIsHeldAndEnds : Prop :=
  (∀ (s : State) (q : Nat) (b : RecordBody), takes s q b → passes s .readLevels b →
     (s.clock.reads.length < 2 →
       exec (.readLevels b) s =
         .next { taken s q with
           clock := { s.clock with
             reads := s.clock.reads ++
               [{ first := field b 8 2, count := field b 10 2, address := BitVec.ofNat 64 (field b 16 8),
                  captureFrame := s.clock.frame + 1, ctx := noted s q b, area := none }] } }) ∧
     (2 ≤ s.clock.reads.length → exec (.readLevels b) s = .next ((taken s q).finishNow (noted s q b) .busy 2))) ∧
  ∀ (s : State) (which : Fin 2) (r : Snapshot), s.clock.reads[which.val]? = some r →
    (r.area ≠ none → (∀ x ∈ s.clock.reads.take which, x.captureFrame ≠ r.captureFrame) →
      exec (.readLevelsWriteDone which) s =
        .next (State.finishNow
          { s with clock := { s.clock with reads := s.clock.reads.eraseIdx which } } r.ctx .ok
          (r.captureFrame % 2 ^ 32)) ∧
      exec (.readLevelsWriteError which) s =
        .next (State.finishNow
          { s with clock := { s.clock with reads := s.clock.reads.eraseIdx which } } r.ctx .hostWriteError
          (r.captureFrame % 2 ^ 32))) ∧
    (r.area = none ∨ (∃ x ∈ s.clock.reads.take which, x.captureFrame = r.captureFrame) →
      exec (.readLevelsWriteDone which) s = .next s ∧ exec (.readLevelsWriteError which) s = .next s)

/-! ## The requests of the Playback Controller, at intake -/

namespace Sys2Proof.Claims

open Machine Safety

/-- How many channels a playback owns (R54), in the canonical table. -/
def ownedBy (s : State) (p : Nat) : Nat :=
  (s.arbiter.channels.cells.filter (fun c => c.2.holding.owner = some (.playback p))).length

/-- The state code of a playback (R54, 11.3): the first test that holds. -/
def stateCode (s : State) (p : Nat) : Nat :=
  if (s.controller.playback p).paused ≠ none then 4
  else if (s.controller.playback p).inFlight ≠ [] then 3
  else if (s.controller.playback p).releaseSlot ≠ none then 2
  else if ownedBy s p ≠ 0 then 1
  else 0

/-- A playback's status word: state in bits 2 to 0, priority in 5 to 3, pending cues in 10 to 6, cues in flight in 13
to 11, owned count in 26 to 14 (R80, 11.3). -/
def statusOf (s : State) (p : Nat) : Nat :=
  stateCode s p + 8 * (s.controller.playback p).priority + 64 * (s.controller.playback p).pending.length +
    2048 * (s.controller.playback p).inFlight.length + 16384 * ownedBy s p

/-- The cue that a RUN_CUE builds (R56, R70), under the model's number `id` (log entry 11). -/
def cueOf (s : State) (q : Nat) (b : RecordBody) (id : Nat) : Cue :=
  { id := id, ctx := noted s q b, report := reportFlag b, label := field b 10 2, scene := field b 9 1,
    fadeTime := field b 12 2, delay := field b 14 2, followWait := field b 16 2,
    curve := [Curve.linear, .square, .scurve, .snapStart, .snapEnd].getD (field b 18 1) .linear,
    trigger := [Trigger.manual, .follow, .withPrevious].getD (field b 19 1) .manual, state := .pending, due := none,
    triggerFrame := none, length := 0, slot := none, denied := 0, terminal := none }

end Sys2Proof.Claims

/-- RUN_CUE (R70, R71): the cue joins the tail of its playback's pending list. With REPORT clear the request completes
OK with the cues then held; with REPORT set it does not complete at intake. With 16 cues held it completes LIST_FULL
with detail 16 and changes nothing. -/
def Obligations.RunCueJoinsThePendingList : Prop :=
  ∀ (s : State) (q : Nat) (b : RecordBody), takes s q b → passes s .runCue b →
    (16 ≤ (s.controller.playback (field b 8 1)).pending.length →
      exec (.runCue b) s = .next ((taken s q).finishNow (noted s q b) .listFull 16)) ∧
    ((s.controller.playback (field b 8 1)).pending.length < 16 →
      ∃ t, t = { taken s q with
            controller := { s.controller with
              playbacks := s.controller.playbacks.set Playback.atReset (field b 8 1)
                { s.controller.playback (field b 8 1) with
                  pending := (s.controller.playback (field b 8 1)).pending ++ [cueOf s q b s.controller.nextCue] }
              nextCue := s.controller.nextCue + 1 } } ∧
        (reportFlag b = true → exec (.runCue b) s = .next t) ∧
        (reportFlag b = false →
          exec (.runCue b) s = .next (t.finishNow (noted s q b) .ok
            ((s.controller.playback (field b 8 1)).pending.length + 1))))

/-- CONFIG_PLAYBACK (R69) replaces the priority and the default release time of a playback that is IDLE with no cue
pending, and completes OK with the new status word; otherwise it completes BUSY with the status word as it stands and
changes nothing. QUERY_PLAYBACK (R80) completes OK with the status word and changes nothing. -/
def Obligations.PlaybackConfigurationAndQuery : Prop :=
  ∀ (s : State) (q : Nat) (b : RecordBody), takes s q b →
    (passes s .configPlayback b →
      (stateCode s (field b 8 1) = 0 ∧ (s.controller.playback (field b 8 1)).pending = [] →
        ∃ t, t = { taken s q with
              controller := { s.controller with
                playbacks := s.controller.playbacks.set Playback.atReset (field b 8 1)
                  { s.controller.playback (field b 8 1) with
                    priority := field b 9 1
                    defaultRelease := field b 10 2 } } } ∧
          exec (.configPlayback b) s = .next (t.finishNow (noted s q b) .ok (statusOf t (field b 8 1)))) ∧
      (stateCode s (field b 8 1) ≠ 0 ∨ (s.controller.playback (field b 8 1)).pending ≠ [] →
        exec (.configPlayback b) s =
          .next ((taken s q).finishNow (noted s q b) .busy (statusOf s (field b 8 1))))) ∧
    (passes s .queryPlayback b →
      exec (.queryPlayback b) s = .next ((taken s q).finishNow (noted s q b) .ok (statusOf s (field b 8 1))))

/-! ## The requests of the Scene Store and the Band Unit, at intake -/

namespace Sys2Proof.Claims

open Machine Safety

/-- The blocks that `n` entries need: ceil(n / 16) (R20). -/
def blocksNeeded (n : Nat) : Nat := n / 16 + (if n % 16 = 0 then 0 else 1)

/-- A load joins the queue's tail; it is FETCHING if the queue was empty, and QUEUED otherwise (R24). -/
def queued (loads : List Load) (l : Load) : List Load := loads ++ [{ l with fetching := decide (loads = []) }]

end Sys2Proof.Claims

/-- LOAD_SCENE (R27): the store's four checks in order, and what it does when all pass. The old chain returns and the
new one is taken; the scene is LOADING with the requested count; its load joins the queue; the request does not
complete at intake. A refused request changes nothing. DELETE_SCENE (R29) by the scene's state and use count: it is
refused, or the scene becomes EMPTY and its chain returns. QUERY_SCENE (R30) completes OK with the state, entry count,
use count and free blocks packed as 11.3 gives, and changes nothing. -/
def Obligations.SceneRequestsAreChecked : Prop :=
  (∀ (s : State) (q : Nat) (b : RecordBody) (sc : Scene), takes s q b → passes s .loadScene b →
     s.store.scene (field b 8 1) = sc →
     (sc.state = .loading → exec (.loadScene b) s = .next ((taken s q).finishNow (noted s q b) .busy 0)) ∧
     (sc.state = .ready → 0 < sc.useCount →
       exec (.loadScene b) s = .next ((taken s q).finishNow (noted s q b) .inUse sc.useCount)) ∧
     (sc.state = .empty ∨ (sc.state = .ready ∧ sc.useCount = 0) →
       (4 ≤ s.store.loads.length →
         exec (.loadScene b) s = .next ((taken s q).finishNow (noted s q b) .busy 0)) ∧
       (s.store.loads.length < 4 →
         (s.store.freeBlocks + sc.blocks < blocksNeeded (field b 10 2) →
           exec (.loadScene b) s =
             .next ((taken s q).finishNow (noted s q b) .noSpace (s.store.freeBlocks + sc.blocks))) ∧
         (blocksNeeded (field b 10 2) ≤ s.store.freeBlocks + sc.blocks →
           exec (.loadScene b) s =
             .next { taken s q with
               store := { s.store with
                 scenes := s.store.scenes.set Scene.none (field b 8 1)
                   { state := .loading, entryCount := field b 10 2, blocks := blocksNeeded (field b 10 2),
                     useCount := 0, entries := [] }
                 freeBlocks := s.store.freeBlocks + sc.blocks - blocksNeeded (field b 10 2)
                 nextLoad := s.store.nextLoad + 1
                 loads := queued s.store.loads
                   { id := s.store.nextLoad, target := .scene (field b 8 1), address := BitVec.ofNat 64 (field b 16 8),
                     itemCount := field b 10 2, itemSize := 4, received := 0, fetching := false,
                     ctx := noted s q b } } })))) ∧
  (∀ (s : State) (q : Nat) (b : RecordBody) (sc : Scene), takes s q b → s.store.scene (field b 8 1) = sc →
     (passes s .deleteScene b →
       (sc.state = .loading → exec (.deleteScene b) s = .next ((taken s q).finishNow (noted s q b) .busy 0)) ∧
       (sc.state = .empty → exec (.deleteScene b) s = .next ((taken s q).finishNow (noted s q b) .notFound 0)) ∧
       (sc.state = .ready → 0 < sc.useCount →
         exec (.deleteScene b) s = .next ((taken s q).finishNow (noted s q b) .inUse sc.useCount)) ∧
       (sc.state = .ready → sc.useCount = 0 →
         exec (.deleteScene b) s =
           .next (State.finishNow
             { taken s q with
               store := { s.store with
                 scenes := s.store.scenes.set Scene.none (field b 8 1)
                   { state := .empty, entryCount := 0, blocks := 0, useCount := 0, entries := [] }
                 freeBlocks := s.store.freeBlocks + sc.blocks } }
             (noted s q b) .ok sc.blocks))) ∧
     (passes s .queryScene b →
       exec (.queryScene b) s =
         .next ((taken s q).finishNow (noted s q b) .ok
           ((match sc.state with
             | .empty => 0
             | .loading => 1
             | .ready => 2) + 4 * sc.entryCount + 8192 * sc.useCount + 1048576 * s.store.freeBlocks))))

/-- LOAD_BAND (R91): BUSY for a LOADING band, IN_USE for a RUNNING one, BUSY with four loads queued; otherwise the
band is LOADING with the request's fields, the components in force at its port and origin offset 0, its pattern given
up, and its load joins the queue. The request does not complete at intake; a refused one changes nothing. -/
def Obligations.LoadBandIsChecked : Prop :=
  ∀ (s : State) (q : Nat) (b : RecordBody), takes s q b → passes s .loadBand b →
    (∀ d, s.bands.band (field b 8 1) = .loading d →
      exec (.loadBand b) s = .next ((taken s q).finishNow (noted s q b) .busy 0)) ∧
    (∀ d r, s.bands.band (field b 8 1) = .running d r →
      exec (.loadBand b) s = .next ((taken s q).finishNow (noted s q b) .inUse 0)) ∧
    (s.bands.band (field b 8 1) = .undefined ∨ (∃ d, s.bands.band (field b 8 1) = .stopped d) →
      (4 ≤ s.store.loads.length →
        exec (.loadBand b) s = .next ((taken s q).finishNow (noted s q b) .busy 0)) ∧
      (s.store.loads.length < 4 →
        exec (.loadBand b) s =
          .next { taken s q with
            bands := { s.bands with
              records := s.bands.records.set Band.undefined (field b 8 1)
                (.loading
                  { port := field b 9 1, firstPixel := field b 10 2, lead := field b 12 2, roll := field b 14 2,
                    tail := field b 16 2, components := (s.ports.port (field b 9 1)).applied.components, pattern := [],
                    step := field16s b 18, stepPeriod := field b 20 2, originOffset := 0 }) }
            store := { s.store with
              nextLoad := s.store.nextLoad + 1
              loads := queued s.store.loads
                { id := s.store.nextLoad, target := .band (field b 8 1), address := BitVec.ofNat 64 (field b 24 8),
                  itemCount := field b 12 2 + field b 14 2 + field b 16 2,
                  itemSize := if (s.ports.port (field b 9 1)).applied.components = 4 then 8 else 6, received := 0,
                  fetching := false, ctx := noted s q b } } }))

/-! ## The Supply Sequencer -/

namespace Sys2Proof.Claims

open Machine Safety

/-- The fault mask: bit n for each feed n of slots 1 to 8 in FAULT (R147). -/
def faultsOf (u : Supply) : Nat :=
  (if 1 ≤ (u.feed 0).slot ∧ (u.feed 0).state = .fault then 1 else 0) +
  (if 1 ≤ (u.feed 1).slot ∧ (u.feed 1).state = .fault then 2 else 0) +
  (if 1 ≤ (u.feed 2).slot ∧ (u.feed 2).state = .fault then 4 else 0) +
  (if 1 ≤ (u.feed 3).slot ∧ (u.feed 3).state = .fault then 8 else 0) +
  (if 1 ≤ (u.feed 4).slot ∧ (u.feed 4).state = .fault then 16 else 0) +
  (if 1 ≤ (u.feed 5).slot ∧ (u.feed 5).state = .fault then 32 else 0)

/-- Every feed of slots 1 to 8 is ON. -/
def everyFeedOn (u : Supply) : Prop := ∀ n < 6, 1 ≤ (u.feed n).slot → (u.feed n).state = .on

/-- A completion that a sequence owes is handed over, if there is one (R147, R149). -/
def finished (s : State) (o : Option Owed) (status : Status) (detail : Nat) : State :=
  match o with
  | some w => s.finish w status detail
  | none => s

/-- The interval of the step that begins now; one of length 0 has ended as it begins (R147; of a falling step
log entry 5). -/
def intervalFrom (u : Supply) : SlotInterval := { ms := u.slotIntervalMs, reached := decide (u.slotIntervalMs = 0) }

/-- A feed that becomes RAMPING, and ON at once if its good input is asserted already (R142, R143). -/
def ramped (f : Feed) : Feed :=
  { f with
    state := if f.good then .on else .ramping
    deadline := if f.good then none else some f.timeoutMs
    cause := none }

/-- A feed switched off (R142, R149). -/
def switchedOff (f : Feed) : Feed := { f with state := .off, deadline := none, cause := none }

/-- Whether a feed is RAMPING or ON. -/
def isEnabled (f : Feed) : Prop := f.state = .ramping ∨ f.state = .on

/-- Slot `j` of the rise begins (R147, step 1). -/
def slotBegins (s t : State) (j : Nat) : Prop :=
  t =
    { s with
      supply := { s.supply with
        feeds := t.supply.feeds
        state := .rising
        currentSlot := j
        interval := some (intervalFrom s.supply) } } ∧
  (∀ n, n ∈ s.supply.riseSet ∧ (s.supply.feed n).slot = j → t.supply.feed n = ramped (s.supply.feed n)) ∧
  ∀ n, ¬(n ∈ s.supply.riseSet ∧ (s.supply.feed n).slot = j) → t.supply.feed n = s.supply.feed n

/-- `j` is the lowest slot above `k` that holds a feed of the rise set (R147). -/
def nextUp (u : Supply) (k j : Nat) : Prop :=
  k < j ∧ (∃ n ∈ u.riseSet, (u.feed n).slot = j) ∧ ∀ n ∈ u.riseSet, k < (u.feed n).slot → j ≤ (u.feed n).slot

/-- The current slot of the rise completes (R147, step 2). -/
def slotDone (u : Supply) : Prop :=
  (∃ i, u.interval = some i ∧ i.reached = true) ∧
  ∀ n ∈ u.riseSet, (u.feed n).slot = u.currentSlot →
    (u.feed n).state = .on ∨ (u.policy = .isolate ∧ (u.feed n).state = .fault)

/-- The supply with the rise over (R147). -/
def risen (u : Supply) : Supply :=
  { u with state := .up, currentSlot := 0, riseSet := [], interval := none, rise := none }

/-- How a rise goes on at a moment (R147): it waits for its slot; or the slot completes, the next one begins and the
rise goes on from there; or the last slot completes and the rise ends. -/
inductive RiseGoesOn : State → State → Prop
  | waits (s : State) (h : s.supply.state ≠ .rising ∨ ¬slotDone s.supply) : RiseGoesOn s s
  | next (s m t : State) (j : Nat) (hs : s.supply.state = .rising) (hd : slotDone s.supply)
      (hj : nextUp s.supply s.supply.currentSlot j) (hb : slotBegins s m j) (hr : RiseGoesOn m t) : RiseGoesOn s t
  | endsGood (s : State) (hs : s.supply.state = .rising) (hd : slotDone s.supply)
      (hn : ∀ j, ¬nextUp s.supply s.supply.currentSlot j) (ho : everyFeedOn s.supply) :
      RiseGoesOn s (finished { s with supply := risen s.supply } s.supply.rise .ok 0)
  | endsFaulted (s : State) (hs : s.supply.state = .rising) (hd : slotDone s.supply)
      (hn : ∀ j, ¬nextUp s.supply s.supply.currentSlot j) (ho : ¬everyFeedOn s.supply) :
      RiseGoesOn s (finished { s with supply := risen s.supply } s.supply.rise .feedFault (faultsOf s.supply))

/-- `j` is the highest slot from 1 to `k` that holds a feed RAMPING or ON (R149). -/
def nextDown (u : Supply) (k j : Nat) : Prop :=
  (1 ≤ j ∧ j ≤ k) ∧ (∃ n < 6, (u.feed n).slot = j ∧ isEnabled (u.feed n)) ∧
  ∀ n < 6, isEnabled (u.feed n) → (u.feed n).slot ≤ k → (u.feed n).slot ≤ j

/-- A falling step at slot `c` begins: the enabled feeds that `p` names are switched off (R149). -/
def stepFalls (s t : State) (c : Nat) (p : Feed → Prop) : Prop :=
  t =
    { s with
      supply := { s.supply with
        feeds := t.supply.feeds
        state := .falling
        currentSlot := c
        interval := some (intervalFrom s.supply) } } ∧
  (∀ n < 6, p (s.supply.feed n) ∧ isEnabled (s.supply.feed n) → t.supply.feed n = switchedOff (s.supply.feed n)) ∧
  ∀ n, ¬(n < 6 ∧ p (s.supply.feed n) ∧ isEnabled (s.supply.feed n)) → t.supply.feed n = s.supply.feed n

/-- The sequencer becomes DOWN and the fall request completes (R149). -/
def comesDown (s : State) : State :=
  finished { s with supply := { s.supply with state := .down, currentSlot := 0, interval := none, fall := none } }
    s.supply.fall .ok (faultsOf s.supply)

/-- How a falling sequence goes on at a moment (R149). -/
inductive FallGoesOn : State → State → Prop
  | waits (s : State) (h : s.supply.state ≠ .falling ∨ ∀ i, s.supply.interval = some i → i.reached = false) :
      FallGoesOn s s
  | next (s m t : State) (i : SlotInterval) (j : Nat) (hs : s.supply.state = .falling)
      (hi : s.supply.interval = some i) (hr : i.reached = true) (hm : s.supply.mode = .sequential)
      (hj : nextDown s.supply (s.supply.currentSlot - 1) j) (hb : stepFalls s m j (fun f => f.slot = j))
      (hg : FallGoesOn m t) : FallGoesOn s t
  | ends (s : State) (i : SlotInterval) (hs : s.supply.state = .falling) (hi : s.supply.interval = some i)
      (hr : i.reached = true)
      (hm : s.supply.mode = .together ∨ ∀ j, ¬nextDown s.supply (s.supply.currentSlot - 1) j) :
      FallGoesOn s (comesDown s)

/-- A falling sequence begins (R149): straight to DOWN with no feed of slots 1 to 8 enabled, and otherwise by the
power-down mode. -/
inductive FallBegins : State → State → Prop
  | nothing (s : State) (h : ∀ j, ¬nextDown s.supply 8 j) : FallBegins s (comesDown s)
  | sequential (s m t : State) (j : Nat) (hm : s.supply.mode = .sequential) (hj : nextDown s.supply 8 j)
      (hb : stepFalls s m j (fun f => f.slot = j)) (hg : FallGoesOn m t) : FallBegins s t
  | together (s m t : State) (j : Nat) (hm : s.supply.mode = .together) (hj : nextDown s.supply 8 j)
      (hb : stepFalls s m 0 (fun f => 1 ≤ f.slot)) (hg : FallGoesOn m t) : FallBegins s t

/-- The start slot that SUPPLY_TRIPPED reports (R148): 0 when the sequencer goes straight to DOWN, the first step's slot
under SEQUENTIAL, and the open value of log entry 2 under TOGETHER. -/
def startSlot (u : Supply) (d : Nat) : Prop :=
  ((∀ j, ¬nextDown u 8 j) → d = 0) ∧
  ∀ j, nextDown u 8 j →
    (u.mode = .sequential → d = j) ∧ (u.mode = .together → d = (Config.togetherStartSlot j).toNat)

/-- An event raised (R169). -/
def raised (s : State) (kind : EventKind) (object detail : Nat) : State :=
  { s with host := { s.host with events := joined s.host.events (eventNow s kind object detail) } }

/-- The supply trips over feed `n` (R148): the event, a rise abandoned with its request completed FEED_FAULT, and a
falling sequence with no fall request. -/
def trips (s t : State) (n : Nat) : Prop :=
  ∃ d, startSlot s.supply d ∧
    (s.supply.state = .rising →
      ∃ m, m = finished
          { raised s .supplyTripped 0 (n + 256 * d) with supply := { s.supply with rise := none, riseSet := [] } }
          s.supply.rise .feedFault (faultsOf s.supply) ∧
        FallBegins { m with supply := { m.supply with fall := none } } t) ∧
    (s.supply.state ≠ .rising →
      FallBegins { raised s .supplyTripped 0 (n + 256 * d) with supply := { s.supply with fall := none } } t)

/-- Feed `n` enters FAULT (R142, R145): FEED_FAULT is raised with the cause and the sequencer's state, and then the
policy is applied. -/
def faultFollows (s t : State) (n : Nat) (cause : FaultCause) : Prop :=
  ∃ m, m = raised
      { s with
        supply := { s.supply with
          feeds := s.supply.feeds.set Feed.atReset n
            { s.supply.feed n with state := .fault, deadline := none, cause := some cause } } }
      .feedFault n
      ((match cause with
        | .timeout => 1
        | .dropped => 2) + 256 *
        (match s.supply.state with
        | .down => 0
        | .rising => 1
        | .up => 2
        | .falling => 3)) ∧
    (s.supply.state = .rising ∧ s.supply.policy = .isolate → RiseGoesOn m t) ∧
    ((s.supply.state = .rising ∨ s.supply.state = .up) ∧ s.supply.policy = .all → trips m t n) ∧
    (s.supply.state = .down ∨ s.supply.state = .falling ∨ (s.supply.state = .up ∧ s.supply.policy = .isolate) → t = m)

/-- The code of a feed's state (11.3). -/
def feedCode (f : Feed) : Nat :=
  match f.state with
  | .off => 0
  | .ramping => 1
  | .on => 2
  | .fault => 3

/-- Slots are 0 to 8, and the rise set holds feed numbers (R141, R146). -/
def legalSlots (u : Supply) : Prop := (∀ n < 6, (u.feed n).slot ≤ 8) ∧ ∀ n ∈ u.riseSet, n < 6

end Sys2Proof.Claims

/-- CONFIG_FEED (R150) sets slot and good timeout in DOWN and completes OK with the old slot; CONFIG_SUPPLY (R151)
sets the slot interval, power-down mode and policy in DOWN and UP and completes OK; CLEAR_FAULT (R154) makes the named
feeds in FAULT OFF in DOWN and UP and completes OK with their mask. In the other states each completes BUSY and
changes nothing. -/
def Obligations.FeedAndSupplySettings : Prop :=
  ∀ (s : State) (q : Nat) (b : RecordBody), takes s q b →
    (passes s .configFeed b →
      (s.supply.state = .down →
        exec (.configFeed b) s =
          .next (State.finishNow
            { taken s q with
              supply := { s.supply with
                feeds := s.supply.feeds.set Feed.atReset (field b 8 1)
                  { s.supply.feed (field b 8 1) with slot := field b 9 1, timeoutMs := 10 * field b 10 1 } } }
            (noted s q b) .ok (s.supply.feed (field b 8 1)).slot)) ∧
      (s.supply.state ≠ .down →
        exec (.configFeed b) s = .next ((taken s q).finishNow (noted s q b) .busy 0))) ∧
    (passes s .configSupply b →
      (s.supply.state = .down ∨ s.supply.state = .up →
        exec (.configSupply b) s =
          .next (State.finishNow
            { taken s q with
              supply := { s.supply with
                slotIntervalMs := 10 * field b 8 1
                mode := if field b 9 1 = 0 then .sequential else .together
                policy := if field b 10 1 = 0 then .isolate else .all } }
            (noted s q b) .ok 0)) ∧
      (s.supply.state = .rising ∨ s.supply.state = .falling →
        exec (.configSupply b) s = .next ((taken s q).finishNow (noted s q b) .busy 0))) ∧
    (passes s .clearFault b →
      (s.supply.state = .down ∨ s.supply.state = .up →
        ∃ (u : Supply) (mask : Nat),
          exec (.clearFault b) s =
            .next (State.finishNow { taken s q with supply := u } (noted s q b) .ok mask) ∧
          u = { s.supply with feeds := u.feeds } ∧
          (∀ n, u.feed n =
            if n < 6 ∧ (field b 8 1).testBit n = true ∧ (s.supply.feed n).state = .fault then
              { s.supply.feed n with state := .off, deadline := none, cause := none }
            else s.supply.feed n) ∧
          mask < 64 ∧
          ∀ n < 6, mask.testBit n =
            ((field b 8 1).testBit n && decide ((s.supply.feed n).state = .fault))) ∧
      (s.supply.state = .rising ∨ s.supply.state = .falling →
        exec (.clearFault b) s = .next ((taken s q).finishNow (noted s q b) .busy 0)))

/-- R155 with 11.3: QUERY_FEEDS completes OK at once in any state with the sequencer state, the current slot, the trip
policy, the power-down mode and the state of each feed, and changes nothing. -/
def Obligations.QueryFeedsReportsTheSupply : Prop :=
  ∀ (s : State) (q : Nat) (b : RecordBody), takes s q b → passes s .queryFeeds b →
    ∃ word, exec (.queryFeeds b) s = .next ((taken s q).finishNow (noted s q b) .ok word) ∧
      word =
        (match s.supply.state with
          | .down => 0
          | .rising => 1
          | .up => 2
          | .falling => 3) + 4 * s.supply.currentSlot + (if s.supply.policy = .all then 64 else 0) +
        (if s.supply.mode = .together then 128 else 0) +
        256 * (feedCode (s.supply.feed 0) + 4 * feedCode (s.supply.feed 1) + 16 * feedCode (s.supply.feed 2) +
          64 * feedCode (s.supply.feed 3) + 256 * feedCode (s.supply.feed 4) + 1024 * feedCode (s.supply.feed 5))

/-- POWER_UP (R152): BUSY while RISING or FALLING; FEED_FAULT with the fault mask under policy ALL with a sequenced
feed in FAULT. Otherwise the rise set is every sequenced feed that is OFF. If it is empty the sequencer is UP and the
request completes at once; if not, the request is the rise request, the lowest slot of the set begins, and the rise
goes on as far as it can (R147). POWER_DOWN (R153): BUSY while FALLING; in DOWN it completes OK with the fault mask;
in UP it is the fall request and a falling sequence begins (R149); in RISING the rise request first completes ABORTED
with the fault mask and the rise set is emptied. A slot interval of 0 has ended when the step begins: R147 says so of a
rising step, and of a falling one it is the model's inference (log entry 5, unsafe). -/
def Obligations.PowerUpAndDownBeginSequences : Prop :=
  (∀ (s : State) (q : Nat) (b : RecordBody), takes s q b → passes s .powerUp b → legalSlots s.supply →
     (s.supply.state = .rising ∨ s.supply.state = .falling →
       exec (.powerUp b) s = .next ((taken s q).finishNow (noted s q b) .busy 0)) ∧
     (s.supply.state = .down ∨ s.supply.state = .up →
       (s.supply.policy = .all ∧ faultsOf s.supply ≠ 0 →
         exec (.powerUp b) s = .next ((taken s q).finishNow (noted s q b) .feedFault (faultsOf s.supply))) ∧
       (s.supply.policy = .isolate ∨ faultsOf s.supply = 0 →
         ((∀ n < 6, 1 ≤ (s.supply.feed n).slot → (s.supply.feed n).state ≠ .off) →
           (everyFeedOn s.supply →
             exec (.powerUp b) s =
               .next (State.finishNow { taken s q with supply := { s.supply with state := .up } } (noted s q b) .ok 0)) ∧
           (¬everyFeedOn s.supply →
             exec (.powerUp b) s =
               .next (State.finishNow { taken s q with supply := { s.supply with state := .up } } (noted s q b)
                 .feedFault (faultsOf s.supply)))) ∧
         ((∃ n < 6, 1 ≤ (s.supply.feed n).slot ∧ (s.supply.feed n).state = .off) →
           ∃ a m t j,
             a = { taken s q with
               supply := { s.supply with riseSet := a.supply.riseSet, rise := some (owes (noted s q b)) } } ∧
             (∀ n, n ∈ a.supply.riseSet ↔ n < 6 ∧ 1 ≤ (s.supply.feed n).slot ∧ (s.supply.feed n).state = .off) ∧
             nextUp a.supply 0 j ∧ slotBegins a m j ∧ RiseGoesOn m t ∧ exec (.powerUp b) s = .next t)))) ∧
  (∀ (s : State) (q : Nat) (b : RecordBody), takes s q b → passes s .powerDown b → legalSlots s.supply →
     (s.supply.state = .falling →
       exec (.powerDown b) s = .next ((taken s q).finishNow (noted s q b) .busy 0)) ∧
     (s.supply.state = .down →
       exec (.powerDown b) s = .next ((taken s q).finishNow (noted s q b) .ok (faultsOf s.supply))) ∧
     (s.supply.state = .up →
       ∃ t, exec (.powerDown b) s = .next t ∧
         FallBegins { taken s q with supply := { s.supply with fall := some (owes (noted s q b)) } } t) ∧
     (s.supply.state = .rising →
       ∃ m t, m = finished { taken s q with supply := { s.supply with rise := none, riseSet := [] } } s.supply.rise
           .aborted (faultsOf s.supply) ∧
         exec (.powerDown b) s = .next t ∧
         FallBegins { m with supply := { m.supply with fall := some (owes (noted s q b)) } } t))

/-- The good inputs and the good deadline (R143, R144, R145). A RAMPING feed whose input becomes asserted is ON, and
the rise goes on as far as it can; an ON feed whose input becomes deasserted enters FAULT with cause DROPPED, and a
RAMPING feed whose deadline is reached with cause TIMEOUT; the policy follows, and may trip the supply (R148). In its other
states a feed only keeps the level of its input; a deadline that does not exist changes nothing (log entry 3). Two things in
a trip are the model's: the start slot that SUPPLY_TRIPPED reports of a TOGETHER fall is a free value (log entry 2), and a
falling step with a slot interval of 0 has ended when it begins (log entry 5, by inference, unsafe). -/
def Obligations.GoodInputsAndDeadlines : Prop :=
  ∀ (s : State) (n : Fin 6), legalSlots s.supply →
    ((s.supply.feed n).state = .ramping →
      ∃ t, exec (.feedGoodAsserted n) s = .next t ∧
        RiseGoesOn
          { s with
            supply := { s.supply with
              feeds := s.supply.feeds.set Feed.atReset n
                { s.supply.feed n with state := .on, deadline := none, good := true } } } t) ∧
    ((s.supply.feed n).state ≠ .ramping →
      exec (.feedGoodAsserted n) s =
        .next { s with
          supply := { s.supply with
            feeds := s.supply.feeds.set Feed.atReset n { s.supply.feed n with good := true } } }) ∧
    ((s.supply.feed n).state = .on →
      ∃ t, exec (.feedGoodDeasserted n) s = .next t ∧
        faultFollows
          { s with
            supply := { s.supply with
              feeds := s.supply.feeds.set Feed.atReset n { s.supply.feed n with good := false } } } t n .dropped) ∧
    ((s.supply.feed n).state ≠ .on →
      exec (.feedGoodDeasserted n) s =
        .next { s with
          supply := { s.supply with
            feeds := s.supply.feeds.set Feed.atReset n { s.supply.feed n with good := false } } }) ∧
    ((s.supply.feed n).state = .ramping →
      ∃ t, exec (.goodTimeout n) s = .next t ∧ faultFollows s t n .timeout) ∧
    ((s.supply.feed n).state ≠ .ramping → exec (.goodTimeout n) s = .next s)

/-- RISE_INTERVAL_END and FALL_INTERVAL_END (R147, R149): the end of the step's interval is reached, and the rise or
the falling sequence goes on as far as it can. Of a sequencer that is not RISING no rising step's interval runs, and
of one that is not FALLING no falling step's: the command changes nothing there, in DOWN and UP too (log entry 3). A slot
interval of 0 has ended when the step begins, so that the sequence goes on in the same command: R147 says so of a rising
step, and of a falling one it is the model's inference (log entry 5, unsafe). -/
def Obligations.SlotIntervalsEnd : Prop :=
  ∀ s : State,
    (∀ i, legalSlots s.supply → s.supply.interval = some i → s.supply.state = .rising →
      ∃ t, exec .riseIntervalEnd s = .next t ∧
        RiseGoesOn { s with supply := { s.supply with interval := some { i with reached := true } } } t) ∧
    (∀ i, legalSlots s.supply → s.supply.interval = some i → s.supply.state = .falling →
      ∃ t, exec .fallIntervalEnd s = .next t ∧
        FallGoesOn { s with supply := { s.supply with interval := some { i with reached := true } } } t) ∧
    (s.supply.state ≠ .rising → exec .riseIntervalEnd s = .next s) ∧
    (s.supply.state ≠ .falling → exec .fallIntervalEnd s = .next s)

/-! ## Frame start and latch -/

namespace Sys2Proof.Claims

open Machine Safety

/-- A playback has no work of its own at frame start `f`. A FOLLOW head without a due frame follows a cue that is in
flight (R60); unless the playback is PAUSED, a head that is due by then finds four cues in flight, and no DELAYED cue is
due then (R58, R61, R68). A head that is MANUAL, or WITH and appended, has no due frame. -/
def waitsAt (q : Playback) (f : Nat) : Prop :=
  (∀ c rest, q.pending = c :: rest →
    (c.trigger = .follow → c.due = none → ∃ id, q.lastTrigger = .inFlight id) ∧
    (q.paused = none → q.inFlight.length < 4 → ∀ d, c.due = some d → f < d)) ∧
  (q.paused = none → ∀ c ∈ q.inFlight, c.state = .delayed → c.due ≠ some f)

/-- Nothing is to be done at frame start `f` but to advance the frame: nothing is staged for it, no load-end notice is
stamped with it, no slot ends at it, and no playback has a cue that waits for it. -/
def quietAt (s : State) (f : Nat) : Prop :=
  (∀ e ∈ s.controller.staged, e.frame ≠ f) ∧ (∀ e ∈ s.bands.staged, e.frame ≠ f) ∧
  (∀ e ∈ s.clock.staged, e.frame ≠ f) ∧ (∀ e ∈ s.groups.commits, e.frame ≠ f) ∧ (∀ e ∈ s.ports.staged, e.frame ≠ f) ∧
  (∀ n ∈ s.store.notices, n.frame ≠ f) ∧
  (∀ k r, s.engine.slot k = .inUse r → r.pausedAt = none → r.start + r.length + r.accumulatedPause ≠ f) ∧
  ∀ p, waitsAt (s.controller.playback p) f

/-- But for staged requests, nothing is to be done at frame start `f`. -/
def calmAt (s : State) (f : Nat) : Prop :=
  (∀ n ∈ s.store.notices, n.frame ≠ f) ∧
  (∀ k r, s.engine.slot k = .inUse r → r.pausedAt = none → r.start + r.length + r.accumulatedPause ≠ f) ∧
  ∀ p, waitsAt (s.controller.playback p) f

/-- The entries of a staged list that are stamped `f`. -/
def stamped {ρ : Type} (f : Nat) (l : List (Staged ρ)) : List (Staged ρ) := l.filter (fun e => e.frame = f)

/-- The first entry of a staged list that is stamped `f`, and the list without it. -/
def firstDue {ρ : Type} (f : Nat) (l : List (Staged ρ)) (e : Staged ρ) (rest : List (Staged ρ)) : Prop :=
  ∃ before after, l = before ++ e :: after ∧ rest = before ++ after ∧ e.frame = f ∧ ∀ x ∈ before, x.frame ≠ f

/-- What a step of the controller other than the staged pass does. -/
def stepDone (w : FrameWork) : ControllerStep → FrameWork
  | .stagedPass => w
  | .sweep p => w.sweep p
  | .fadeStart p id => w.fadeStart p id
  | .wake p id => w.wakeCue p id
  | .tryHead p => w.tryHead p
  | .goChain p n o => w.goChain p n o
  | .releaseRead p given o => w.releaseRead p given o
  | .releaseSlot p length o => w.releaseSlot p length o
  | .snap p o => w.applySnap p o
  | .awaitReset _ => w

/-- One piece of work: a block takes the first of its staged entries of the frame, the oldest of its released requests or
of its notices, a slot that reaches its end, the controller's next step, its show-reset notice, or the report on the
show-reset order, and does with it what the page of that kind says. -/
inductive Piece (w : FrameWork) : WorkItem → FrameWork → Prop
  | commit (e : Staged Nat) (rest : List (Staged Nat)) (h : firstDue w.s.clock.frame w.s.groups.commits e rest) :
      Piece w .commit
        (FrameWork.applyCommit { w with s := { w.s with groups := { w.s.groups with commits := rest } } } e.owed
          e.request)
  | composer (e : Staged ClockRequest) (rest : List (Staged ClockRequest))
      (h : firstDue w.s.clock.frame w.s.clock.staged e rest) :
      Piece w .composerStaged
        (FrameWork.applyClock { w with s := { w.s with clock := { w.s.clock with staged := rest } } } e.owed e.request)
  | port (e : Staged PortRequest) (rest : List (Staged PortRequest))
      (h : firstDue w.s.clock.frame w.s.ports.staged e rest) :
      Piece w .portStaged
        { w with s := State.applyConfigPort { w.s with ports := { w.s.ports with staged := rest } } e }
  | band (e : Staged BandRequest) (rest : List (Staged BandRequest))
      (h : firstDue w.s.clock.frame w.s.bands.staged e rest) :
      Piece w .bandStaged
        (FrameWork.applyBand { w with s := { w.s with bands := { w.s.bands with staged := rest } } } e.owed e.request)
  | playback (e : Staged PlaybackRequest) (rest : List (Staged PlaybackRequest)) (later : List ControllerStep)
      (h : firstDue w.s.clock.frame w.s.controller.staged e rest) (ho : w.atOnce = [])
      (ha : w.agenda = .stagedPass :: later) :
      Piece w .controllerStep
        (FrameWork.applyPlayback { w with s := { w.s with controller := { w.s.controller with staged := rest } } }
          e.owed e.request)
  | passOver (later : List ControllerStep) (h : ∀ e ∈ w.s.controller.staged, e.frame ≠ w.s.clock.frame)
      (ho : w.atOnce = []) (ha : w.agenda = .stagedPass :: later) :
      Piece w .controllerStep { w with agenda := later, stagedOver := true }
  | step (c : ControllerStep) (later : List ControllerStep) (ho : w.atOnce = []) (ha : w.agenda = c :: later)
      (hc : c ≠ .stagedPass) : Piece w .controllerStep (stepDone { w with agenda := later } c)
  | stepAtOnce (c : ControllerStep) (later : List ControllerStep) (ho : w.atOnce = c :: later)
      (hc : c ≠ .stagedPass) : Piece w .controllerStep (stepDone { w with atOnce := later } c)
  | composerReleased (o : Owed) (q : ComposeRequest) (rest : List (Owed × ComposeRequest))
      (h : w.toComposer = (o, q) :: rest) :
      Piece w .composerReleased (FrameWork.takeReleasedCompose { w with toComposer := rest } o q)
  | playbackReleased (o : Owed) (q : PlaybackRequest) (rest : List (Owed × PlaybackRequest))
      (h : w.toController = (o, q) :: rest) :
      Piece w .playbackReleased (FrameWork.takeReleased { w with toController := rest } o q)
  | bandReleased (o : Owed) (q : BandRequest) (rest : List (Owed × BandRequest)) (h : w.toBands = (o, q) :: rest) :
      Piece w .bandReleased (FrameWork.takeReleasedBand { w with toBands := rest } o q)
  | slotMustEnd (k : Nat) (h : k ∈ w.mustEnd) :
      Piece w (.slotMustEnd k) (FrameWork.endSlot { w with mustEnd := w.mustEnd.erase k } k)
  | slotEnd (k : Nat) (r : FadeRun) (h : w.s.engine.slot k = .inUse r) (hp : r.pausedAt = none)
      (he : r.start + r.length + r.accumulatedPause = w.s.clock.frame) : Piece w (.slotEnd k) (w.endSlot k)
  | endNotice (n : EndNotice) (rest : List EndNotice) (h : w.notices = n :: rest) :
      Piece w .endNotice (FrameWork.takeNotice { w with notices := rest } n)
  | loadEnd (n : LoadEndNotice) (before after : List LoadEndNotice) (h : w.s.store.notices = before ++ n :: after)
      (hf : n.frame = w.s.clock.frame) (hb : ∀ x ∈ before, x.frame ≠ w.s.clock.frame) :
      Piece w .loadEndNotice
        (FrameWork.takeLoadEnd { w with s := { w.s with store := { w.s.store with notices := before ++ after } } }
          n.scene)
  | resetArbiter : Piece w .resetArbiter w.showResetArbiter
  | resetStore : Piece w .resetStore w.showResetStore
  | resetEngine : Piece w .resetEngine w.showResetEngine
  | resetController : Piece w .resetController w.showResetController
  | resetBands : Piece w .resetBands w.showResetBands
  | resetGroups : Piece w .resetGroups w.showResetGroups
  | resetReport (h : w.resetLosses ≠ []) : Piece w .resetReport w.takeResetReport
  | answer (a : LoadAnswer) (rest : List LoadAnswer) (h : w.answers = a :: rest) :
      Piece w .loadAnswer (FrameWork.takeAnswer { w with answers := rest } a)
  | arrival (a : IntakeArrival) (rest : List IntakeArrival) (h : w.intake = a :: rest) :
      Piece w .intakeArrival (FrameWork.takeArrival { w with intake := rest } a)

/-- Nothing is left to do at this frame start: no staged entry of the frame in any list, no released request, no notice,
no report on a show reset, no answer of the host and no arrival that comes inside it, no step, no slot that has to end, and no block that waits for
the show reset or has it still to take. -/
def nothingLeft (w : FrameWork) : Prop :=
  (∀ e ∈ w.s.controller.staged, e.frame ≠ w.s.clock.frame) ∧ (∀ e ∈ w.s.bands.staged, e.frame ≠ w.s.clock.frame) ∧
  (∀ e ∈ w.s.clock.staged, e.frame ≠ w.s.clock.frame) ∧ (∀ e ∈ w.s.ports.staged, e.frame ≠ w.s.clock.frame) ∧
  (∀ e ∈ w.s.groups.commits, e.frame ≠ w.s.clock.frame) ∧ w.toController = [] ∧ w.toBands = [] ∧ w.toComposer = [] ∧
  w.answers = [] ∧ w.intake = [] ∧ w.agenda = [] ∧ w.atOnce = [] ∧ w.notices = [] ∧ w.resetLosses = [] ∧
  (∀ n ∈ w.s.store.notices, n.frame ≠ w.s.clock.frame) ∧ w.mustEnd = [] ∧ w.engineWaits = false ∧ w.bandWaits = none ∧
  (∀ k r, w.s.engine.slot k = .inUse r → r.pausedAt = none →
    r.start + r.length + r.accumulatedPause ≠ w.s.clock.frame) ∧
  (w.resetSent = true → w.resetArbiter = true ∧ w.resetStore = true ∧ w.resetEngine = true ∧
    w.resetController = true ∧ w.resetBands = true ∧ w.resetGroups = true)

/-- The blocks go on, piece by piece, each time with one that may be taken (log entry 1), until nothing is left. -/
inductive Works : FrameWork → FrameWork → Prop
  | finished (w : FrameWork) (h : nothingLeft w) : Works w w
  | piece (w v u : FrameWork) (i : WorkItem) (hi : i ∈ w.enabled) (h : Piece w i v) (rest : Works v u) : Works w u

/-- What the blocks find at the next frame start: these staged requests of the controller and the Band Unit, these
COMMITs, these load-end notices, the end of these slots, and nothing else. (What is applied beside other work is
`FrameStartAdvancesTheFrame`: each piece of the work is what the page of its kind says, and none is left.) -/
def finds (s : State) (c : List (Staged PlaybackRequest)) (b : List (Staged BandRequest)) (g : List (Staged Nat))
    (n : List LoadEndNotice) (ends : List Nat) : Prop :=
  stamped (s.clock.frame + 1) s.controller.staged = c ∧ stamped (s.clock.frame + 1) s.bands.staged = b ∧
  stamped (s.clock.frame + 1) s.groups.commits = g ∧ stamped (s.clock.frame + 1) s.clock.staged = [] ∧
  stamped (s.clock.frame + 1) s.ports.staged = [] ∧ s.store.notices.filter (fun x => x.frame = s.clock.frame + 1) = n ∧
  (∀ k, k ∈ ends ↔ ∃ r, s.engine.slot k = .inUse r ∧ r.pausedAt = none ∧
    r.start + r.length + r.accumulatedPause = s.clock.frame + 1) ∧
  ∀ p, waitsAt (s.controller.playback p) (s.clock.frame + 1)

/-- The controller at a point of its own two passes, where nothing it finds makes more work: it is in its staged pass, or
`n` visits of its sweep are over, with the head of the playback visited last perhaps still to be tried (R58). -/
def standsAt (agenda : List ControllerStep) (passed : Bool) : Prop :=
  (agenda = .stagedPass :: (List.range 16).map ControllerStep.sweep ∧ passed = false) ∨
  (passed = true ∧ ∃ n ≤ 16,
    agenda = ((List.range 16).map ControllerStep.sweep).drop n ∨
    ∃ p, p + 1 = n ∧ agenda = .tryHead p :: ((List.range 16).map ControllerStep.sweep).drop n)

/-- The work of the next frame start, with what is stamped with it taken off the lists, and with this the rest of the
controller's own two passes (`standsAt` says which rests there are). -/
def begun (s : State) (agenda : List ControllerStep) (passed : Bool) : FrameWork :=
  { s.beginFrame (s.clock.frame + 1) with
    agenda := agenda
    stagedOver := passed
    s := { (s.beginFrame (s.clock.frame + 1)).s with
      controller := { (s.beginFrame (s.clock.frame + 1)).s.controller with
        staged := s.controller.staged.filter (fun e => e.frame ≠ s.clock.frame + 1) }
      bands := { s.bands with staged := s.bands.staged.filter (fun e => e.frame ≠ s.clock.frame + 1) }
      groups := { s.groups with commits := s.groups.commits.filter (fun e => e.frame ≠ s.clock.frame + 1) }
      store := { s.store with notices := s.store.notices.filter (fun x => x.frame ≠ s.clock.frame + 1) } } }

/-- A frame start inside which no load data arrives, and no record. -/
def undisturbed (order : List Nat) : FrameCourse := { picks := order, answers := [], intake := [] }

/-- FRAME_START, with no load data and no record inside it, does what is done in `w`, and what follows from it, and nothing is left. -/
def frameStartDoes (order : List Nat) (s : State) (w : FrameWork) : Prop :=
  ∃ v, exec (.frameStart (undisturbed order)) s = .next v.s ∧ Works w v

/-- No load can end inside the frame start: no data arrives, or there is no load. -/
def noLoadEnds (course : FrameCourse) (s : State) : Prop := course.answers = [] ∨ s.store.loads = []

/-- A load without what the data that has come so far changes of it. -/
def asQueued (l : Load) : Load := { l with received := 0, fetching := false }

end Sys2Proof.Claims

/-- FRAME_START, in any state and with its open orders settled in any way (R100, R101): the frame number rises by one, and
the blocks do all the work they have for the new frame, piece by piece: each staged entry of the frame is applied by
the page of its kind (R58, R103), each released request is taken by its owner (R124), each slot whose end frame this
is ends (R47), each end notice and each load-end notice of the frame is taken (R64, R66), load data that arrives in the
midst of it comes in at any point (R28, R81, R97), requests that arrive in the midst of it join their groups at any
point (R123, R126; what else may arrive there is log entry 42), and nothing of it is left.
The work begins with the controller's staged pass and its sweep over the 16 playbacks still to come. Whatever it is,
no last level changes (R2), no feed or sequencer field does, no port's line or latest accepted configuration, no level
snapshot, no register or event; staged lists only lose entries, loads leave the load queue from its head only (R24),
the hold list gains at most one request for each arrival (R119), and no pending list grows (R55). In
what order the pieces are taken is log entry 1, which names the orders that the model fixes; how the controller waits
and what it does at once are log entries 35 to 39, what one piece takes together 51, where notices are taken 52. -/
def Obligations.FrameStartAdvancesTheFrame : Prop :=
  ∀ (course : FrameCourse) (s : State), canonical s →
    ∃ t, exec (.frameStart course) s = .next t ∧ t.clock.frame = s.clock.frame + 1 ∧
      (∃ w v : FrameWork, w = { s.beginFrame (s.clock.frame + 1) with answers := course.answers, intake := course.intake } ∧
        v.s = t ∧ Works w v ∧
        w.s = { s with clock := { s.clock with frame := s.clock.frame + 1 }, controller := w.s.controller } ∧
        w.s.controller.staged = s.controller.staged ∧
        w.agenda = .stagedPass :: (List.range 16).map ControllerStep.sweep ∧ w.atOnce = [] ∧ w.notices = [] ∧
        w.mustEnd = [] ∧ w.toController = [] ∧ w.toBands = [] ∧ w.toComposer = [] ∧ w.resetSent = false ∧ w.resetLosses = []) ∧
      (∀ c, (t.arbiter.channel c).last = (s.arbiter.channel c).last) ∧ t.supply = s.supply ∧
      (∀ k, (t.ports.port k).line = (s.ports.port k).line ∧ (t.ports.port k).accepted = (s.ports.port k).accepted) ∧
      t.clock.acceptedPeriod = s.clock.acceptedPeriod ∧ t.clock.safe = s.clock.safe ∧ t.clock.reads = s.clock.reads ∧
      t.clock.staged.Sublist s.clock.staged ∧ t.controller.staged.Sublist s.controller.staged ∧
      t.bands.staged.Sublist s.bands.staged ∧ t.ports.staged.Sublist s.ports.staged ∧
      t.groups.commits.Sublist s.groups.commits ∧
      (∃ joined : List HeldRequest, joined.length ≤ course.intake.length ∧
        t.groups.hold.Sublist (s.groups.hold ++ joined)) ∧
      (noLoadEnds course s → t.store.loads = s.store.loads ∨ t.store.loads = []) ∧
      (∃ k, t.store.loads.map asQueued = (s.store.loads.drop k).map asQueued) ∧ t.store.notices.Sublist s.store.notices ∧
      t.store.nextLoad = s.store.nextLoad ∧
      (∀ p, (t.controller.playback p).pending.length ≤ (s.controller.playback p).pending.length ∧
        (t.controller.playback p).inFlight.length ≤ max (s.controller.playback p).inFlight.length 4) ∧
      t.host =
        { s.host with
          submission := t.host.submission
          completion := t.host.completion
          writes := t.host.writes
          intakePause := t.host.intakePause
          fetch := t.host.fetch
          lastGranted := t.host.lastGranted } ∧
      (course.intake = [] → t.host.fetch = s.host.fetch ∧ t.host.lastGranted = s.host.lastGranted) ∧
      (∀ n, (t.host.sq n).tail = (s.host.sq n).tail) ∧ (∀ m, (t.host.cq m).head = (s.host.cq m).head) ∧
      t.pending = s.pending

/-- A frame start that finds no work, and inside which no load ends, does nothing but advance the frame number and take what
arrives at the host interface, in the order in which it arrives, however its open orders are settled (R58, R101, R123).
Data that arrives with no load in the queue is discarded (R26, R32, R33). -/
def Obligations.QuietFrameStartOnlyCounts : Prop :=
  ∀ (course : FrameCourse) (s : State), canonical s → quietAt s (s.clock.frame + 1) → noLoadEnds course s →
    exec (.frameStart course) s =
      .next (course.intake.foldl State.intakeArrival { s with clock := { s.clock with frame := s.clock.frame + 1 } })

/-- LATCH writes the engine level of the current frame into every channel's last level: the entry's level in FREE and
SETTLED, the slot's level in FADING, the band's value in BAND (R2). No channel changes its owner, and no slot, band,
playback, scene, feed or waiting request changes. -/
def Obligations.LatchWritesLastLevels : Prop :=
  ∀ (safe : Bool) (s : State), canonical s →
    ∃ t, exec (.latch safe) s = .next t ∧
      (∀ c, (t.arbiter.channel c).holding = (s.arbiter.channel c).holding) ∧
      (∀ c level, (s.arbiter.channel c).holding = .free level → (t.arbiter.channel c).last = level) ∧
      (∀ c p q level, (s.arbiter.channel c).holding = .settled p q level → (t.arbiter.channel c).last = level) ∧
      (∀ c p q k a b r, (s.arbiter.channel c).holding = .fading p q k a b → s.engine.slot k = .inUse r →
        (t.arbiter.channel c).last = r.level s.clock.frame a b) ∧
      (∀ c g q d r, (s.arbiter.channel c).holding = .band g q → s.bands.band g = .running d r →
        (t.arbiter.channel c).last = bandValue d r s.clock.frame c) ∧
      t.store = s.store ∧ t.engine = s.engine ∧ t.controller = s.controller ∧ t.bands = s.bands ∧
      t.groups = s.groups ∧ t.supply = s.supply ∧ t.pending = s.pending ∧
      t.clock = { s.clock with safe := t.clock.safe, reads := t.clock.reads } ∧
      t.ports.staged = s.ports.staged ∧ t.host = { s.host with events := t.host.events }

namespace Sys2Proof.Claims

open Machine Safety

/-- The composed level of channel `c` (R104), from its engine level at the latch: the level of the first range of the
park list that covers it, or floor(engine level × master / 65535). -/
def composed (s : State) (engineLevel : Level) (c : Nat) : Level :=
  match s.clock.parks.find? (fun r => r.first ≤ c ∧ c < r.first + r.count) with
  | some r => r.level
  | none => BitVec.ofNat 16 (engineLevel.toNat * s.clock.master.toNat / 65535)

/-- A level in host memory (11, opening; 11.5): two bytes, the least significant first. -/
def levelBytes (v : Level) : List Byte := [v.setWidth 8, (v >>> 8).setWidth 8]

/-- The composed levels of a run of channels at the latch that left state `t`. -/
def composedFrom (s t : State) (first count : Nat) : List Level :=
  (List.range count).map (fun i => composed s (t.arbiter.channel (first + i)).last (first + i))

/-- A port may send: it has no feed, or its feed is ON (R132). -/
def feedAllows (s : State) (c : PortConfig) : Prop := ∀ n, c.feed = some n → (s.supply.feed n).state = .on

end Sys2Proof.Claims

/-- LATCH at the ports (R132, R133, R104, R105) and the snapshots (R114), and its sample of SAFE_IN (R106). An enabled
port whose feed allows it sends the wire frame of its slice: its safe level for every channel under the safe look, the
composed levels otherwise. A port whose feed does not is HELD with its echo fields cleared and sends nothing; a
DISABLED port is left. A snapshot whose capture frame this is captures the composed levels and holds the bytes that go
to host memory, two for each channel in ascending order. A change of the sample raises SAFE_ENTERED or SAFE_LEFT. -/
def Obligations.LatchSendsAndCaptures : Prop :=
  ∀ (safe : Bool) (s : State), canonical s →
    ∃ t, exec (.latch safe) s = .next t ∧ t.clock.safe = safe ∧
      t.host.events =
        (if safe = s.clock.safe then s.host.events
         else joined s.host.events (eventNow s (if safe then .safeEntered else .safeLeft) 0 0)) ∧
      t.clock.reads = s.clock.reads.map (fun r =>
        if r.captureFrame = s.clock.frame ∧ r.area = none then
          { r with area := some ((composedFrom s t r.first r.count).flatMap levelBytes) }
        else r) ∧
      ∀ k,
        ((s.ports.port k).state = .disabled → t.ports.port k = s.ports.port k) ∧
        ((s.ports.port k).state ≠ .disabled → feedAllows s (s.ports.port k).applied →
          t.ports.port k =
            { s.ports.port k with
              state := if (s.ports.port k).state = .held then .sending else (s.ports.port k).state
              line := .sending (wireFrame (s.ports.port k).applied s.clock.frame
                (if safe then
                  List.replicate ((s.ports.port k).applied.pixels * (s.ports.port k).applied.components)
                    (s.ports.port k).applied.safe
                 else
                  composedFrom s t (s.ports.port k).applied.first
                    ((s.ports.port k).applied.pixels * (s.ports.port k).applied.components))) }) ∧
        ((s.ports.port k).state ≠ .disabled → ¬feedAllows s (s.ports.port k).applied →
          (t.ports.port k).state = .held ∧ (t.ports.port k).line = (s.ports.port k).line ∧
          (t.ports.port k).applied = (s.ports.port k).applied ∧
          (t.ports.port k).accepted = (s.ports.port k).accepted ∧
          ((s.ports.port k).state = .held → t.ports.port k = s.ports.port k) ∧
          ((s.ports.port k).state ≠ .held →
            (t.ports.port k).missCount = 0 ∧ (t.ports.port k).goodCount = 0 ∧ (t.ports.port k).lostAt = none))

namespace Sys2Proof.Claims

open Machine

/-- The bits of a byte as they are sent, the most significant first (11.6). -/
def wireBits (b : Byte) : List Bool := [7, 6, 5, 4, 3, 2, 1, 0].map (fun i => b.getLsbD i)

/-- One bit of the check (11.6). -/
def crcBit (c : BitVec 16) (bit : Bool) : BitVec 16 :=
  (c <<< 1) ^^^ (if c.getLsbD 15 = bit then 0#16 else 0x1021#16)

end Sys2Proof.Claims

/-- The wire frame (R133, 11.6), byte by byte: the marker, the low 8 bits of the frame number, the format and the
check most significant byte first, and then the slice, pixel by pixel, from the last pixel to pixel 0 when reversed,
component 0 first; at depth 16 both bytes of each value, the most significant first, at depth 8 its upper eight bits.
The check is the 16-bit CRC of bytes 1, 2, 3 and every data byte, bit by bit from the most significant: from 0xFFFF,
each bit shifts it left by one, and the polynomial 0x1021 is added when the bit and the bit shifted out differ. -/
def Obligations.WireFrameLayout : Prop :=
  ∀ (c : PortConfig) (n : Nat) (slice : List Level), c.pixels ≤ 512 → c.components = 3 ∨ c.components = 4 →
    c.depth = 8 ∨ c.depth = 16 → slice.length = c.pixels * c.components →
    (wireFrame c n slice).frame = n ∧ (wireFrame c n slice).sequence = BitVec.ofNat 8 n ∧
    (wireFrame c n slice).bytes.length = 6 + c.pixels * c.components * (c.depth / 8) ∧
    (wireFrame c n slice).bytes.take 6 =
      [0xA5#8, BitVec.ofNat 8 n,
        BitVec.ofNat 8 (c.pixels / 256 + (if c.components = 4 then 4 else 0) + (if c.depth = 16 then 8 else 0)),
        BitVec.ofNat 8 c.pixels, ((wireFrame c n slice).check >>> 8).setWidth 8,
        (wireFrame c n slice).check.setWidth 8] ∧
    (wireFrame c n slice).check =
      ((((wireFrame c n slice).bytes.take 4).drop 1 ++ (wireFrame c n slice).bytes.drop 6).flatMap wireBits).foldl crcBit
        0xFFFF#16 ∧
    ∀ i < c.pixels, ∀ m < c.components, ∀ level,
      slice[(if c.reversed then c.pixels - 1 - i else i) * c.components + m]? = some level →
      (c.depth = 16 →
        (wireFrame c n slice).bytes[6 + 2 * (i * c.components + m)]? = some ((level >>> 8).setWidth 8) ∧
        (wireFrame c n slice).bytes[7 + 2 * (i * c.components + m)]? = some (level.setWidth 8)) ∧
      (c.depth = 8 →
        (wireFrame c n slice).bytes[6 + (i * c.components + m)]? = some ((level >>> 8).setWidth 8))

/-! ## Echo -/

namespace Sys2Proof.Claims

open Machine Safety

/-- The echo is GOOD: a record arrived, with the sequence and the check that were sent (R135). -/
def echoGood (w : WireFrame) (echo : Option (Byte × BitVec 16)) : Prop := echo = some (w.sequence, w.check)

/-- What a port is after its verdict, but for its line, and the event that the verdict raises (R131, R135, R136). -/
inductive Judged (p : Port) (w : WireFrame) (echo : Option (Byte × BitVec 16)) :
    Port → Option (EventKind × Nat) → Prop
  | unjudged (h : p.applied.echoCheck = false ∨ p.state = .held ∨ p.state = .disabled) : Judged p w echo p none
  | hit (he : p.applied.echoCheck = true) (hs : p.state = .sending) (hg : echoGood w echo) :
      Judged p w echo { p with missCount := 0 } none
  | miss (he : p.applied.echoCheck = true) (hs : p.state = .sending) (hg : ¬echoGood w echo) (hc : p.missCount ≤ 1) :
      Judged p w echo { p with missCount := p.missCount + 1 } none
  | lost (he : p.applied.echoCheck = true) (hs : p.state = .sending) (hg : ¬echoGood w echo) (hc : 2 ≤ p.missCount) :
      Judged p w echo { p with state := .lost, lostAt := some w.frame, missCount := 0, goodCount := 0 }
        (some (.portLost, if echo = none then 2 else 1))
  | stillLost (he : p.applied.echoCheck = true) (hs : p.state = .lost) (hg : ¬echoGood w echo) :
      Judged p w echo { p with goodCount := 0 } none
  | recovering (he : p.applied.echoCheck = true) (hs : p.state = .lost) (hg : echoGood w echo) (hc : p.goodCount ≤ 1) :
      Judged p w echo { p with goodCount := p.goodCount + 1 } none
  | regained (he : p.applied.echoCheck = true) (hs : p.state = .lost) (hg : echoGood w echo) (hc : 2 ≤ p.goodCount)
      (n : Nat) (hl : p.lostAt = some n) :
      Judged p w echo { p with state := .sending, goodCount := 0, missCount := 0, lostAt := none }
        (some (.portRegained, w.frame - n))

/-- The state with port `k` replaced. -/
def withPort (s : State) (k : Nat) (p : Port) : State :=
  { s with ports := { s.ports with records := s.ports.records.set Port.atReset k p } }

end Sys2Proof.Claims

/-- The echo of a port (R133, R135, R136). TRANSMISSION_END opens the window. ECHO_RECORD in a window with echo check
on is kept if it is the first. ECHO_WINDOW_CLOSE gives the verdict, on which the port acts by its state, and PORT_LOST
or PORT_REGAINED is raised for the frame that was sent. A LOST port has the frame that made it LOST (R130). -/
def Obligations.EchoDecidesThePort : Prop :=
  ∀ (s : State) (k : Fin 8) (w : WireFrame),
    ((s.ports.port k).line = .sending w →
      exec (.transmissionEnd k) s = .next (withPort s k { s.ports.port k with line := .window w none })) ∧
    ((s.ports.port k).line = .window w none → (s.ports.port k).applied.echoCheck = true →
      ∀ sequence check, exec (.echoRecord k sequence check) s =
        .next (withPort s k { s.ports.port k with line := .window w (some (sequence, check)) })) ∧
    (∀ echo, (s.ports.port k).line = .window w echo →
      (echo ≠ none ∨ (s.ports.port k).applied.echoCheck = false →
        ∀ sequence check, exec (.echoRecord k sequence check) s = .next (withPort s k (s.ports.port k))) ∧
      (((s.ports.port k).state = .lost → (s.ports.port k).lostAt ≠ none) →
        ∃ p event, Judged (s.ports.port k) w echo p event ∧
          (event = none → exec (.echoWindowClose k) s = .next (withPort s k { p with line := .idle })) ∧
          ∀ kind detail, event = some (kind, detail) →
            exec (.echoWindowClose k) s =
              .next { withPort s k { p with line := .idle } with
                host := { s.host with
                  events := joined s.host.events
                    { kind := kind, object := k, frame := BitVec.ofNat 32 w.frame,
                      detail := BitVec.ofNat 32 detail } } }))

/-! ## Load data -/

namespace Sys2Proof.Claims

open Machine Safety

/-- A load leaves the queue's head, and the next one goes FETCHING (R24). -/
def afterHead : List Load → List Load
  | [] => []
  | l :: rest => { l with fetching := true } :: rest

/-- A scene load fails (R26, R28): the scene is EMPTY, its chain returns, a notice says so for the next frame, and the
request completes. -/
def sceneLoadFails (s : State) (l : Load) (rest : List Load) (id : Nat) (status : Status) (detail : Nat) : State :=
  State.finishNow
    { s with
      store :=
        { s.store with
          scenes := s.store.scenes.set Scene.none id Scene.none
          freeBlocks := s.store.freeBlocks + (s.store.scene id).blocks
          loads := afterHead rest
          notices := s.store.notices ++ [{ scene := id, state := .empty, frame := s.clock.frame + 1 }] } }
    l.ctx status detail

/-- A 16-bit number from two bytes, the least significant first (11, opening). -/
def pairOf (lo hi : Byte) : Nat := lo.toNat + 256 * hi.toNat

/-- The command that brings an answer of the host to a read of load data. -/
def answerCommand : LoadAnswer → Instr
  | .item item => .loadItemReceived item
  | .error => .loadHostReadError

/-- The load at the head of the load queue fills a band. -/
def bandAtHead (s : State) : Prop := ∃ l n, s.store.loads.head? = some l ∧ l.target = .band n

/-- A load that waits for more data, with one more item received (R25). -/
def counted (l : Load) (rest : List Load) : List Load := { l with received := l.received + 1 } :: rest

end Sys2Proof.Claims

/-- LOAD_ITEM_RECEIVED for a scene load (R25, R26, R28). An entry that names a channel above 4095, or one named before
in the load, ends the load BAD_FIELD with its index; any other is written, and the last one ends the load with the
scene READY. LOAD_HOST_READ_ERROR ends the load HOST_READ_ERROR with the entries received. -/
def Obligations.SceneLoadData : Prop :=
  ∀ (s : State) (l : Load) (rest : List Load) (id : Nat) (c0 c1 v0 v1 : Byte), s.store.loads = l :: rest →
    l.target = .scene id →
    (4095 < pairOf c0 c1 ∨ (∃ e ∈ (s.store.scene id).entries, e.1 = pairOf c0 c1) →
      exec (.loadItemReceived { load := l.id, bytes := [c0, c1, v0, v1] }) s =
        .next (sceneLoadFails s l rest id .badField l.received)) ∧
    (pairOf c0 c1 ≤ 4095 → (∀ e ∈ (s.store.scene id).entries, e.1 ≠ pairOf c0 c1) →
      (l.received + 1 < l.itemCount →
        exec (.loadItemReceived { load := l.id, bytes := [c0, c1, v0, v1] }) s =
          .next { s with
            store := { s.store with
              scenes := s.store.scenes.set Scene.none id
                { s.store.scene id with
                  entries := (s.store.scene id).entries ++ [(pairOf c0 c1, BitVec.ofNat 16 (pairOf v0 v1))] }
              loads := counted l rest } }) ∧
      (l.itemCount ≤ l.received + 1 →
        ∃ t : State, exec (.loadItemReceived { load := l.id, bytes := [c0, c1, v0, v1] }) s =
            .next (t.finishNow l.ctx .ok (s.store.scene id).entryCount) ∧
          t =
            { s with
              store :=
                { s.store with
                  scenes := t.store.scenes
                  loads := afterHead rest
                  notices := s.store.notices ++ [{ scene := id, state := .ready, frame := s.clock.frame + 1 }] } } ∧
          ∀ i, t.store.scene i =
            if i = id then
              { s.store.scene id with
                state := .ready
                entries := (s.store.scene id).entries ++ [(pairOf c0 c1, BitVec.ofNat 16 (pairOf v0 v1))] }
            else s.store.scene i)) ∧
    exec .loadHostReadError s = .next (sceneLoadFails s l rest id .hostReadError l.received)

/-- LOAD_ITEM_RECEIVED for a band load (R25, R86, R92): the colour joins the pattern, and the last one leaves the band
STOPPED and completes OK with the length. LOAD_HOST_READ_ERROR leaves the band UNDEFINED and completes HOST_READ_ERROR
with the colours received; with no load in the queue it changes nothing (log entry 3). Data of any other load than the
one at the head, which is over by then, is discarded (R26, R32, R33); a load is known by its number (log entry 31).
Data that arrives in the midst of a frame start, for a scene or for a band, does what its command does between that
frame start and the one before, so that a load that ends there sends its notice stamped with the frame (R28, R81, R97);
it is discarded once the store has taken its show-reset notice (R32), and a band load's once the Band Unit, which ends
the load CANCELLED, has taken its own (R98, log entry 45). -/
def Obligations.BandLoadData : Prop :=
  (∀ (s : State) (l : Load) (rest : List Load) (n : Nat) (d : BandSetup) (bytes : List Byte) (colour : List Level),
    s.store.loads = l :: rest → l.target = .band n → s.bands.band n = .loading d →
    bytes.length = 2 * d.components → colour.length = d.components →
    (∀ m < d.components, ∀ lo hi, bytes[2 * m]? = some lo → bytes[2 * m + 1]? = some hi →
      colour[m]? = some (BitVec.ofNat 16 (pairOf lo hi))) →
    (l.received + 1 < l.itemCount →
      exec (.loadItemReceived { load := l.id, bytes := bytes }) s =
        .next { s with
          store := { s.store with loads := counted l rest }
          bands := { s.bands with
            records := s.bands.records.set Band.undefined n (.loading { d with pattern := d.pattern ++ [colour] }) } }) ∧
    (l.itemCount ≤ l.received + 1 →
      exec (.loadItemReceived { load := l.id, bytes := bytes }) s =
        .next (State.finishNow
          { s with
            store := { s.store with loads := afterHead rest }
            bands := { s.bands with
              records := s.bands.records.set Band.undefined n
                (.stopped { d with pattern := d.pattern ++ [colour] }) } }
          l.ctx .ok l.itemCount)) ∧
    exec .loadHostReadError s =
      .next (State.finishNow
        { s with
          store := { s.store with loads := afterHead rest }
          bands := { s.bands with records := s.bands.records.set Band.undefined n .undefined } }
        l.ctx .hostReadError l.received)) ∧
  (∀ (s : State) (item : LoadItem), (∀ l, s.store.loads.head? = some l → l.id ≠ item.load) →
    exec (.loadItemReceived item) s = .next s) ∧
  (∀ s : State, s.store.loads = [] → exec .loadHostReadError s = .next s) ∧
  ∀ (w : FrameWork) (a : LoadAnswer), 1 ≤ w.s.clock.frame →
    (w.resetStore = true ∨ (w.resetBands = true ∧ bandAtHead w.s) → w.takeAnswer a = w) ∧
    (w.resetStore = false → (w.resetBands = true → ¬bandAtHead w.s) →
      ∃ t, exec (answerCommand a) { w.s with clock := { w.s.clock with frame := w.s.clock.frame - 1 } } = .next t ∧
        w.takeAnswer a =
          { w with
            s := { t with clock := w.s.clock }
            bandLoads := t.store.loads.filterMap (fun l => match l.target with
              | .scene _ => none
              | .band _ => some l.ctx) })

/-! ## Events and record writes -/

/-- EVENT_POST (R170): while RUNNING, with unreserved room in the event CQ, the oldest event is written at its tail as
an event record (11.2) and leaves the list; tail, posted and sequence advance as for a completion and reserved does
not. Otherwise nothing changes. RECORD_WRITE_ACCEPTED (R167, R171): the oldest unanswered write to the queue is
answered and INT_CAUSE.CQn is set; with none out nothing changes (log entry 23). -/
def Obligations.EventsArePostedAndWritesAccepted : Prop :=
  (∀ (s : State) (e : EventEntry) (rest : List EventEntry) (c : CompletionQueue), s.host.events = e :: rest →
    s.host.cq s.host.eventQueue = c →
    (s.host.state = .running → c.posted + c.reserved < c.size - 1 → c.tail < c.size →
      exec .eventPost s =
        .next { s with
          host := { s.host with
            events := rest
            writes := s.host.writes ++
              [{ queue := s.host.eventQueue, address := c.base + BitVec.ofNat 64 (16 * c.tail),
                 bytes :=
                   [2, BitVec.ofNat 8 (eventCode e.kind), BitVec.ofNat 8 e.object, 0, e.frame.setWidth 8,
                     (e.frame >>> 8).setWidth 8, (e.frame >>> 16).setWidth 8, (e.frame >>> 24).setWidth 8,
                     e.detail.setWidth 8, (e.detail >>> 8).setWidth 8, (e.detail >>> 16).setWidth 8,
                     (e.detail >>> 24).setWidth 8, 0, 0, BitVec.ofNat 8 c.nextSequence,
                     BitVec.ofNat 8 (c.nextSequence / 2 ^ 8)] }]
            completion := s.host.completion.set CompletionQueue.inactive s.host.eventQueue
              { c with
                tail := (c.tail + 1) % c.size
                posted := c.posted + 1
                nextSequence := if c.nextSequence < 65535 then c.nextSequence + 1 else 1 } } }) ∧
    (s.host.state ≠ .running ∨ c.size - 1 ≤ c.posted + c.reserved → exec .eventPost s = .next s)) ∧
  (∀ s : State, s.host.events = [] → exec .eventPost s = .next s) ∧
  ∀ (s : State) (m : Fin 4),
    (∀ before w after, s.host.writes = before ++ w :: after → w.queue = m.val → (∀ x ∈ before, x.queue ≠ m.val) →
      exec (.recordWriteAccepted m) s =
        .next { s with
          host :=
            { withInterrupts s.host (s.host.intCause ||| 1#6 <<< m.val) s.host.intMask with
              writes := before ++ after } }) ∧
    ((∀ w ∈ s.host.writes, w.queue ≠ m.val) → exec (.recordWriteAccepted m) s = .next s)

/-! ## Claims, takeovers and letting go -/

namespace Sys2Proof.Claims

open Machine Safety

/-- A claim is granted (R4): the channel is FREE, the claimant is its owner, or the claimant's priority is equal to or
higher than the priority in the entry. -/
def grants (claimant : Owner) (priority : Nat) : Holding → Bool
  | .free _ => true
  | .settled p q _ => decide (claimant = .playback p ∨ q ≤ priority)
  | .fading p q _ _ _ => decide (claimant = .playback p ∨ q ≤ priority)
  | .band b q => decide (claimant = .band b ∨ q ≤ priority)

/-- Channel `c` of a channel table. -/
def entry (t : Table Channel) (c : Nat) : Channel := t.get Channel.dark c

/-- What a batch that claims the channels `l` for an owner leaves and reports (R4, R8, R10): each channel granted has a
new holding, every other channel is as it was, no last level changes, and the report counts the claims granted, the
claims denied and the channels that each slot lost. That the slots stand in ascending order in the report is read by
inference (R48 gives that order for clear and snap orders; log entry 15, unsafe). -/
def claims (t t' : Table Channel) (r : ArbiterReport) (claimant : Owner) (priority : Nat) (l : List Nat)
    (become : Nat → Channel → Holding) : Prop :=
  (∀ c, entry t' c =
    if c ∈ l ∧ grants claimant priority (entry t c).holding = true then
      { holding := become c (entry t c), last := (entry t c).last }
    else entry t c) ∧
  r.granted = (l.filter (fun c => grants claimant priority (entry t c).holding)).length ∧
  r.granted + r.denied = l.length ∧
  r.lost.Pairwise (fun a b => a.1 < b.1) ∧
  ∀ k n, (k, n) ∈ r.lost ↔
    1 ≤ n ∧ n = (l.filter (fun c => grants claimant priority (entry t c).holding &&
      decide ((entry t c).holding.slot = some k))).length

/-- What an order that changes the chosen channels leaves and reports (R10). The slots it took channels from stand in
ascending order, by R48 for a clear and a snap order, and by inference for the release batch and the show-reset order (log entry 15, unsafe). -/
def changes (t t' : Table Channel) (r : ArbiterReport) (chosen : Holding → Bool) (become : Channel → Holding) : Prop :=
  (∀ c, entry t' c =
    if chosen (entry t c).holding then { holding := become (entry t c), last := (entry t c).last } else entry t c) ∧
  r.granted = (t.cells.filter (fun x => chosen x.2.holding)).length ∧ r.denied = 0 ∧
  r.lost.Pairwise (fun a b => a.1 < b.1) ∧
  ∀ k n, (k, n) ∈ r.lost ↔
    1 ≤ n ∧ n = (t.cells.filter (fun x => chosen x.2.holding && decide (x.2.holding.slot = some k))).length

/-- A playback owns a channel so held (R1). -/
def playbackOwns (p : Nat) : Holding → Bool
  | .settled p' _ _ => decide (p' = p)
  | .fading p' _ _ _ _ => decide (p' = p)
  | _ => false

end Sys2Proof.Claims

/-- The batches (R4, R5, R7, R8, R10). A fade batch makes each granted channel FADING under the CUE slot from its last
level to its target, a band batch makes each granted channel BAND; a denied channel, and one that the batch does not
name, keeps its entry; last levels do not change. A batch names no channel twice (R3). The ascending slot order of the
losses in the report is the model's (log entry 15). -/
def Obligations.BatchesClaimEachChannel : Prop :=
  (∀ (t : Table Channel) (p priority slot : Nat) (pairs : List (Nat × Level)), (pairs.map Prod.fst).Nodup →
    ∃ target : Nat → Level, (∀ x ∈ pairs, target x.1 = x.2) ∧
      claims t (fadeBatch t p priority slot pairs).1 (fadeBatch t p priority slot pairs).2 (.playback p) priority
        (pairs.map Prod.fst) (fun c ch => .fading p priority slot ch.last (target c))) ∧
  ∀ (t : Table Channel) (b priority first count : Nat),
    claims t (bandBatch t b priority first count).1 (bandBatch t b priority first count).2 (.band b) priority
      (List.range' first count) (fun _ _ => .band b priority)

/-- The release batch and the orders (R6, R11 to R15, R17), each over every channel. RELEASE: the playback's channels
become FADING under the slot from their last level to 0. Settle: the slot's channels become SETTLED at their to level.
Release-end: FREE at 0. Stop: the band's channels become FREE at their last level. Clear: the playback's FADING
channels become SETTLED at their last level. Snap: the playback's channels become FREE at 0. Show reset: every channel
is FREE at 0. Owner and priority are kept where the channel keeps an owner; no last level changes. The losses stand in
ascending slot order: R48 says so of a clear and a snap order, and log entry 15 of the release batch and
the show reset. Each
reports the channels it changed and the slots that lost some (R10), the show reset too, which changes every channel that is
not FREE at 0 already. -/
def Obligations.OrdersMoveAndLetGo : Prop :=
  ∀ (t : Table Channel) (k : Nat), t.wf Channel.dark = true →
    (∀ p, changes t (releaseBatch t p k).1 (releaseBatch t p k).2 (playbackOwns p)
      (fun ch => match ch.holding with
        | .settled p' q _ => .fading p' q k ch.last 0
        | .fading p' q _ _ _ => .fading p' q k ch.last 0
        | h => h)) ∧
    changes t (settleOrder t k).1 (settleOrder t k).2 (fun h => decide (h.slot = some k))
      (fun ch => match ch.holding with
        | .fading p q _ _ level => .settled p q level
        | h => h) ∧
    changes t (releaseEndOrder t k).1 (releaseEndOrder t k).2 (fun h => decide (h.slot = some k)) (fun _ => .free 0) ∧
    changes t (stopOrder t k).1 (stopOrder t k).2
      (fun h => match h with
        | .band b _ => decide (b = k)
        | _ => false)
      (fun ch => .free ch.last) ∧
    changes t (clearOrder t k).1 (clearOrder t k).2
      (fun h => match h with
        | .fading p _ _ _ _ => decide (p = k)
        | _ => false)
      (fun ch => match ch.holding with
        | .fading p q _ _ _ => .settled p q ch.last
        | h => h) ∧
    changes t (snapOrder t k).1 (snapOrder t k).2 (playbackOwns k) (fun _ => .free 0) ∧
    changes t (showResetOrder t).1 (showResetOrder t).2 (fun h => decide (h ≠ .free 0)) (fun _ => .free 0) ∧
    ∀ c, entry (showResetOrder t).1 c = { holding := .free 0, last := (entry t c).last }

/-! ## Fades and rolls -/

namespace Sys2Proof.Claims

open Machine Safety

/-- The fraction N / D of a curve at count `k` of length `T` (R43). -/
def shape (c : Curve) (k T : Nat) : Nat × Nat :=
  match T, c with
  | 0, _ => (1, 1)
  | _, .linear => (k, T)
  | _, .square => (k * k, T * T)
  | _, .scurve => (k * k * (3 * T - 2 * k), T * T * T)
  | _, .snapStart => (1, 1)
  | _, .snapEnd => (if k = T then 1 else 0, 1)

end Sys2Proof.Claims

/-- The level of a FADING channel (R39, R43, R44). The elapsed count is that of the frame, or of the frame before the
pause, clamped to the length; while it runs it rises by one a frame, up to the length at the end frame. The level
leaves the from level by the integer part of the exact fraction of the way; it never passes the to level; and as the
frames go on it never turns back. A SNAP_START slot shows its to level from count 0 on (R43), also while it is paused at its
start, where R42 and R124 speak of from levels: log entry 50 (the model's choice, unsafe). -/
def Obligations.FadeLevelsAreExactAndMonotonic : Prop :=
  ∀ (r : FadeRun) (n : Nat) (a b : Level),
    (r.pausedAt = none → r.elapsed n = min (n - r.start - r.accumulatedPause) r.length) ∧
    (∀ p, r.pausedAt = some p → r.elapsed n = min (p - 1 - r.start - r.accumulatedPause) r.length) ∧
    (r.pausedAt = none → 1 ≤ r.length →
      (r.start + r.accumulatedPause ≤ n → n < r.start + r.length + r.accumulatedPause →
        r.elapsed (n + 1) = r.elapsed n + 1) ∧
      (r.elapsed n = r.length ↔ r.start + r.length + r.accumulatedPause ≤ n)) ∧
    (a ≤ b → (r.level n a b).toNat =
      a.toNat + (b.toNat - a.toNat) * (shape r.curve (r.elapsed n) r.length).1 /
        (shape r.curve (r.elapsed n) r.length).2) ∧
    (b ≤ a → (r.level n a b).toNat =
      a.toNat - (a.toNat - b.toNat) * (shape r.curve (r.elapsed n) r.length).1 /
        (shape r.curve (r.elapsed n) r.length).2) ∧
    (r.elapsed n = r.length → r.level n a b = b) ∧
    (r.elapsed n = 0 → 1 ≤ r.length → r.curve ≠ .snapStart → r.level n a b = a) ∧
    (r.curve = .snapStart → r.level n a b = b) ∧
    ∀ m ≤ n,
      (a ≤ b → a ≤ r.level m a b ∧ r.level m a b ≤ r.level n a b ∧ r.level n a b ≤ b) ∧
      (b ≤ a → b ≤ r.level n a b ∧ r.level n a b ≤ r.level m a b ∧ r.level m a b ≤ a)

/-- The roll of a RUNNING band (R88, R89). The offset is the origin offset plus the step times the whole step periods
since the origin, reduced modulo the roll, and 0 when the roll is empty. A channel shows its component of the pattern
colour at its pixel, or within the roll at its pixel moved by the offset. From one step to the next the pattern moves
by the step, toward lower pixels when the step is positive, and wraps. -/
def Obligations.RollingMovesThePattern : Prop :=
  ∀ (d : BandSetup) (r : BandRun) (n i m : Nat), m < d.components → 1 ≤ d.stepPeriod →
    (d.roll = 0 → rollOffset d r.originFrame n = 0) ∧
    (1 ≤ d.roll →
      rollOffset d r.originFrame n < d.roll ∧
      ∃ z : Int, (rollOffset d r.originFrame n : Int) =
        d.originOffset + d.step * ((n - r.originFrame) / d.stepPeriod : Nat) + d.roll * z) ∧
    (i < d.lead ∨ d.lead + d.roll ≤ i →
      bandValue d r n (r.firstChannel + i * d.components + m) = (d.pattern.getD i []).getD m 0) ∧
    (d.lead ≤ i → i < d.lead + d.roll →
      bandValue d r n (r.firstChannel + i * d.components + m) =
        (d.pattern.getD (d.lead + (i - d.lead + rollOffset d r.originFrame n) % d.roll) []).getD m 0) ∧
    ∀ x y : Nat, x < d.roll → y < d.roll → ((x : Int) - y - d.step) % d.roll = 0 → r.originFrame ≤ n →
      bandValue d r (n + d.stepPeriod) (r.firstChannel + (d.lead + y) * d.components + m) =
        bandValue d r n (r.firstChannel + (d.lead + x) * d.components + m)

/-! ## Fade slots -/

namespace Sys2Proof.Claims

open Machine Safety

/-- Slot `k` may be allocated at the current frame start (R45). -/
def mayAllocate (w : FrameWork) (k : Nat) : Prop := ∃ a, w.s.engine.slot k = .free a ∧ a ≤ w.s.clock.frame

/-- The slots that lose their last channel by a report, with what they held, in the report's order (R48). -/
def emptied (e : TransitionEngine) (lost : List (Nat × Nat)) : List (Nat × FadeRun) :=
  lost.filterMap (fun l => match e.slot l.1 with
    | .inUse r => if r.count ≤ l.2 then some (l.1, r) else none
    | .free _ => none)

/-- The scenes that freed slots return (R48), with the use counts lowered by `giveBack` (R23). -/
def returned (t : SceneStore) (l : List (Nat × FadeRun)) : SceneStore :=
  l.foldl (fun t x => match x.2.kind with
    | .cue _ id => t.giveBack id
    | .release => t) t

/-- The end notices of freed slots (R50). -/
def endNotices (reason : EndReason) (l : List (Nat × FadeRun)) : List EndNotice :=
  l.map (fun x => { slot := x.1, playback := x.2.playback, kind := x.2.kind, reason := reason })

/-- What a report's losses leave of slot `j` (R36, R48). -/
def afterLosses (lost : List (Nat × Nat)) (frame : Nat) (old new : FadeSlot) (j : Nat) : Prop :=
  (∀ r n, old = .inUse r → (j, n) ∈ lost →
    new = if r.count ≤ n then .free (frame + 1) else .inUse { r with count := r.count - n }) ∧
  ((∀ a, old = .free a → new = old) ∧ ((∀ n, (j, n) ∉ lost) → new = old))

/-- The batch of a slot request (R46). -/
def requestBatch (t : Table Channel) (q : FrameWork.SlotRequest) (k : Nat) : Table Channel × ArbiterReport :=
  match q.kind with
  | .cue _ _ => fadeBatch t q.playback q.priority k q.pairs
  | .release => releaseBatch t q.playback k

/-- The lend of a kept CUE slot (R23, R46). -/
def lent (t : SceneStore) : SlotKind → SceneStore
  | .cue _ id => t.lend id
  | .release => t

end Sys2Proof.Claims

/-- Slot requests (R35, R42, R45, R46, R48). With no slot to allocate the answer is NO_SLOT and nothing changes.
Otherwise the lowest one is chosen and its batch goes to the arbiter. With nothing granted the slot is FREE from the
next frame on. With something granted it is IN_USE from this frame, paused for a PAUSED playback unless its length is
0; the scene is lent; the slots emptied are freed, their scenes returned, and one notice each is sent, in the order of the
report (log entry 15); and a slot of
length 0 ends next. That a FREE slot is named by no channel, and that the pairs name no channel twice, are premises;
the second law (R36) and the law of the scenes' contents say so of every state between commands
(StepKeepsTheShowLaws). -/
def Obligations.SlotRequestsAreAnswered : Prop :=
  ∀ (w : FrameWork) (q : FrameWork.SlotRequest), w.resetEngine = false → w.resetArbiter = false →
    (q.pairs.map Prod.fst).Nodup →
    ((∀ k < 64, ¬mayAllocate w k) → w.requestSlot q = (w, .noSlot)) ∧
    ∀ k < 64, mayAllocate w k → (∀ j < k, ¬mayAllocate w j) →
      (∀ c, (w.s.arbiter.channel c).holding.slot ≠ some k) →
      ∃ v answer batch, w.requestSlot q = (v, answer) ∧ batch = requestBatch w.s.arbiter.channels q k ∧
        (batch.2.granted = 0 →
          answer = .noChannels batch.2.denied ∧
          v = { w with
            s := { w.s with
              arbiter := { channels := batch.1 }
              engine := { slots := w.s.engine.slots.set FadeSlot.atReset k (.free (w.s.clock.frame + 1)) } } }) ∧
        (1 ≤ batch.2.granted →
          answer = .started k batch.2.granted batch.2.denied ∧
          v = { w with
            s := { w.s with
              arbiter := { channels := batch.1 }
              engine := v.s.engine
              store := returned (lent w.s.store q.kind) (emptied w.s.engine batch.2.lost) }
            notices := w.notices ++
              endNotices (match q.kind with
                | .cue _ _ => .lost
                | .release => .released) (emptied w.s.engine batch.2.lost)
            mustEnd := w.mustEnd ++ (if q.length = 0 then [k] else []) } ∧
          v.s.engine.slot k =
            .inUse
              { kind := q.kind, playback := q.playback, start := w.s.clock.frame, length := q.length, curve := q.curve,
                pausedAt := if q.isPaused = true ∧ q.length ≠ 0 then some w.s.clock.frame else none,
                accumulatedPause := 0, count := batch.2.granted } ∧
          ∀ j, j ≠ k →
            afterLosses batch.2.lost w.s.clock.frame (w.s.engine.slot j) (v.s.engine.slot j) j)

namespace Sys2Proof.Claims

open Machine Safety

/-- No PAUSE of playback `p` can join a group inside the frame start: none arrives there, and no fence wait holds one. -/
def noPauseJoins (course : FrameCourse) (s : State) (p : Nat) : Prop :=
  (∀ r, .record r ∈ course.intake → r.kind = Kind.pause.code → field r.body 8 1 ≠ p) ∧
  ∀ q x, (s.host.sq q).fence = some x → x.record.kind = Kind.pause.code → field x.record.body 8 1 ≠ p

end Sys2Proof.Claims

/-- The end of a slot (R11, R12, R47, R50), and what a lend and a return do (R23). A running slot whose start, length and
accumulated pause come to the new frame is FREE after that FRAME_START, whatever else happens there, unless a PAUSE of
its playback may be taken first (R49); where the blocks find nothing else, FRAME_START ends it. At its end a CUE
slot's channels become SETTLED, a RELEASE slot's FREE; the slot is FREE from the next frame on; a CUE slot's scene is
returned; one end notice of reason ENDED is sent. A slot already FREE is left. -/
def Obligations.SlotsReachTheirEnd : Prop :=
  (∀ (course : FrameCourse) (s : State) (k : Nat) (r : FadeRun), canonical s → s.engine.slot k = .inUse r →
    r.pausedAt = none → r.start + r.length + r.accumulatedPause = s.clock.frame + 1 →
    ((∀ e ∈ stamped (s.clock.frame + 1) s.controller.staged, e.request ≠ .pause r.playback) →
      (∀ h ∈ s.groups.hold, h.request ≠ .playback (.pause r.playback)) → noPauseJoins course s r.playback →
      ∃ t, exec (.frameStart course) s = .next t ∧ t.engine.slot k = .free (s.clock.frame + 2)) ∧
    (finds s [] [] [] [] [k] →
      ∃ agenda passed, standsAt agenda passed ∧ frameStartDoes course.picks s ((begun s agenda passed).endSlot k))) ∧
  (∀ (w : FrameWork) (k : Nat) (r : FadeRun), w.resetArbiter = false → w.s.engine.slot k = .inUse r →
    w.endSlot k =
      { w with
        s := { w.s with
          arbiter :=
            { channels := match r.kind with
                | .cue _ _ => (settleOrder w.s.arbiter.channels k).1
                | .release => (releaseEndOrder w.s.arbiter.channels k).1 }
          engine := { slots := w.s.engine.slots.set FadeSlot.atReset k (.free (w.s.clock.frame + 1)) }
          store := returned w.s.store [(k, r)] }
        notices := w.notices ++ endNotices .ended [(k, r)] }) ∧
  (∀ (w : FrameWork) (k a : Nat), w.s.engine.slot k = .free a → w.endSlot k = w) ∧
  ∀ (t : SceneStore) (id j : Nat),
    (t.lend id).scene j =
      (if j = id ∧ (t.scene id).state = .ready then { t.scene j with useCount := (t.scene j).useCount + 1 }
       else t.scene j) ∧
    (t.giveBack id).scene j =
      (if j = id then { t.scene j with useCount := (t.scene j).useCount - 1 } else t.scene j)

/-! ## Playback requests, applied -/

namespace Sys2Proof.Claims

open Machine Safety

/-- A time of `time` × 10 ms in frames of `period` × 100 µs, rounded up (R37). -/
def framesIn (time period : Nat) : Nat := time * 100 / period + (if time * 100 % period = 0 then 0 else 1)

/-- The pending list after its head has been triggered at frame `f`: the next cue becomes head, and a WITH cue is due at
`f` (R59, R62). -/
def nextHeads (f : Nat) : List Cue → List Cue
  | [] => []
  | d :: rest => { d with due := if d.trigger = .withPrevious then some f else none } :: rest

/-- The head `c` of a playback is triggered (R62). One without delay reaches its fade start at once, after what already
stands to be done at once; then the controller does `next`. -/
def triggers (w : FrameWork) (p : Nat) (c : Cue) (rest : List Cue) (next : List ControllerStep) : FrameWork :=
  { w with
    atOnce := w.atOnce ++
      (if framesIn c.delay w.period = 0 then [ControllerStep.fadeStart p c.id] else []) ++ next
    s := { w.s with
      controller := { w.s.controller with
        playbacks := w.s.controller.playbacks.set Playback.atReset p
          { w.s.controller.playback p with
            pending := nextHeads w.s.clock.frame rest
            inFlight := (w.s.controller.playback p).inFlight ++
              [{ c with
                state := .delayed
                triggerFrame := some w.s.clock.frame
                length := framesIn c.fadeTime w.period
                due := some (w.s.clock.frame + framesIn c.delay w.period) }]
            lastTrigger := .inFlight c.id } } } }

/-- The head `c` of a playback may be triggered automatically (R61). -/
def headMayGo (w : FrameWork) (p : Nat) (c : Cue) : Prop :=
  (w.s.controller.playback p).paused = none ∧ (∃ d, c.due = some d ∧ d ≤ w.s.clock.frame) ∧
  (w.s.controller.playback p).inFlight.length < 4

/-- A due frame moved by `n` frames. -/
def moved (n : Nat) (c : Cue) : Cue := { c with due := c.due.map (fun d => d + n) }

end Sys2Proof.Claims

/-- GO at its frame start and the automatic trigger (R61, R62, R72). FRAME_START applies a GO that alone
is staged for the frame, and does what follows from it. GO completes PAUSED, EMPTY or BUSY, in this order of its checks, and changes nothing; otherwise the head is triggered,
whatever its trigger and due frame, and then each new head that may go, and GO completes OK with the count of its chain. That
cues which the end of another, or a notice, lets go meanwhile are not in that count is log entry 16 (read by inference from
R72, unsafe), and that a notice may be taken between the triggers of one GO is log entry 52 (the model's choice); that a cue which reaches its fade start, and a head to be tried
again, stand in line behind what is already to be done at once is log entry 36 (by inference, unsafe). The sweep's
trigger goes on in the same way. Times are converted with the period of the frame, which is 25 to 400. -/
def Obligations.GoTriggersTheHead : Prop :=
  (∀ (order : List Nat) (s : State) (e : Staged PlaybackRequest) (p : Nat), canonical s →
    finds s [e] [] [] [] [] → e.request = .go p →
    frameStartDoes order s ((begun s frameAgenda false).applyGo p e.owed)) ∧
  ∀ (w : FrameWork) (p n : Nat) (o : Owed), 25 ≤ w.period →
    ((w.s.controller.playback p).paused ≠ none → w.applyGo p o = w.finish o .paused 0) ∧
    ((w.s.controller.playback p).pending = [] →
      ((w.s.controller.playback p).paused = none → w.applyGo p o = w.finish o .empty 0) ∧
      w.goChain p n o = w.finish o .ok n ∧ w.tryHead p = w) ∧
    ∀ c rest, (w.s.controller.playback p).pending = c :: rest →
      ((w.s.controller.playback p).paused = none → 4 ≤ (w.s.controller.playback p).inFlight.length →
        w.applyGo p o = w.finish o .busy 0) ∧
      ((w.s.controller.playback p).paused = none → (w.s.controller.playback p).inFlight.length < 4 →
        w.applyGo p o = { triggers w p c rest [] with agenda := .goChain p 1 o :: w.agenda }) ∧
      (headMayGo w p c →
        w.goChain p n o = { triggers w p c rest [] with agenda := .goChain p (n + 1) o :: w.agenda } ∧
        w.tryHead p = triggers w p c rest [.tryHead p]) ∧
      (¬headMayGo w p c → w.goChain p n o = w.finish o .ok n ∧ w.tryHead p = w)

/-- PAUSE and RESUME at their frame start (R40, R41, R68, R73, R74). FRAME_START applies the one that
alone is staged for the frame, and does what follows from it. PAUSE sets the marker, pauses every running slot of the playback, and
completes OK with 1; on a PAUSED playback it completes OK with 0. RESUME moves the due frames of the DELAYED cues and
of the head by the length of the pause, adds that length to the accumulated pause of each slot paused with it, lets
the slots run, ends those whose end frame this is, in an order that the rules leave open (log entry 1), and completes
OK with the length, before the completions of the cues and the RELEASE whose slots it brings to their end (log entry
38, the model's choice), in the same piece of work as its order (log entry 51); on a playback that is not PAUSED it completes OK with 0. -/
def Obligations.PauseAndResumeShiftThePlayback : Prop :=
  (∀ (order : List Nat) (s : State) (e : Staged PlaybackRequest) (p : Nat), canonical s →
    finds s [e] [] [] [] [] →
    (e.request = .pause p → frameStartDoes order s ((begun s frameAgenda false).applyPause p e.owed)) ∧
    (e.request = .resume p → frameStartDoes order s ((begun s frameAgenda false).applyResume p e.owed))) ∧
  ∀ (w : FrameWork) (p : Nat) (o : Owed), canonical w.s →
    (∀ f, (w.s.controller.playback p).paused = some f →
      w.applyPause p o = w.finish o .ok 0 ∧
      ∃ v ending,
        w.applyResume p o =
          { w with s := v, mustEnd := w.mustEnd ++ ending }.finish o .ok (w.s.clock.frame - f) ∧
        v = { w.s with
          engine := v.engine
          controller := { w.s.controller with
            playbacks := w.s.controller.playbacks.set Playback.atReset p
              { w.s.controller.playback p with
                paused := none
                pending := match (w.s.controller.playback p).pending with
                  | [] => []
                  | c :: rest => moved (w.s.clock.frame - f) c :: rest
                inFlight := (w.s.controller.playback p).inFlight.map (fun c =>
                  if c.state = .delayed then moved (w.s.clock.frame - f) c else c) } } } ∧
        (∀ k, v.engine.slot k =
          match w.s.engine.slot k with
          | .inUse r =>
            .inUse (if r.playback = p then
              { r with
                pausedAt := none
                accumulatedPause := r.accumulatedPause +
                  (match r.pausedAt with
                    | some g => w.s.clock.frame - g
                    | none => 0) }
              else r)
          | .free a => .free a) ∧
        ending.Nodup ∧
        ∀ k, k ∈ ending ↔ ∃ r, v.engine.slot k = .inUse r ∧ r.playback = p ∧
          r.start + r.length + r.accumulatedPause = w.s.clock.frame) ∧
    ((w.s.controller.playback p).paused = none →
      w.applyResume p o = w.finish o .ok 0 ∧
      ∃ v, w.applyPause p o = { w with s := v }.finish o .ok 1 ∧
        v = { w.s with
          engine := v.engine
          controller := { w.s.controller with
            playbacks := w.s.controller.playbacks.set Playback.atReset p
              { w.s.controller.playback p with paused := some w.s.clock.frame } } } ∧
        ∀ k, v.engine.slot k =
          match w.s.engine.slot k with
          | .inUse r =>
            .inUse (if r.playback = p ∧ r.pausedAt = none then { r with pausedAt := some w.s.clock.frame } else r)
          | .free a => .free a)

/-! ## The life of a cue -/

namespace Sys2Proof.Claims

open Machine Safety

/-- The detail of a cue's completion: its label and its denied count (R67, 11.3). -/
def cueDetail (c : Cue) : Nat := c.label + 65536 * c.denied

/-- A cue's completion, if it carries its report flag (R67). -/
def reports (w : FrameWork) (c : Cue) (status : Status) : FrameWork :=
  if c.report = true then w.finish (owes c.ctx) status (cueDetail c) else w

/-- The pending list after the last trigger has ended (R60, R66, R68): a FOLLOW head without a due frame is due one frame
and its follow wait after the end, or after the pause in force. -/
def followers (w : FrameWork) (q : Playback) : List Cue → List Cue
  | [] => []
  | c :: rest =>
    if c.trigger = .follow ∧ c.due = none then
      { c with
        due := some ((match q.paused with
          | some at_ => at_
          | none => w.s.clock.frame) + 1 + framesIn c.followWait w.period) } :: rest
    else c :: rest

/-- Playback `p` becomes `q`. -/
def withPlayback (w : FrameWork) (p : Nat) (q : Playback) : FrameWork :=
  { w with
    s := { w.s with
      controller := { w.s.controller with playbacks := w.s.controller.playbacks.set Playback.atReset p q } } }

/-- A cue in flight ends (R57, R66): it leaves the set, the last trigger and a waiting FOLLOW head learn of it, it
reports, and the automatic trigger of the head is tried. -/
def cueEnds (w : FrameWork) (p : Nat) (c : Cue) (status : Status) : FrameWork :=
  (reports (withPlayback w p
      { w.s.controller.playback p with
        inFlight := (w.s.controller.playback p).inFlight.filter (fun d => d.id ≠ c.id)
        lastTrigger :=
          if (w.s.controller.playback p).lastTrigger = .inFlight c.id then .ended
          else (w.s.controller.playback p).lastTrigger
        pending :=
          if (w.s.controller.playback p).lastTrigger = .inFlight c.id then
            followers w (w.s.controller.playback p) (w.s.controller.playback p).pending
          else (w.s.controller.playback p).pending }) c status).tryHead p

/-- The cue in flight of playback `p` that has the number `id` is `c` (log entry 11). -/
def isCue (w : FrameWork) (p id : Nat) (c : Cue) : Prop :=
  (w.s.controller.playback p).inFlight.find? (fun d => d.id = id) = some c

/-- The cue `id` in flight is changed by `g`. -/
def changed (w : FrameWork) (p id : Nat) (g : Cue → Cue) : FrameWork :=
  withPlayback w p
    { w.s.controller.playback p with
      inFlight := (w.s.controller.playback p).inFlight.map (fun d => if d.id = id then g d else d) }

/-- The controller has taken every end notice sent so far, in the order sent (log entry 15). -/
def noticesTaken (w : FrameWork) : FrameWork := w.notices.foldl FrameWork.takeNotice { w with notices := [] }

/-- The cue `id` in flight has asked for a slot and gets no answer. It is read no more, and it ends CANCELLED by the show
reset, or by a CLEAR or a RELEASE before that (R52, R82; how it stands until then is log entry 39). -/
def asksInVain (w : FrameWork) (p id : Nat) : FrameWork :=
  changed w p id (fun d => { d with state := .delayed, due := none })

/-- What the Transition Engine's answer to a cue's slot request leads to (R65, R17, R52, R82). -/
def cueAnswered (p id : Nat) : FrameWork × FrameWork.SlotAnswer → FrameWork → Prop
  | (v, .noSlot), w' => w' = v.endCue p id .noSlot
  | (v, .noChannels denied), w' => w' = (changed v p id (fun d => { d with denied := denied })).endCue p id .denied
  | (v, .started k _ denied), w' =>
    w' = changed v p id (fun d => { d with state := .fading, slot := some k, due := none, denied := denied })
  | (v, .refused), w' => w' = asksInVain v p id
  | (v, .silent), w' => w' = { asksInVain v p id with agenda := .awaitReset none :: v.agenda }

/-- What the reading of a cue's scene leads to (R22, R63, R64, R65): READY, its pairs go into a slot request; LOADING,
it waits for the scene; EMPTY, it ends NO_SCENE. -/
def sceneRead (w : FrameWork) (p : Nat) (c : Cue) (w' : FrameWork) : Prop :=
  ((w.s.store.scene c.scene).state = .ready →
    cueAnswered p c.id
      ((noticesTaken w).requestSlot
        { kind := .cue c.id c.scene, playback := p,
          priority := ((noticesTaken w).s.controller.playback p).priority,
          isPaused := decide (((noticesTaken w).s.controller.playback p).paused ≠ none),
          pairs := (w.s.store.scene c.scene).entries, length := c.length, curve := c.curve }) w') ∧
  ((w.s.store.scene c.scene).state = .loading →
    w' = changed w p c.id (fun d => { d with state := .waitScene, due := none })) ∧
  ((w.s.store.scene c.scene).state = .empty → w' = w.endCue p c.id .noScene)

end Sys2Proof.Claims

/-- Fade starts and wakes (R22, R58, R63, R64, R65). A DELAYED cue at its fade start, and a WAIT_SCENE cue that a
load-end notice wakes, have their scene read. READY: a slot is asked for with the scene's pairs; by the answer the cue
ends NO_SLOT, ends DENIED with the denied count, or is FADING under the slot. LOADING: it is WAIT_SCENE. EMPTY: it
ends NO_SCENE. A cue in another state is left. The sweep takes the DELAYED cues due at this frame, in trigger order,
and then tries the head, and passes a PAUSED playback; a load-end notice wakes, in ascending playback number and in
trigger order, each cue that waits on the scene; FRAME_START takes one stamped with its frame. That notices sent
before the answer are taken before it is log entry 15; that the scene's reading, the slot request and the lend are one
piece of work is log entry 37, and that the controller goes on after a refused request log entry 39 (the model's choices).
A cue whose request is refused or gets no report is not taken up again, so that it ends CANCELLED (R82). -/
def Obligations.FadeStartsReadTheScene : Prop :=
  (∀ (order : List Nat) (s : State) (n : LoadEndNotice), canonical s → finds s [] [] [] [n] [] →
    ∃ agenda passed, standsAt agenda passed ∧ frameStartDoes order s ((begun s agenda passed).takeLoadEnd n.scene)) ∧
  ∀ (w : FrameWork) (p id : Nat),
    (∀ c, isCue w p id c →
      (c.state = .delayed → ∃ v, w.fadeStart p id = v ∧ sceneRead w p c v) ∧
      (c.state = .waitScene → ∃ v, w.wakeCue p id = v ∧ sceneRead w p c v) ∧
      (c.state ≠ .delayed → w.fadeStart p id = w) ∧ (c.state ≠ .waitScene → w.wakeCue p id = w)) ∧
    ((∀ c, ¬isCue w p id c) → w.fadeStart p id = w ∧ w.wakeCue p id = w) ∧
    ((w.s.controller.playback p).paused ≠ none → w.sweep p = w) ∧
    ((w.s.controller.playback p).paused = none →
      w.sweep p =
        { w with
          agenda := (((w.s.controller.playback p).inFlight.filter
              (fun c => c.state = .delayed ∧ c.due = some w.s.clock.frame)).map
                (fun c => ControllerStep.fadeStart p c.id)) ++ .tryHead p :: w.agenda }) ∧
    ∀ scene, w.takeLoadEnd scene =
      { w with
        agenda := (List.range 16).flatMap (fun n =>
            ((w.s.controller.playback n).inFlight.filter (fun c => c.state = .waitScene ∧ c.scene = scene)).map
              (fun c => ControllerStep.wake n c.id)) ++ w.agenda }

/-- The end of a cue, and due frames (R37, R58, R59, R60, R66, R67, R100). An end notice ends its cue OK, SUPERSEDED
or CANCELLED by its reason. A cue that ends leaves the set; the last trigger becomes ENDED if it was this cue, and a
waiting FOLLOW head is then due; a cue with REPORT completes with its label and denied count; the head is tried, after
that completion (log entry 40, the model's choice). A cue that has ended is not affected. At a frame
start, before the staged pass, a FOLLOW head without a due frame that
follows no cue in flight is due one frame and its follow wait later; every other head keeps the due frame it has,
which RUN_CUE left absent. The period of the frame is that of the last SET_FRAME_PERIOD stamped with it. -/
def Obligations.CuesEndAndHeadsFollow : Prop :=
  (∀ (w : FrameWork) (p id : Nat) (status : Status), 25 ≤ w.period →
    (∀ c, isCue w p id c → w.endCue p id status = cueEnds w p c status) ∧
    ((∀ c, ¬isCue w p id c) → w.endCue p id status = w) ∧
    ∀ n : EndNotice, n.playback = p → (∃ scene, n.kind = .cue id scene) →
      w.takeNotice n = w.endCue p id
        (match n.reason with
          | .ended => .ok
          | .lost => .superseded
          | .released | .cleared | .snapped | .showReset => .cancelled)) ∧
  ∀ (s : State) (f p : Nat), canonical s → 25 ≤ (s.beginFrame f).period →
    ((∀ e ∈ s.clock.staged, e.frame = f → ∀ x, e.request ≠ .setPeriod x) → (s.beginFrame f).period = s.clock.period) ∧
    (∀ before e after x, s.clock.staged = before ++ e :: after → e.frame = f → e.request = .setPeriod x →
      (∀ d ∈ after, d.frame = f → ∀ y, d.request ≠ .setPeriod y) → (s.beginFrame f).period = x) ∧
    (∀ c rest, (s.controller.playback p).pending = c :: rest → c.trigger = .follow → c.due = none →
      (∀ id, (s.controller.playback p).lastTrigger ≠ .inFlight id) →
      (s.beginFrame f).s.controller.playback p =
        { s.controller.playback p with
          pending :=
            { c with
              due := some ((match (s.controller.playback p).paused with
                | some at_ => at_
                | none => f) + 1 + framesIn c.followWait (s.beginFrame f).period) } :: rest }) ∧
    ((∀ c rest, (s.controller.playback p).pending = c :: rest →
        c.trigger ≠ .follow ∨ c.due ≠ none ∨ ∃ id, (s.controller.playback p).lastTrigger = .inFlight id) →
      (s.beginFrame f).s.controller.playback p = s.controller.playback p)

/-! ## CLEAR and RELEASE -/

namespace Sys2Proof.Claims

open Machine Safety

/-- The DELAYED and WAIT_SCENE cues of a playback (R75, R76). -/
def waiters (w : FrameWork) (p : Nat) : List Cue :=
  (w.s.controller.playback p).inFlight.filter (fun c => c.state = .delayed ∨ c.state = .waitScene)

/-- They end CANCELLED, in trigger order. -/
def waitersCancelled (w : FrameWork) (p : Nat) : FrameWork :=
  (waiters w p).foldl (fun v c => v.endCue p c.id .cancelled) w

/-- Every pending cue ends CANCELLED, in list order, and the list is empty (R75). -/
def pendingCancelled (w : FrameWork) (p : Nat) : FrameWork :=
  withPlayback ((w.s.controller.playback p).pending.foldl (fun v c => reports v c .cancelled) w) p
    { w.s.controller.playback p with pending := [] }

/-- The CUE slots that lose channels by a report. -/
def cueSlotsIn (e : TransitionEngine) (lost : List (Nat × Nat)) : Nat :=
  (lost.filter (fun l => match e.slot l.1 with
    | .inUse r => decide (r.kind ≠ .release)
    | .free _ => false)).length

/-- An order has been sent and its report taken: the channels are the order's, the slots that lose their last channel are
freed with their scenes returned, and one notice of the reason is sent for each (R36, R48, R50). -/
def orderTaken (w v : FrameWork) (batch : Table Channel × ArbiterReport) (reason : EndReason) : Prop :=
  v = { w with
    s := { w.s with
      arbiter := { channels := batch.1 }
      engine := v.s.engine
      store := returned w.s.store (emptied w.s.engine batch.2.lost) }
    notices := w.notices ++ endNotices reason (emptied w.s.engine batch.2.lost) } ∧
  ∀ j, afterLosses batch.2.lost w.s.clock.frame (w.s.engine.slot j) (v.s.engine.slot j) j

/-- The RELEASE of slot `k` of playback `p` ends with a status and its moved count (R79): the one in the record, which
is emptied, or one that a later RELEASE has replaced there. -/
def releaseEnds (w : FrameWork) (p k : Nat) (status : Status) (w' : FrameWork) : Prop :=
  (∀ r, (w.s.controller.playback p).releaseSlot = some k → (w.s.controller.playback p).releaseRecord = some r →
    w' = (withPlayback w p { w.s.controller.playback p with releaseSlot := none, releaseRecord := none }).finish r.owed
      status r.moved) ∧
  ((w.s.controller.playback p).releaseSlot ≠ some k →
    (∀ before r after, w.superseded = before ++ (k, r) :: after → (∀ x ∈ before, x.1 ≠ k) →
      w' = { w with superseded := before ++ after }.finish r.owed status r.moved) ∧
    ((∀ x ∈ w.superseded, x.1 ≠ k) → w' = w))

/-- What the Transition Engine's answer to a RELEASE's slot request leads to (R77, R17, R52). -/
def releaseAnswered (p : Nat) (o : Owed) : FrameWork × FrameWork.SlotAnswer → FrameWork → Prop
  | (v, .noSlot), w' => w' = { v with agenda := .snap p o :: v.agenda }
  | (v, .noChannels _), w' => w' = v.finish o .ok 0
  | (v, .started k moved _), w' =>
    w' = { withPlayback v p
        { v.s.controller.playback p with releaseSlot := some k, releaseRecord := some { owed := o, moved := moved } } with
      superseded := v.superseded ++
        (match (v.s.controller.playback p).releaseSlot, (v.s.controller.playback p).releaseRecord with
          | some j, some r => [(j, r)]
          | _, _ => []) }
  | (v, .refused), w' => w' = { v with agenda := .awaitReset (some o) :: v.agenda }
  | (v, .silent), w' => w' = { v with agenda := .awaitReset (some o) :: v.agenda }

end Sys2Proof.Claims

/-- CLEAR at its frame start, and the snap of a RELEASE (R14, R15, R36, R48, R75, R77). FRAME_START applies a CLEAR that
alone is staged for the frame, and does what follows from it. CLEAR, in order: every pending cue ends CANCELLED; every DELAYED and
WAIT_SCENE cue does (in list order and in trigger order: log entry 41, the model's choice); the clear order settles the FADING channels at their last levels, the slots it
empties are freed with reason CLEARED, and the controller takes their notices, and all those sent before them (log entry 15,
by inference, unsafe), by which FADING cues and a RELEASE end CANCELLED; the marker is absent. It completes OK with the cues it
ended. That nothing of another block falls between these is log entry 51 (the model's choice, unsafe). A snap makes the playback's channels FREE at
0, frees its slots with reason SNAPPED, and completes SNAPPED with the channels freed, before those notices are taken
(log entries 32 and 51). Other playbacks are left alone where the notices name none of them. -/
def Obligations.ClearAndSnapLetGo : Prop :=
  (∀ (order : List Nat) (s : State) (e : Staged PlaybackRequest) (p : Nat), canonical s →
    finds s [e] [] [] [] [] → e.request = .clear p →
    frameStartDoes order s ((begun s frameAgenda false).applyClear p e.owed)) ∧
  ∀ (w : FrameWork) (p : Nat) (o : Owed), canonical w.s → w.resetArbiter = false →
    (∃ a v : FrameWork,
      a = waitersCancelled (pendingCancelled w p) p ∧
      orderTaken a v (clearOrder a.s.arbiter.channels p) .cleared ∧
      w.applyClear p o =
        (withPlayback (noticesTaken v) p { (noticesTaken v).s.controller.playback p with paused := none }).finish o .ok
          ((w.s.controller.playback p).pending.length + (waiters w p).length +
            cueSlotsIn a.s.engine (clearOrder a.s.arbiter.channels p).2.lost) ∧
      ((w.applyClear p o).s.controller.playback p).pending = [] ∧
      ((w.applyClear p o).s.controller.playback p).paused = none ∧
      (∀ c ∈ ((w.applyClear p o).s.controller.playback p).inFlight, c ∈ (w.s.controller.playback p).inFlight ∧
        c.state ≠ .delayed ∧ c.state ≠ .waitScene) ∧
      ((w.applyClear p o).s.controller.playback p).priority = (w.s.controller.playback p).priority ∧
      ((w.applyClear p o).s.controller.playback p).defaultRelease = (w.s.controller.playback p).defaultRelease ∧
      ((∀ n ∈ v.notices, n.playback = p) → ∀ n, n ≠ p →
        (w.applyClear p o).s.controller.playback n = w.s.controller.playback n)) ∧
    ∃ v : FrameWork,
      orderTaken w v (snapOrder w.s.arbiter.channels p) .snapped ∧
      w.applySnap p o = v.finish o .snapped (ownedBy w.s p)

/-- RELEASE at its frame start (R37, R45, R76, R77, R79). FRAME_START applies a RELEASE that alone is staged for the
frame, and does what follows from it. Every DELAYED and WAIT_SCENE cue ends CANCELLED (in trigger order: log entry 41); pending cues stay.
With no
channel owned it completes OK with 0. Otherwise its own time, or the playback's default, is converted, and a slot is
asked for. By the answer the slot and the record, with the moved count, are set, and an earlier RELEASE waits for its
own notice; or it completes OK with 0; or it snaps. By the end notice of its slot it completes with the moved count,
OK, SUPERSEDED or CANCELLED by the reason, and the slot and the record are absent. A head that goes in step 1 is log
entry 17; notices sent before the answer are taken before it (log entry 15); that it waits after a refused slot request
is log entry 39, that each of its steps is one piece of work is log entry 51, and that notices may be taken between its steps
is log entry 52 (the model's choices). -/
def Obligations.ReleasesRunAndEnd : Prop :=
  (∀ (order : List Nat) (s : State) (e : Staged PlaybackRequest) (p : Nat) (given : Option Nat), canonical s →
    finds s [e] [] [] [] [] → e.request = .release p given →
    frameStartDoes order s ((begun s frameAgenda false).applyRelease p given e.owed)) ∧
  ∀ (w : FrameWork) (p k : Nat) (given : Option Nat) (o : Owed), 25 ≤ w.period →
    w.applyRelease p given o =
      { waitersCancelled w p with agenda := .releaseRead p given o :: (waitersCancelled w p).agenda } ∧
    (ownedBy w.s p = 0 → w.releaseRead p given o = w.finish o .ok 0) ∧
    (ownedBy w.s p ≠ 0 →
      w.releaseRead p given o =
        { w with
          agenda := .releaseSlot p
            (framesIn (match given with
              | some time => time
              | none => (w.s.controller.playback p).defaultRelease) w.period) o :: w.agenda }) ∧
    (∀ T, ∃ v, w.releaseSlot p T o = v ∧
      releaseAnswered p o
        ((noticesTaken w).requestSlot
          { kind := .release, playback := p, priority := ((noticesTaken w).s.controller.playback p).priority,
            isPaused := decide (((noticesTaken w).s.controller.playback p).paused ≠ none), pairs := [], length := T,
            curve := .linear }) v) ∧
    ∀ reason : EndReason, ∃ v,
      w.takeNotice { slot := k, playback := p, kind := .release, reason := reason } = v ∧
      releaseEnds w p k
        (match reason with
          | .ended => .ok
          | .lost | .released | .snapped => .superseded
          | .cleared | .showReset => .cancelled) v

/-! ## Band requests, applied -/

/-- START_BAND at its frame start (R90, R93, R94). FRAME_START applies one that alone is staged for the frame, and
does what follows from it: its four checks in order, with status and detail; when they pass, the range is fixed
from the record and the port's configuration in force, the batch is sent, the band is RUNNING from this frame with the
denied count, and the request completes OK with the granted and denied counts. Its OK is handed over while the notices
of the slots that its batch empties are still to be taken, and so before their SUPERSEDED completions: log entry 33; and
in the same piece of work as its batch, before any later claim is answered: log entry 51 (the model's choices, unsafe). -/
def Obligations.StartBandClaimsItsRange : Prop :=
  (∀ (order : List Nat) (s : State) (e : Staged BandRequest) (b priority : Nat), canonical s →
    finds s [] [e] [] [] [] → e.request = .start b priority →
    ∃ agenda passed,
      standsAt agenda passed ∧ frameStartDoes order s ((begun s agenda passed).applyStartBand e.owed b priority)) ∧
  ∀ (w : FrameWork) (o : Owed) (b priority : Nat), w.resetArbiter = false →
    (w.s.bands.band b = .undefined ∨ (∃ d, w.s.bands.band b = .loading d) →
      w.applyStartBand o b priority = w.finish o .notReady 0) ∧
    (∀ d r, w.s.bands.band b = .running d r → w.applyStartBand o b priority = w.finish o .busy 0) ∧
    ∀ d c, w.s.bands.band b = .stopped d → (w.s.ports.port d.port).applied = c →
      (c.components ≠ d.components → w.applyStartBand o b priority = w.finish o .badField c.components) ∧
      (c.components = d.components → c.pixels < d.firstPixel + (d.lead + d.roll + d.tail) →
        w.applyStartBand o b priority = w.finish o .badField c.pixels) ∧
      (c.components = d.components → d.firstPixel + (d.lead + d.roll + d.tail) ≤ c.pixels →
        ∃ (v : FrameWork) (batch : Table Channel × ArbiterReport),
          batch = bandBatch w.s.arbiter.channels b priority (c.first + d.firstPixel * d.components)
            ((d.lead + d.roll + d.tail) * d.components) ∧
          w.applyStartBand o b priority = v.finish o .ok (batch.2.granted + 65536 * batch.2.denied) ∧
          v = { w with
            s := { w.s with
              arbiter := { channels := batch.1 }
              engine := v.s.engine
              store := returned w.s.store (emptied w.s.engine batch.2.lost)
              bands := { w.s.bands with
                records := w.s.bands.records.set Band.undefined b
                  (.running d
                    { originFrame := w.s.clock.frame, priority := priority,
                      firstChannel := c.first + d.firstPixel * d.components,
                      channelCount := (d.lead + d.roll + d.tail) * d.components, denied := batch.2.denied }) } }
            notices := w.notices ++ endNotices .lost (emptied w.s.engine batch.2.lost) } ∧
          ∀ j, afterLosses batch.2.lost w.s.clock.frame (w.s.engine.slot j) (v.s.engine.slot j) j)

/-- STOP_BAND and SET_ROLL at their frame start (R95, R96). FRAME_START applies the one staged for the frame, and where it
finds nothing else does nothing else. STOP_BAND keeps the offset last shown, frees the band's channels and completes
OK with their number; SET_ROLL takes the new step and period from the offset shown now, or from its own, and completes
OK with the origin offset; each by the band's state, and NOT_READY without a pattern. That the OK of STOP_BAND is handed over
in the same piece of work as its stop order, and so before the completion of any request whose claim comes after that order,
is log entry 51 (the model's choice, unsafe). -/
def Obligations.StopBandAndSetRollKeepTheOffset : Prop :=
  (∀ (order : List Nat) (s : State) (e : Staged BandRequest), canonical s → finds s [] [e] [] [] [] →
    (∀ b, e.request = .stop b →
      exec (.frameStart (undisturbed order)) s = .next ((begun s frameAgenda false).applyStopBand e.owed b).s) ∧
    ∀ b step period offset, e.request = .setRoll b step period offset →
      exec (.frameStart (undisturbed order)) s =
        .next ((begun s frameAgenda false).applySetRoll e.owed b step period offset).s) ∧
  ∀ (w : FrameWork) (o : Owed) (b : Nat) (step : Int) (period : Nat) (offset : Option Nat), w.resetArbiter = false →
    (w.s.bands.band b = .undefined ∨ (∃ d, w.s.bands.band b = .loading d) →
      w.applyStopBand o b = w.finish o .notReady 0 ∧ w.applySetRoll o b step period offset = w.finish o .notReady 0) ∧
    (∀ d, w.s.bands.band b = .stopped d →
      w.applyStopBand o b = w.finish o .ok 0 ∧
      ∃ o0, (offset = none → o0 = d.originOffset) ∧
        (∀ v, offset = some v → o0 = if d.roll = 0 then 0 else v % d.roll) ∧
        w.applySetRoll o b step period offset =
          { w with
            s := { w.s with
              bands := { w.s.bands with
                records := w.s.bands.records.set Band.undefined b
                  (.stopped { d with step := step, stepPeriod := period, originOffset := o0 }) } } }.finish o .ok o0) ∧
    ∀ d r, w.s.bands.band b = .running d r →
      (∃ o0, (w.s.clock.frame - 1 < r.originFrame → o0 = d.originOffset) ∧
        (r.originFrame ≤ w.s.clock.frame - 1 → o0 = rollOffset d r.originFrame (w.s.clock.frame - 1)) ∧
        w.applyStopBand o b =
          { w with
            s := { w.s with
              arbiter := { channels := (stopOrder w.s.arbiter.channels b).1 }
              bands := { w.s.bands with
                records := w.s.bands.records.set Band.undefined b (.stopped { d with originOffset := o0 }) } } }.finish o
            .ok (stopOrder w.s.arbiter.channels b).2.granted) ∧
      ∃ o0, (offset = none → o0 = rollOffset d r.originFrame w.s.clock.frame) ∧
        (∀ v, offset = some v → o0 = if d.roll = 0 then 0 else v % d.roll) ∧
        w.applySetRoll o b step period offset =
          { w with
            s := { w.s with
              bands := { w.s.bands with
                records := w.s.bands.records.set Band.undefined b
                  (.running { d with step := step, stepPeriod := period, originOffset := o0 }
                    { r with originFrame := w.s.clock.frame }) } } }.finish o .ok o0

/-! ## Staged requests of the clock, the composer, the ports and the groups, at a frame start -/

namespace Sys2Proof.Claims

open Machine Safety

/-- The state with the frame advanced and the composer's entries of that frame taken. -/
def frameOn (s : State) : State :=
  { s with
    clock := { s.clock with
      frame := s.clock.frame + 1
      staged := s.clock.staged.filter (fun e => e.frame ≠ s.clock.frame + 1) } }

/-- Two runs of channels share one (R107). -/
def shares (first count : Nat) (r : ParkRange) : Prop :=
  ∃ c, (first ≤ c ∧ c < first + count) ∧ r.first ≤ c ∧ c < r.first + r.count

/-- What one staged request of the composer leads to (R107 to R110, R112). SHOW_RESET is not among them. -/
def composes (s : State) (e : Staged ClockRequest) (t : State) : Prop :=
  match e.request with
  | .compose (.park first count level) =>
    (∀ r ∈ s.clock.parks, shares first count r → (∀ x ∈ s.clock.parks, shares first count x → r.first ≤ x.first) →
      t = s.finish e.owed .overlap r.first) ∧
    ((∀ r ∈ s.clock.parks, ¬shares first count r) → s.clock.parks.length = 32 → t = s.finish e.owed .listFull 32) ∧
    ((∀ r ∈ s.clock.parks, ¬shares first count r) → s.clock.parks.length < 32 →
      ∃ parks : List ParkRange,
        parks.Perm ({ first := first, count := count, level := level } :: s.clock.parks) ∧
        parks.Pairwise (fun a b => a.first ≤ b.first) ∧
        t = State.finish { s with clock := { s.clock with parks := parks } } e.owed .ok (s.clock.parks.length + 1))
  | .compose (.unpark first count) =>
    (∀ before after level,
      s.clock.parks = before ++ { first := first, count := count, level := level } :: after →
      (∀ r ∈ before, ¬(r.first = first ∧ r.count = count)) →
      t = State.finish { s with clock := { s.clock with parks := before ++ after } } e.owed .ok
        (before ++ after).length) ∧
    ((∀ r ∈ s.clock.parks, ¬(r.first = first ∧ r.count = count)) → t = s.finish e.owed .notFound 0)
  | .compose (.setMaster m) =>
    t = State.finish { s with clock := { s.clock with master := m } } e.owed .ok s.clock.master.toNat
  | .setPeriod p => t = State.finish { s with clock := { s.clock with period := p } } e.owed .ok s.clock.period
  | .showReset => False

/-- The staged requests of the composer are applied, one after the other (R103). -/
inductive ComposesAll : State → List (Staged ClockRequest) → State → Prop
  | nil (s : State) : ComposesAll s [] s
  | cons (s m t : State) (e : Staged ClockRequest) (rest : List (Staged ClockRequest)) (h : composes s e m)
      (hr : ComposesAll m rest t) : ComposesAll s (e :: rest) t

/-- One CONFIG_PORT at its frame start (R137). -/
def configures (s : State) (e : Staged PortRequest) : State :=
  State.finish
    { s with
      ports := { s.ports with
        records := s.ports.records.set Port.atReset e.request.port
          { applied := e.request.config, accepted := (s.ports.port e.request.port).accepted,
            state := if e.request.config.enable = true then .held else .disabled, missCount := 0, goodCount := 0,
            lostAt := none, line := (s.ports.port e.request.port).line } } }
    e.owed .ok
    (match (s.ports.port e.request.port).state with
      | .disabled => 0
      | .held => 1
      | .sending => 2
      | .lost => 3)

/-- The held requests of a group, in held order (R119). -/
def membersOf (w : FrameWork) (g : Nat) : List HeldRequest := w.s.groups.hold.filter (fun h => h.group = g)

end Sys2Proof.Claims

/-- PARK, UNPARK, SET_MASTER and SET_FRAME_PERIOD at their frame start (R103, R107 to R110, R112), any number of them,
in the order they were taken. PARK: OVERLAP with the first channel of the lowest range that shares a channel;
LIST_FULL with 32; or OK with the ranges then held, the new one in its place. UNPARK: OK with the ranges left, or
NOT_FOUND. SET_MASTER and SET_FRAME_PERIOD: OK with the value before. Nothing else changes at a frame start that finds
no other work. -/
def Obligations.ComposerRequestsAreApplied : Prop :=
  ∀ (course : FrameCourse) (s : State), canonical s → noLoadEnds course s → course.intake = [] → ninthLaw s →
    (∀ r ∈ s.clock.parks, 1 ≤ r.count) →
    calmAt s (s.clock.frame + 1) → stamped (s.clock.frame + 1) s.controller.staged = [] →
    stamped (s.clock.frame + 1) s.bands.staged = [] → stamped (s.clock.frame + 1) s.groups.commits = [] →
    stamped (s.clock.frame + 1) s.ports.staged = [] →
    (∀ e ∈ stamped (s.clock.frame + 1) s.clock.staged, e.request ≠ .showReset ∧
      ∀ first count level, e.request = .compose (.park first count level) → 1 ≤ count) →
    ∃ t, exec (.frameStart course) s = .next t ∧
      ComposesAll (frameOn s) (stamped (s.clock.frame + 1) s.clock.staged) t

/-- CONFIG_PORT at its frame start (R137), any number of them, in the order they were taken: the configuration is
applied, the port is HELD or DISABLED with its echo fields cleared, whatever it was, and the request completes OK with
the state before. COMMIT (R123): FRAME_START applies one that alone is staged for the frame, and does what follows from it. The
group's held requests leave the hold list, each for its owner in held order, the others stay, and COMMIT completes OK
with the number that the group holds when it is applied, those among them that joined in the midst of the frame start
(HeldRequestsJoinAndLeave); that its OK comes before their completions is the model's choice (log entry 48, unsafe).
A released request (R124) is applied at once by its owner, by the page of its kind; after the owner's show-reset
notice it ends CANCELLED (R82, R98, R116, R128); and a RESUME taken after the staged pass is followed by the sweep of
its playback. -/
def Obligations.ConfigPortAndCommitAreApplied : Prop :=
  (∀ (course : FrameCourse) (s : State), canonical s → noLoadEnds course s → course.intake = [] →
    calmAt s (s.clock.frame + 1) → stamped (s.clock.frame + 1) s.controller.staged = [] →
    stamped (s.clock.frame + 1) s.bands.staged = [] → stamped (s.clock.frame + 1) s.groups.commits = [] →
    stamped (s.clock.frame + 1) s.clock.staged = [] →
    exec (.frameStart course) s =
      .next ((stamped (s.clock.frame + 1) s.ports.staged).foldl configures
        { s with
          clock := { s.clock with frame := s.clock.frame + 1 }
          ports := { s.ports with staged := s.ports.staged.filter (fun e => e.frame ≠ s.clock.frame + 1) } })) ∧
  (∀ (order : List Nat) (s : State) (e : Staged Nat), canonical s → finds s [] [] [e] [] [] →
    ∃ agenda passed,
      standsAt agenda passed ∧ frameStartDoes order s ((begun s agenda passed).applyCommit e.owed e.request)) ∧
  (∀ (w : FrameWork) (o : Owed) (r : PlaybackRequest),
    (w.resetController = true → w.takeReleased o r = w.finish o .cancelled 0) ∧
    (w.resetController = false →
      ((∀ p, r ≠ .resume p) ∨ w.stagedOver = false → w.takeReleased o r = w.applyPlayback o r) ∧
      ∀ p, r = .resume p → w.stagedOver = true →
        w.takeReleased o r = { w.applyResume p o with agenda := .sweep p :: (w.applyResume p o).agenda })) ∧
  (∀ (w : FrameWork) (o : Owed) (r : BandRequest),
    (w.resetBands = true → w.takeReleasedBand o r = w.finish o .cancelled 0) ∧
    (w.resetBands = false → w.takeReleasedBand o r = w.applyBand o r)) ∧
  (∀ (w : FrameWork) (o : Owed) (q : ComposeRequest),
    (w.resetSent = true → w.takeReleasedCompose o q = w.finish o .cancelled 0) ∧
    (w.resetSent = false → w.takeReleasedCompose o q = w.applyClock o (.compose q))) ∧
  ∀ (w : FrameWork) (o : Owed) (g : Nat),
    w.applyCommit o g =
      { w with
        s := { w.s with groups := { w.s.groups with hold := w.s.groups.hold.filter (fun h => h.group ≠ g) } }
        toController := w.toController ++ (membersOf w g).filterMap (fun h : HeldRequest => match h.request with
          | .playback r => some (owes h.ctx, r)
          | _ => none)
        toBands := w.toBands ++ (membersOf w g).filterMap (fun h : HeldRequest => match h.request with
          | .band r => some (owes h.ctx, r)
          | _ => none)
        toComposer := w.toComposer ++ (membersOf w g).filterMap (fun h : HeldRequest => match h.request with
          | .compose r => some (owes h.ctx, r)
          | _ => none) }.finish o .ok (membersOf w g).length

/-! ## The show reset -/

namespace Sys2Proof.Claims

open Machine Safety

/-- Requests end CANCELLED, each with its detail. -/
def cancelled (s : State) (l : List (Owed × Nat)) : State := l.foldl (fun t x => t.finish x.1 .cancelled x.2) s

/-- The reporting cues of a playback, pending and in flight, and its RELEASE, with their details (R67, R79, R82). -/
def playbackOwes (q : Playback) : List (Owed × Nat) :=
  ((q.pending ++ q.inFlight).filter (fun c => c.report = true)).map (fun c => (owes c.ctx, cueDetail c)) ++
    (match q.releaseRecord with
      | some r => [(r.owed, r.moved)]
      | none => [])

/-- What an unfinished step of the controller owes (R82). -/
def stepOwes : ControllerStep → Option Owed
  | .goChain _ _ o => some o
  | .releaseRead _ _ o => some o
  | .releaseSlot _ _ o => some o
  | .snap _ o => some o
  | .awaitReset o => o
  | .stagedPass | .sweep _ | .fadeStart _ _ | .wake _ _ | .tryHead _ => none

/-- The requests of the loads in the queue that fill scenes, in queue order. -/
def sceneLoadsOwe (s : State) : List (Owed × Nat) :=
  s.store.loads.filterMap (fun l => match l.target with
    | .scene _ => some (owes l.ctx, 0)
    | .band _ => none)

end Sys2Proof.Claims

/-- SHOW_RESET at its frame start, in any state and every order of the blocks' work (R17, R32, R52, R82, R98, R116,
R128, R164). Afterwards every channel is FREE at 0 with its last level kept, every scene EMPTY, every block free, no
load queued, every slot FREE and available by the next frame, every playback at its cold-reset values, every band
UNDEFINED, nothing held, nothing staged for this frame, no park range, the master 65535, and intake no longer paused.
Intake pauses behind a SHOW_RESET, so that it is the composer's last entry of its frame (R115). Each block that takes
its notice ends CANCELLED what it holds: the store its scene loads, the Band Unit its requests and the band loads, the
controller its requests, cues and RELEASEs, the Frame Group Unit its held requests and COMMITs. The order within a
block is log entry 22, and that SHOW_RESET's own OK comes before all of these is the model's choice (log entry 47,
unsafe). The arbiter's report on its order goes to the Transition Engine (R10), which frees the slots that keep no channel, if
its own notice has not freed them before (R48, R52); that it does so with the reason SHOW_RESET is log entry 49 (the model's
choice, unsafe). -/
def Obligations.ShowResetClearsTheShow : Prop :=
  (∀ (course : FrameCourse) (s : State) (before after : List (Staged ClockRequest)) (e : Staged ClockRequest),
    canonical s → s.clock.staged = before ++ e :: after → e.request = .showReset → e.frame = s.clock.frame + 1 →
    (∀ x ∈ after, x.frame ≠ s.clock.frame + 1) →
    ∃ t, exec (.frameStart course) s = .next t ∧
      (∀ c, t.arbiter.channel c = { holding := .free 0, last := (s.arbiter.channel c).last }) ∧
      (∀ i, t.store.scene i = Scene.none) ∧ t.store.freeBlocks = 2048 ∧ t.store.loads = [] ∧
      (∀ k, ∃ a, t.engine.slot k = .free a ∧ (a = s.clock.frame + 2 ∨ s.engine.slot k = .free a)) ∧
      (∀ p, t.controller.playback p = Playback.atReset) ∧ (∀ b, t.bands.band b = .undefined) ∧
      t.groups.hold = [] ∧ t.clock.parks = [] ∧ t.clock.master = 65535 ∧ t.host.intakePause = false ∧
      stamped (s.clock.frame + 1) t.controller.staged = [] ∧ stamped (s.clock.frame + 1) t.bands.staged = [] ∧
      stamped (s.clock.frame + 1) t.groups.commits = [] ∧ stamped (s.clock.frame + 1) t.clock.staged = []) ∧
  ∀ w : FrameWork,
    (∀ o, w.applyClock o .showReset =
      { w with
        resetSent := true
        s := { w.s with
          clock := { w.s.clock with parks := [], master := 65535 }
          host := { w.s.host with intakePause := false } } }.finish o .ok 0) ∧
    w.showResetStore.s.host = (cancelled w.s (sceneLoadsOwe w.s)).host ∧
    w.showResetBands.s.host = (cancelled w.s
      ((w.bandWaits.toList ++ (stamped w.s.clock.frame w.s.bands.staged).map Staged.owed ++ w.bandLoads.map owes).map
        (fun o => (o, 0)))).host ∧
    (∀ s : State, ∀ f, (s.beginFrame f).bandLoads = s.store.loads.filterMap (fun l => match l.target with
      | .scene _ => none
      | .band _ => some l.ctx)) ∧
    w.showResetController.s.host = (cancelled w.s
      ((w.agenda.filterMap stepOwes ++ (stamped w.s.clock.frame w.s.controller.staged).map Staged.owed).map
          (fun o => (o, 0)) ++
        (List.range 16).flatMap (fun p => playbackOwes (w.s.controller.playback p)) ++
        w.superseded.map (fun x => (x.2.owed, x.2.moved)))).host ∧
    w.showResetGroups.s.host = (cancelled w.s
      ((w.s.groups.hold.map (fun h => owes h.ctx) ++ (stamped w.s.clock.frame w.s.groups.commits).map Staged.owed).map
        (fun o => (o, 0)))).host ∧
    w.showResetArbiter =
      { w with
        s := { w.s with arbiter := { channels := (showResetOrder w.s.arbiter.channels).1 } }
        resetArbiter := true
        resetLosses := (showResetOrder w.s.arbiter.channels).2.lost } ∧
    (w.resetLosses.Pairwise (fun a b => a.1 < b.1) →
      ∃ v : FrameWork, w.takeResetReport = v ∧
        v = { w with
          s := { w.s with engine := v.s.engine, store := returned w.s.store (emptied w.s.engine w.resetLosses) }
          notices := w.notices ++ endNotices .showReset (emptied w.s.engine w.resetLosses)
          resetLosses := [] } ∧
        ∀ j, afterLosses w.resetLosses w.s.clock.frame (w.s.engine.slot j) (v.s.engine.slot j) j) ∧
    (canonical w.s → w.showResetEngine.notices = w.notices ++
      endNotices .showReset (w.s.engine.slots.cells.filterMap (fun x => match x.2 with
        | .inUse r => some (x.1, r)
        | .free _ => none)))

/-! ## What every step keeps -/

/-- Every step keeps the canonical form of the tables and the laws of the Host Queue Unit and of the hold list: the
seventh (R163), the eighth (R119) and the twelfth (R169), the quiet of the interface outside RUNNING (R159, R174), and
that what the registers read fits their bits (R179). -/
def Obligations.StepKeepsTheHostLaws : Prop :=
  ∀ s t : State, canonical s ∧ seventhLaw s ∧ eighthLaw s ∧ twelfthLaw s ∧ quietOutsideRunning s ∧
      registersFit s →
    step s = .next t →
    canonical t ∧ seventhLaw t ∧ eighthLaw t ∧ twelfthLaw t ∧ quietOutsideRunning t ∧ registersFit t

/-- Every step keeps the laws of the stores and the lists: the fourth (R21), the fifth (R55) and the ninth (R107), and
the range of the frame periods (R100, R111). The canonical form is a premise. -/
def Obligations.StepKeepsTheStoreLaws : Prop :=
  ∀ s t : State, canonical s → fourthLaw s ∧ fifthLaw s ∧ ninthLaw s ∧ legalPeriods s → step s = .next t →
    fourthLaw t ∧ fifthLaw t ∧ ninthLaw t ∧ legalPeriods t

/-- Every step keeps the eleventh law (R146) with what keeps it. The canonical form is a premise. -/
def Obligations.StepKeepsTheSequencerLaw : Prop :=
  ∀ s t : State, canonical s → sequencerLaw s → step s = .next t → sequencerLaw t

/-- Every step keeps the second law (R36: a slot is IN_USE exactly while a channel names it) and the third law (R23: a
scene's use count is the number of IN_USE CUE slots of the scene, and only a READY scene has one), with what keeps
them: the channel counts of the slots, the contents of the scenes, and the load queue with what is LOADING (R19, R20,
R24, R25, R35, R36). The canonical form is a premise. The loads' numbers, of which the last law says that they rise,
are the model's (log entry 31). -/
def Obligations.StepKeepsTheShowLaws : Prop :=
  ∀ s t : State, canonical s → showLaws s → step s = .next t → showLaws t
end

