-- ==== Sys2Proof/Laws/Table.lean ====
section
/-! SUPPORT. What the operations of a table do to each record, and that they keep the canonical form. -/

namespace Sys2Proof.Machine

namespace Table

variable {α : Type}

@[simp] theorem get_empty (d : α) (k : Nat) : (Table.empty : Table α).get d k = d := rfl

theorem lookup_insertCell (d : α) (k : Nat) (v : α) (cells : List (Nat × α)) (j : Nat) :
    lookup d (insertCell k v cells) j = if j = k then v else lookup d cells j := by
  induction cells with
  | nil => simp only [insertCell, lookup, eq_comm]
  | cons c rest ih =>
    obtain ⟨i, w⟩ := c
    simp only [insertCell]
    by_cases hj : j = k
    · subst hj
      split
      · simp [lookup]
      · split
        · simp [lookup]
        · rename_i h1 h2
          have : i ≠ j := fun h => h2 h.symm
          simp [lookup, ih, this]
    · have hk : k ≠ j := fun h => hj h.symm
      split
      · simp [lookup, hk]
      · split
        · subst_vars; simp [lookup, hk]
        · simp [lookup, ih, hj]

theorem lookup_eraseCell (d : α) (k : Nat) (cells : List (Nat × α)) (j : Nat) :
    lookup d (eraseCell k cells) j = if j = k then d else lookup d cells j := by
  induction cells with
  | nil => simp [eraseCell, lookup]
  | cons c rest ih =>
    obtain ⟨i, w⟩ := c
    unfold eraseCell at ih ⊢
    by_cases h : i = k
    · subst h
      rw [List.filter_cons_of_neg (by simp), ih]
      by_cases hj : j = i
      · simp [hj]
      · have : i ≠ j := fun h => hj h.symm
        simp [hj, lookup, this]
    · rw [List.filter_cons_of_pos (by simpa using h), lookup, ih]
      by_cases hj : j = k
      · subst hj; simp [h]
      · simp [hj, lookup]

/-- Reading a record after writing one. -/
@[simp] theorem get_set [DecidableEq α] (d : α) (t : Table α) (k : Nat) (v : α) (j : Nat) :
    (t.set d k v).get d j = if j = k then v else t.get d j := by
  unfold Table.set Table.get
  by_cases h : v = d
  · simp only [h, if_true, lookup_eraseCell]
  · simp only [h, if_false, lookup_insertCell]

/-! ## Canonical form -/

theorem risingFrom_mono {lo lo' : Nat} (h : lo' ≤ lo) :
    (cells : List (Nat × α)) → risingFrom (some lo) cells = true → risingFrom (some lo') cells = true
  | [], _ => rfl
  | (k, _) :: _, hr => by
    simp only [risingFrom, Bool.and_eq_true, decide_eq_true_eq] at hr ⊢
    exact ⟨by omega, hr.2⟩

theorem risingFrom_of_none {k : Nat} {v : α} {rest : List (Nat × α)} {lo : Option Nat}
    (h : risingFrom lo ((k, v) :: rest) = true) : risingFrom (some k) rest = true := by
  cases lo <;> simp_all [risingFrom]

/-- Every key of a rising list lies above its bound. -/
theorem lt_of_risingFrom : (cells : List (Nat × α)) → (lo : Nat) → risingFrom (some lo) cells = true →
    ∀ c ∈ cells, lo < c.1
  | [], _, _, _, hc => by cases hc
  | (k, v) :: rest, lo, h, c, hc => by
    simp only [risingFrom, Bool.and_eq_true, decide_eq_true_eq] at h
    rcases List.mem_cons.mp hc with rfl | hc
    · exact h.1
    · exact Nat.lt_trans h.1 (lt_of_risingFrom rest k h.2 c hc)

theorem lookup_of_lt (d : α) : (cells : List (Nat × α)) → (lo j : Nat) → risingFrom (some lo) cells = true → j ≤ lo →
    lookup d cells j = d
  | [], _, _, _, _ => rfl
  | (k, v) :: rest, lo, j, h, hj => by
    simp only [risingFrom, Bool.and_eq_true, decide_eq_true_eq] at h
    have : k ≠ j := by omega
    simp only [lookup, this, if_false]
    exact lookup_of_lt d rest k j h.2 (by omega)

theorem risingFrom_insertCell (k : Nat) (v : α) : (cells : List (Nat × α)) → (lo : Nat) → lo < k →
    risingFrom (some lo) cells = true → risingFrom (some lo) (insertCell k v cells) = true
  | [], lo, hk, _ => by simp [insertCell, risingFrom, hk]
  | (j, w) :: rest, lo, hk, h => by
    simp only [risingFrom, Bool.and_eq_true, decide_eq_true_eq] at h
    simp only [insertCell]
    split
    · simp [risingFrom, *]
    · split
      · subst_vars; simp [risingFrom, hk, h.2]
      · simp only [risingFrom, Bool.and_eq_true, decide_eq_true_eq]
        exact ⟨h.1, risingFrom_insertCell k v rest j (by omega) h.2⟩

theorem rising_insertCell (k : Nat) (v : α) (cells : List (Nat × α)) (h : risingFrom none cells = true) :
    risingFrom none (insertCell k v cells) = true := by
  cases cells with
  | nil => rfl
  | cons c rest =>
    obtain ⟨j, w⟩ := c
    have hr := risingFrom_of_none h
    simp only [insertCell]
    split
    · simp [risingFrom, *]
    · split
      · subst_vars; simpa [risingFrom] using hr
      · exact risingFrom_insertCell k v rest j (by omega) hr

theorem risingFrom_sublist {a b : List (Nat × α)} (h : List.Sublist a b) :
    ∀ lo, risingFrom (some lo) b = true → risingFrom (some lo) a = true := by
  induction h with
  | slnil => intro _ _; rfl
  | cons c _ ih =>
    intro lo hb
    obtain ⟨k, v⟩ := c
    simp only [risingFrom, Bool.and_eq_true, decide_eq_true_eq] at hb
    exact risingFrom_mono (by omega) _ (ih k hb.2)
  | cons_cons c _ ih =>
    intro lo hb
    obtain ⟨k, v⟩ := c
    simp only [risingFrom, Bool.and_eq_true, decide_eq_true_eq] at hb ⊢
    exact ⟨hb.1, ih k hb.2⟩

theorem rising_of_some {lo : Nat} : (cells : List (Nat × α)) → risingFrom (some lo) cells = true →
    risingFrom none cells = true
  | [], _ => rfl
  | (_, _) :: _, h => by
    simp only [risingFrom, Bool.and_eq_true] at h
    exact h.2

theorem rising_sublist {a b : List (Nat × α)} (h : List.Sublist a b) (hb : risingFrom none b = true) :
    risingFrom none a = true := by
  cases h with
  | slnil => rfl
  | cons c h' => exact rising_of_some _ (risingFrom_sublist h' _ (risingFrom_of_none hb))
  | cons_cons c h' => exact risingFrom_sublist h' _ (risingFrom_of_none hb)

theorem mem_insertCell (k : Nat) (v : α) : (cells : List (Nat × α)) → ∀ c ∈ insertCell k v cells, c = (k, v) ∨ c ∈ cells
  | [], c, hc => by simpa [insertCell] using hc
  | (j, w) :: rest, c, hc => by
    simp only [insertCell] at hc
    split at hc
    · simpa using hc
    · split at hc
      · rcases List.mem_cons.mp hc with h | h
        · exact .inl h
        · exact .inr (List.mem_cons_of_mem _ h)
      · rcases List.mem_cons.mp hc with h | h
        · exact .inr (h ▸ List.mem_cons_self)
        · rcases mem_insertCell k v rest c h with h' | h'
          · exact .inl h'
          · exact .inr (List.mem_cons_of_mem _ h')

theorem wf_iff [DecidableEq α] (d : α) (t : Table α) :
    t.wf d = true ↔ risingFrom none t.cells = true ∧ ∀ c ∈ t.cells, c.2 ≠ d := by
  simp [wf]

/-- Writing a record keeps the canonical form. -/
theorem set_wf [DecidableEq α] (d : α) (t : Table α) (k : Nat) (v : α) (h : t.wf d = true) :
    (t.set d k v).wf d = true := by
  rw [wf_iff] at h ⊢
  unfold Table.set
  split
  · exact ⟨rising_sublist List.filter_sublist h.1, fun c hc => h.2 c ((List.mem_filter.mp hc).1)⟩
  · refine ⟨rising_insertCell k v _ h.1, fun c hc => ?_⟩
    rcases mem_insertCell k v _ c hc with rfl | hc
    · assumption
    · exact h.2 c hc

theorem risingFrom_filterMap {β : Type} (g : Nat × α → Option (Nat × β)) (hg : ∀ c c', g c = some c' → c'.1 = c.1) :
    (cells : List (Nat × α)) → (lo : Nat) → risingFrom (some lo) cells = true →
      risingFrom (some lo) (cells.filterMap g) = true
  | [], _, _ => rfl
  | (k, v) :: rest, lo, h => by
    simp only [risingFrom, Bool.and_eq_true, decide_eq_true_eq] at h
    cases hc : g (k, v) with
    | none =>
      rw [List.filterMap_cons_none hc]
      exact risingFrom_filterMap g hg rest lo (risingFrom_mono (by omega) _ h.2)
    | some c' =>
      rw [List.filterMap_cons_some hc]
      have hk := hg _ _ hc
      obtain ⟨k', v'⟩ := c'
      simp only at hk
      subst hk
      simp only [risingFrom, Bool.and_eq_true, decide_eq_true_eq]
      exact ⟨h.1, risingFrom_filterMap g hg rest _ h.2⟩

/-- Changing every record keeps the canonical form. -/
theorem mapCells_wf [DecidableEq α] (d : α) (f : Nat → α → α) (t : Table α) (h : t.wf d = true) :
    (t.mapCells d f).wf d = true := by
  rw [wf_iff] at h ⊢
  obtain ⟨cells⟩ := t
  refine ⟨?_, ?_⟩
  · have hg : ∀ (c c' : Nat × α), (if f c.1 c.2 = d then none else some (c.1, f c.1 c.2)) = some c' → c'.1 = c.1 := by
      intro c c' h; split at h <;> cases h; rfl
    cases cells with
    | nil => rfl
    | cons c rest =>
      have hr := risingFrom_of_none h.1
      simp only [mapCells, List.filterMap_cons]
      split
      · exact rising_of_some _ (risingFrom_filterMap _ hg rest _ hr)
      · rename_i c' hc
        have := hg _ _ hc
        obtain ⟨k', v'⟩ := c'
        simp only at this
        subst this
        exact risingFrom_filterMap _ hg rest _ hr
  · intro c hc
    simp only [mapCells, List.mem_filterMap] at hc
    obtain ⟨b, -, hb⟩ := hc
    split at hb <;> cases hb; assumption

theorem empty_wf [DecidableEq α] (d : α) : (Table.empty : Table α).wf d = true := rfl

theorem lookup_mapCells [DecidableEq α] (d : α) (f : Nat → α → α) (k : Nat) (hd : f k d = d) :
    (cells : List (Nat × α)) → (lo : Option Nat) → risingFrom lo cells = true →
    lookup d (cells.filterMap (fun c => if f c.1 c.2 = d then none else some (c.1, f c.1 c.2))) k =
      f k (lookup d cells k)
  | [], _, _ => by simp [lookup, hd]
  | (j, v) :: rest, lo, h => by
    have hr : risingFrom (some j) rest = true := risingFrom_of_none h
    have ih := lookup_mapCells d f k hd rest (some j) hr
    by_cases hjk : j = k
    · subst hjk
      simp only [List.filterMap_cons, lookup, if_true]
      by_cases hv : f j v = d
      · simp only [hv, if_true]
        rw [ih, lookup_of_lt d rest j j hr (Nat.le_refl _), hd]
      · simp [hv, lookup]
    · simp only [List.filterMap_cons, lookup, hjk, if_false]
      by_cases hv : f j v = d
      · simp only [hv, if_true]; exact ih
      · simp only [hv, if_false, lookup, hjk]; exact ih

/-- Reading a record after changing every one. -/
theorem get_mapCells [DecidableEq α] (d : α) (f : Nat → α → α) (t : Table α) (k : Nat) (hd : f k d = d)
    (h : t.wf d = true) : (t.mapCells d f).get d k = f k (t.get d k) :=
  lookup_mapCells d f k hd t.cells none ((wf_iff d t).mp h).1

theorem set_self_empty [DecidableEq α] (d : α) (k : Nat) : (Table.empty : Table α).set d k d = Table.empty := by
  simp [Table.set, Table.empty, eraseCell]

/-! ## The listed records -/

theorem lookup_of_mem (d : α) : (cells : List (Nat × α)) → (lo : Option Nat) → risingFrom lo cells = true →
    ∀ c ∈ cells, lookup d cells c.1 = c.2
  | [], _, _, _, hc => by cases hc
  | (j, v) :: rest, lo, h, c, hc => by
    have hr : risingFrom (some j) rest = true := risingFrom_of_none h
    rcases List.mem_cons.mp hc with rfl | hc
    · simp [lookup]
    · have : j ≠ c.1 := Nat.ne_of_lt (lt_of_risingFrom rest j hr c hc)
      simp only [lookup, this, if_false]
      exact lookup_of_mem d rest (some j) hr c hc

theorem mem_of_lookup_ne (d : α) (k : Nat) : (cells : List (Nat × α)) → lookup d cells k ≠ d →
    (k, lookup d cells k) ∈ cells
  | [], h => absurd rfl h
  | (j, v) :: rest, h => by
    by_cases hj : j = k
    · subst hj; simp [lookup]
    · simp only [lookup, hj, if_false] at h ⊢
      exact List.mem_cons_of_mem _ (mem_of_lookup_ne d k rest h)

/-- The numbers of the records that satisfy `p`, where an unlisted record does not. -/
theorem mem_keysWhere [DecidableEq α] (d : α) (p : α → Bool) (t : Table α) (k : Nat) (h : t.wf d = true)
    (h0 : p d = false) : k ∈ t.keysWhere p ↔ p (t.get d k) = true := by
  have hr := ((wf_iff d t).mp h).1
  unfold keysWhere Table.get
  simp only [List.mem_map, List.mem_filter]
  constructor
  · rintro ⟨c, ⟨hc, hp⟩, rfl⟩
    rw [lookup_of_mem d t.cells none hr c hc]; exact hp
  · intro hp
    have hne : lookup d t.cells k ≠ d := by intro e; rw [e, h0] at hp; cases hp
    exact ⟨_, ⟨mem_of_lookup_ne d k t.cells hne, hp⟩, rfl⟩

/-! ## Sums over the records -/

/-- A sum of which no record is a part. -/
theorem total_eq_zero [DecidableEq α] (g : α → Nat) (d : α) (t : Table α) (h : t.wf d = true)
    (h0 : ∀ k, g (t.get d k) = 0) : t.total g = 0 := by
  have hr := ((wf_iff d t).mp h).1
  have all : ∀ cells : List (Nat × α), (∀ c ∈ cells, g c.2 = 0) → (cells.map (fun c => g c.2)).sum = 0 := by
    intro cells hc
    induction cells with
    | nil => rfl
    | cons c rest ih =>
      rw [List.map_cons, List.sum_cons, hc c List.mem_cons_self, ih (fun x hx => hc x (List.mem_cons_of_mem _ hx))]
  refine all t.cells (fun c hc => ?_)
  have := h0 c.1
  unfold Table.get at this
  rwa [lookup_of_mem d t.cells none hr c hc] at this

theorem sum_insertCell (g : α → Nat) (d : α) (h0 : g d = 0) (k : Nat) (v : α) : (cells : List (Nat × α)) →
    (lo : Option Nat) → risingFrom lo cells = true →
    ((insertCell k v cells).map (fun c => g c.2)).sum + g (lookup d cells k) =
      (cells.map (fun c => g c.2)).sum + g v
  | [], _, _ => by simp [insertCell, lookup, h0]
  | (j, x) :: rest, lo, h => by
    have hr : risingFrom (some j) rest = true := risingFrom_of_none h
    simp only [insertCell]
    split
    · have hj : j ≠ k := by omega
      have hl : lookup d rest k = d := lookup_of_lt _ rest j k hr (by omega)
      simp only [List.map_cons, List.sum_cons, lookup, hj, if_false, hl, h0]
      omega
    · split
      · subst_vars
        simp only [List.map_cons, List.sum_cons, lookup, if_true]
        omega
      · have hj : j ≠ k := by omega
        have ih := sum_insertCell g d h0 k v rest (some j) hr
        simp only [List.map_cons, List.sum_cons, lookup, hj, if_false]
        omega

theorem sum_eraseCell (g : α → Nat) (d : α) (h0 : g d = 0) (k : Nat) : (cells : List (Nat × α)) →
    (lo : Option Nat) → risingFrom lo cells = true →
    ((eraseCell k cells).map (fun c => g c.2)).sum + g (lookup d cells k) = (cells.map (fun c => g c.2)).sum
  | [], _, _ => by simp [eraseCell, lookup, h0]
  | (j, x) :: rest, lo, h => by
    have hr : risingFrom (some j) rest = true := risingFrom_of_none h
    have ih := sum_eraseCell g d h0 k rest (some j) hr
    by_cases hj : j = k
    · subst hj
      have hl : lookup d rest j = d := lookup_of_lt _ rest j j hr (by omega)
      have he : eraseCell j ((j, x) :: rest) = eraseCell j rest := by simp [eraseCell]
      rw [he]
      simp only [List.map_cons, List.sum_cons, lookup, if_true]
      rw [hl, h0] at ih
      omega
    · have he : eraseCell k ((j, x) :: rest) = (j, x) :: eraseCell k rest := by simp [eraseCell, hj]
      rw [he]
      simp only [List.map_cons, List.sum_cons, lookup, hj, if_false]
      omega

/-- What writing a record does to a sum over the records. -/
theorem total_set [DecidableEq α] (g : α → Nat) (d : α) (t : Table α) (k : Nat) (v : α) (h : t.wf d = true)
    (h0 : g d = 0) : (t.set d k v).total g + g (t.get d k) = t.total g + g v := by
  have hr := ((wf_iff _ _).mp h).1
  unfold Table.total Table.set Table.get
  by_cases hv : v = d
  · subst hv
    simp only [if_true, h0]
    exact sum_eraseCell g v h0 k t.cells none hr
  · simp only [hv, if_false]
    exact sum_insertCell g d h0 k v t.cells none hr

/-- One record is part of the sum. -/
theorem get_le_total [DecidableEq α] (g : α → Nat) (d : α) (t : Table α) (k : Nat) (h : t.wf d = true)
    (h0 : g d = 0) : g (t.get d k) ≤ t.total g := by
  have := total_set g d t k d h h0
  omega

/-- The records of different numbers together are part of the sum. -/
theorem sum_get_le_total [DecidableEq α] (g : α → Nat) (d : α) (h0 : g d = 0) : (l : List Nat) → l.Nodup →
    (t : Table α) → t.wf d = true → (l.map (fun k => g (t.get d k))).sum ≤ t.total g
  | [], _, _, _ => Nat.zero_le _
  | k :: l, hl, t, h => by
    obtain ⟨hk, hl⟩ := List.nodup_cons.mp hl
    have ih := sum_get_le_total g d h0 l hl (t.set d k d) (set_wf _ _ _ _ h)
    have hs := total_set g d t k d h h0
    have he : l.map (fun j => g ((t.set d k d).get d j)) = l.map (fun j => g (t.get d j)) :=
      List.map_congr_left fun j hj => by
        have : j ≠ k := fun e => hk (e ▸ hj)
        rw [get_set]; simp [this]
    rw [he] at ih
    simp only [List.map_cons, List.sum_cons]
    omega

/-- A change of every record that leaves the summand alone leaves the sum. -/
theorem total_mapCells [DecidableEq α] (g : α → Nat) (d : α) (f : Nat → α → α) (t : Table α) (h0 : g d = 0)
    (hf : ∀ k v, g (f k v) = g v) : (t.mapCells d f).total g = t.total g := by
  obtain ⟨cells⟩ := t
  unfold mapCells total
  induction cells with
  | nil => rfl
  | cons c rest ih =>
    simp only [List.filterMap_cons]
    have hc := hf c.1 c.2
    split
    · rename_i he
      split at he
      · rename_i hd
        rw [hd, h0] at hc
        simp only [List.map_cons, List.sum_cons, ← hc, Nat.zero_add]
        exact ih
      · cases he
    · rename_i c' he
      split at he
      · cases he
      · cases he
        simp only [List.map_cons, List.sum_cons, hc]
        exact congrArg _ ih

end Table

end Sys2Proof.Machine
end

