-- ==== Sys2Proof/Laws/State.lean ====
section
/-! SUPPORT. For each named update of the state, one lemma for each field that it leaves, and one that reads a record
back. -/

namespace Sys2Proof.Machine

/-! ## The whole state -/

@[simp] theorem State.withPending_arbiter (s : State) (l : List Instr) : (s.withPending l).arbiter = s.arbiter := rfl
@[simp] theorem State.withPending_store (s : State) (l : List Instr) : (s.withPending l).store = s.store := rfl
@[simp] theorem State.withPending_engine (s : State) (l : List Instr) : (s.withPending l).engine = s.engine := rfl
@[simp] theorem State.withPending_controller (s : State) (l : List Instr) : (s.withPending l).controller = s.controller := rfl
@[simp] theorem State.withPending_bands (s : State) (l : List Instr) : (s.withPending l).bands = s.bands := rfl
@[simp] theorem State.withPending_clock (s : State) (l : List Instr) : (s.withPending l).clock = s.clock := rfl
@[simp] theorem State.withPending_groups (s : State) (l : List Instr) : (s.withPending l).groups = s.groups := rfl
@[simp] theorem State.withPending_ports (s : State) (l : List Instr) : (s.withPending l).ports = s.ports := rfl
@[simp] theorem State.withPending_supply (s : State) (l : List Instr) : (s.withPending l).supply = s.supply := rfl
@[simp] theorem State.withPending_host (s : State) (l : List Instr) : (s.withPending l).host = s.host := rfl

@[simp] theorem State.withPending_pending_eq (s : State) (l : List Instr) : (s.withPending l).pending = l := rfl

@[simp] theorem State.finish_arbiter (s : State) (o : Owed) (st : Status) (n : Nat) : (s.finish o st n).arbiter = s.arbiter := rfl
@[simp] theorem State.finish_store (s : State) (o : Owed) (st : Status) (n : Nat) : (s.finish o st n).store = s.store := rfl
@[simp] theorem State.finish_engine (s : State) (o : Owed) (st : Status) (n : Nat) : (s.finish o st n).engine = s.engine := rfl
@[simp] theorem State.finish_controller (s : State) (o : Owed) (st : Status) (n : Nat) : (s.finish o st n).controller = s.controller := rfl
@[simp] theorem State.finish_bands (s : State) (o : Owed) (st : Status) (n : Nat) : (s.finish o st n).bands = s.bands := rfl
@[simp] theorem State.finish_clock (s : State) (o : Owed) (st : Status) (n : Nat) : (s.finish o st n).clock = s.clock := rfl
@[simp] theorem State.finish_groups (s : State) (o : Owed) (st : Status) (n : Nat) : (s.finish o st n).groups = s.groups := rfl
@[simp] theorem State.finish_ports (s : State) (o : Owed) (st : Status) (n : Nat) : (s.finish o st n).ports = s.ports := rfl
@[simp] theorem State.finish_supply (s : State) (o : Owed) (st : Status) (n : Nat) : (s.finish o st n).supply = s.supply := rfl
@[simp] theorem State.finish_pending (s : State) (o : Owed) (st : Status) (n : Nat) : (s.finish o st n).pending = s.pending := rfl

@[simp] theorem State.finishNow_arbiter (s : State) (c : Ctx) (st : Status) (n : Nat) : (s.finishNow c st n).arbiter = s.arbiter := rfl
@[simp] theorem State.finishNow_store (s : State) (c : Ctx) (st : Status) (n : Nat) : (s.finishNow c st n).store = s.store := rfl
@[simp] theorem State.finishNow_engine (s : State) (c : Ctx) (st : Status) (n : Nat) : (s.finishNow c st n).engine = s.engine := rfl
@[simp] theorem State.finishNow_controller (s : State) (c : Ctx) (st : Status) (n : Nat) : (s.finishNow c st n).controller = s.controller := rfl
@[simp] theorem State.finishNow_bands (s : State) (c : Ctx) (st : Status) (n : Nat) : (s.finishNow c st n).bands = s.bands := rfl
@[simp] theorem State.finishNow_clock (s : State) (c : Ctx) (st : Status) (n : Nat) : (s.finishNow c st n).clock = s.clock := rfl
@[simp] theorem State.finishNow_groups (s : State) (c : Ctx) (st : Status) (n : Nat) : (s.finishNow c st n).groups = s.groups := rfl
@[simp] theorem State.finishNow_ports (s : State) (c : Ctx) (st : Status) (n : Nat) : (s.finishNow c st n).ports = s.ports := rfl
@[simp] theorem State.finishNow_supply (s : State) (c : Ctx) (st : Status) (n : Nat) : (s.finishNow c st n).supply = s.supply := rfl
@[simp] theorem State.finishNow_pending (s : State) (c : Ctx) (st : Status) (n : Nat) : (s.finishNow c st n).pending = s.pending := rfl

@[simp] theorem State.raiseEvent_arbiter (s : State) (k : EventKind) (o n d : Nat) : (s.raiseEvent k o n d).arbiter = s.arbiter := rfl
@[simp] theorem State.raiseEvent_store (s : State) (k : EventKind) (o n d : Nat) : (s.raiseEvent k o n d).store = s.store := rfl
@[simp] theorem State.raiseEvent_engine (s : State) (k : EventKind) (o n d : Nat) : (s.raiseEvent k o n d).engine = s.engine := rfl
@[simp] theorem State.raiseEvent_controller (s : State) (k : EventKind) (o n d : Nat) : (s.raiseEvent k o n d).controller = s.controller := rfl
@[simp] theorem State.raiseEvent_bands (s : State) (k : EventKind) (o n d : Nat) : (s.raiseEvent k o n d).bands = s.bands := rfl
@[simp] theorem State.raiseEvent_clock (s : State) (k : EventKind) (o n d : Nat) : (s.raiseEvent k o n d).clock = s.clock := rfl
@[simp] theorem State.raiseEvent_groups (s : State) (k : EventKind) (o n d : Nat) : (s.raiseEvent k o n d).groups = s.groups := rfl
@[simp] theorem State.raiseEvent_ports (s : State) (k : EventKind) (o n d : Nat) : (s.raiseEvent k o n d).ports = s.ports := rfl
@[simp] theorem State.raiseEvent_supply (s : State) (k : EventKind) (o n d : Nat) : (s.raiseEvent k o n d).supply = s.supply := rfl
@[simp] theorem State.raiseEvent_pending (s : State) (k : EventKind) (o n d : Nat) : (s.raiseEvent k o n d).pending = s.pending := rfl

@[simp] theorem State.hostError_arbiter (s : State) : (s.hostError).arbiter = s.arbiter := rfl
@[simp] theorem State.hostError_store (s : State) : (s.hostError).store = s.store := rfl
@[simp] theorem State.hostError_engine (s : State) : (s.hostError).engine = s.engine := rfl
@[simp] theorem State.hostError_controller (s : State) : (s.hostError).controller = s.controller := rfl
@[simp] theorem State.hostError_bands (s : State) : (s.hostError).bands = s.bands := rfl
@[simp] theorem State.hostError_clock (s : State) : (s.hostError).clock = s.clock := rfl
@[simp] theorem State.hostError_groups (s : State) : (s.hostError).groups = s.groups := rfl
@[simp] theorem State.hostError_ports (s : State) : (s.hostError).ports = s.ports := rfl
@[simp] theorem State.hostError_supply (s : State) : (s.hostError).supply = s.supply := rfl
@[simp] theorem State.hostError_pending (s : State) : (s.hostError).pending = s.pending := rfl

/-! ## Records by number -/

@[simp] theorem SceneStore.setScene_freeBlocks (x : SceneStore) (k : Nat) (v : Scene) : (x.setScene k v).freeBlocks = x.freeBlocks := rfl
@[simp] theorem SceneStore.setScene_loads (x : SceneStore) (k : Nat) (v : Scene) : (x.setScene k v).loads = x.loads := rfl
@[simp] theorem SceneStore.setScene_nextLoad (x : SceneStore) (k : Nat) (v : Scene) : (x.setScene k v).nextLoad = x.nextLoad := rfl
@[simp] theorem SceneStore.setScene_notices (x : SceneStore) (k : Nat) (v : Scene) : (x.setScene k v).notices = x.notices := rfl

@[simp] theorem SceneStore.scene_setScene (x : SceneStore) (k : Nat) (v : Scene) (j : Nat) :
    (x.setScene k v).scene j = if j = k then v else x.scene j := by
  simp [SceneStore.scene, SceneStore.setScene]


@[simp] theorem TransitionEngine.slot_setSlot (x : TransitionEngine) (k : Nat) (v : FadeSlot) (j : Nat) :
    (x.setSlot k v).slot j = if j = k then v else x.slot j := by
  simp [TransitionEngine.slot, TransitionEngine.setSlot]

@[simp] theorem PlaybackController.setPlayback_staged (x : PlaybackController) (k : Nat) (v : Playback) : (x.setPlayback k v).staged = x.staged := rfl
@[simp] theorem PlaybackController.setPlayback_nextCue (x : PlaybackController) (k : Nat) (v : Playback) : (x.setPlayback k v).nextCue = x.nextCue := rfl

@[simp] theorem PlaybackController.playback_setPlayback (x : PlaybackController) (k : Nat) (v : Playback) (j : Nat) :
    (x.setPlayback k v).playback j = if j = k then v else x.playback j := by
  simp [PlaybackController.playback, PlaybackController.setPlayback]

@[simp] theorem BandUnit.setBand_staged (x : BandUnit) (k : Nat) (v : Band) : (x.setBand k v).staged = x.staged := rfl

@[simp] theorem BandUnit.band_setBand (x : BandUnit) (k : Nat) (v : Band) (j : Nat) :
    (x.setBand k v).band j = if j = k then v else x.band j := by
  simp [BandUnit.band, BandUnit.setBand]

@[simp] theorem StripPorts.setPort_staged (x : StripPorts) (k : Nat) (v : Port) : (x.setPort k v).staged = x.staged := rfl

@[simp] theorem StripPorts.port_setPort (x : StripPorts) (k : Nat) (v : Port) (j : Nat) :
    (x.setPort k v).port j = if j = k then v else x.port j := by
  simp [StripPorts.port, StripPorts.setPort]

@[simp] theorem Supply.setFeed_state (x : Supply) (k : Nat) (v : Feed) : (x.setFeed k v).state = x.state := rfl
@[simp] theorem Supply.setFeed_currentSlot (x : Supply) (k : Nat) (v : Feed) : (x.setFeed k v).currentSlot = x.currentSlot := rfl
@[simp] theorem Supply.setFeed_riseSet (x : Supply) (k : Nat) (v : Feed) : (x.setFeed k v).riseSet = x.riseSet := rfl
@[simp] theorem Supply.setFeed_interval (x : Supply) (k : Nat) (v : Feed) : (x.setFeed k v).interval = x.interval := rfl
@[simp] theorem Supply.setFeed_slotIntervalMs (x : Supply) (k : Nat) (v : Feed) : (x.setFeed k v).slotIntervalMs = x.slotIntervalMs := rfl
@[simp] theorem Supply.setFeed_mode (x : Supply) (k : Nat) (v : Feed) : (x.setFeed k v).mode = x.mode := rfl
@[simp] theorem Supply.setFeed_policy (x : Supply) (k : Nat) (v : Feed) : (x.setFeed k v).policy = x.policy := rfl
@[simp] theorem Supply.setFeed_rise (x : Supply) (k : Nat) (v : Feed) : (x.setFeed k v).rise = x.rise := rfl
@[simp] theorem Supply.setFeed_fall (x : Supply) (k : Nat) (v : Feed) : (x.setFeed k v).fall = x.fall := rfl

@[simp] theorem Supply.feed_setFeed (x : Supply) (k : Nat) (v : Feed) (j : Nat) :
    (x.setFeed k v).feed j = if j = k then v else x.feed j := by
  simp [Supply.feed, Supply.setFeed]

@[simp] theorem HostUnit.setSq_state (x : HostUnit) (k : Nat) (v : SubmissionQueue) : (x.setSq k v).state = x.state := rfl
@[simp] theorem HostUnit.setSq_haltCode (x : HostUnit) (k : Nat) (v : SubmissionQueue) : (x.setSq k v).haltCode = x.haltCode := rfl
@[simp] theorem HostUnit.setSq_haltQueue (x : HostUnit) (k : Nat) (v : SubmissionQueue) : (x.setSq k v).haltQueue = x.haltQueue := rfl
@[simp] theorem HostUnit.setSq_enable (x : HostUnit) (k : Nat) (v : SubmissionQueue) : (x.setSq k v).enable = x.enable := rfl
@[simp] theorem HostUnit.setSq_qtableLo (x : HostUnit) (k : Nat) (v : SubmissionQueue) : (x.setSq k v).qtableLo = x.qtableLo := rfl
@[simp] theorem HostUnit.setSq_qtableHi (x : HostUnit) (k : Nat) (v : SubmissionQueue) : (x.setSq k v).qtableHi = x.qtableHi := rfl
@[simp] theorem HostUnit.setSq_intCause (x : HostUnit) (k : Nat) (v : SubmissionQueue) : (x.setSq k v).intCause = x.intCause := rfl
@[simp] theorem HostUnit.setSq_intMask (x : HostUnit) (k : Nat) (v : SubmissionQueue) : (x.setSq k v).intMask = x.intMask := rfl
@[simp] theorem HostUnit.setSq_completion (x : HostUnit) (k : Nat) (v : SubmissionQueue) : (x.setSq k v).completion = x.completion := rfl
@[simp] theorem HostUnit.setSq_eventQueue (x : HostUnit) (k : Nat) (v : SubmissionQueue) : (x.setSq k v).eventQueue = x.eventQueue := rfl
@[simp] theorem HostUnit.setSq_lastGranted (x : HostUnit) (k : Nat) (v : SubmissionQueue) : (x.setSq k v).lastGranted = x.lastGranted := rfl
@[simp] theorem HostUnit.setSq_fetch (x : HostUnit) (k : Nat) (v : SubmissionQueue) : (x.setSq k v).fetch = x.fetch := rfl
@[simp] theorem HostUnit.setSq_intakePause (x : HostUnit) (k : Nat) (v : SubmissionQueue) : (x.setSq k v).intakePause = x.intakePause := rfl
@[simp] theorem HostUnit.setSq_events (x : HostUnit) (k : Nat) (v : SubmissionQueue) : (x.setSq k v).events = x.events := rfl
@[simp] theorem HostUnit.setSq_writes (x : HostUnit) (k : Nat) (v : SubmissionQueue) : (x.setSq k v).writes = x.writes := rfl
@[simp] theorem HostUnit.setSq_messages (x : HostUnit) (k : Nat) (v : SubmissionQueue) : (x.setSq k v).messages = x.messages := rfl

@[simp] theorem HostUnit.sq_setSq (x : HostUnit) (k : Nat) (v : SubmissionQueue) (j : Nat) :
    (x.setSq k v).sq j = if j = k then v else x.sq j := by
  simp [HostUnit.sq, HostUnit.setSq]

@[simp] theorem HostUnit.setCq_state (x : HostUnit) (k : Nat) (v : CompletionQueue) : (x.setCq k v).state = x.state := rfl
@[simp] theorem HostUnit.setCq_haltCode (x : HostUnit) (k : Nat) (v : CompletionQueue) : (x.setCq k v).haltCode = x.haltCode := rfl
@[simp] theorem HostUnit.setCq_haltQueue (x : HostUnit) (k : Nat) (v : CompletionQueue) : (x.setCq k v).haltQueue = x.haltQueue := rfl
@[simp] theorem HostUnit.setCq_enable (x : HostUnit) (k : Nat) (v : CompletionQueue) : (x.setCq k v).enable = x.enable := rfl
@[simp] theorem HostUnit.setCq_qtableLo (x : HostUnit) (k : Nat) (v : CompletionQueue) : (x.setCq k v).qtableLo = x.qtableLo := rfl
@[simp] theorem HostUnit.setCq_qtableHi (x : HostUnit) (k : Nat) (v : CompletionQueue) : (x.setCq k v).qtableHi = x.qtableHi := rfl
@[simp] theorem HostUnit.setCq_intCause (x : HostUnit) (k : Nat) (v : CompletionQueue) : (x.setCq k v).intCause = x.intCause := rfl
@[simp] theorem HostUnit.setCq_intMask (x : HostUnit) (k : Nat) (v : CompletionQueue) : (x.setCq k v).intMask = x.intMask := rfl
@[simp] theorem HostUnit.setCq_submission (x : HostUnit) (k : Nat) (v : CompletionQueue) : (x.setCq k v).submission = x.submission := rfl
@[simp] theorem HostUnit.setCq_eventQueue (x : HostUnit) (k : Nat) (v : CompletionQueue) : (x.setCq k v).eventQueue = x.eventQueue := rfl
@[simp] theorem HostUnit.setCq_lastGranted (x : HostUnit) (k : Nat) (v : CompletionQueue) : (x.setCq k v).lastGranted = x.lastGranted := rfl
@[simp] theorem HostUnit.setCq_fetch (x : HostUnit) (k : Nat) (v : CompletionQueue) : (x.setCq k v).fetch = x.fetch := rfl
@[simp] theorem HostUnit.setCq_intakePause (x : HostUnit) (k : Nat) (v : CompletionQueue) : (x.setCq k v).intakePause = x.intakePause := rfl
@[simp] theorem HostUnit.setCq_events (x : HostUnit) (k : Nat) (v : CompletionQueue) : (x.setCq k v).events = x.events := rfl
@[simp] theorem HostUnit.setCq_writes (x : HostUnit) (k : Nat) (v : CompletionQueue) : (x.setCq k v).writes = x.writes := rfl
@[simp] theorem HostUnit.setCq_messages (x : HostUnit) (k : Nat) (v : CompletionQueue) : (x.setCq k v).messages = x.messages := rfl

@[simp] theorem HostUnit.cq_setCq (x : HostUnit) (k : Nat) (v : CompletionQueue) (j : Nat) :
    (x.setCq k v).cq j = if j = k then v else x.cq j := by
  simp [HostUnit.cq, HostUnit.setCq]

@[simp] theorem HostUnit.cq_setSq (x : HostUnit) (k : Nat) (v : SubmissionQueue) (j : Nat) :
    (x.setSq k v).cq j = x.cq j := rfl
@[simp] theorem HostUnit.sq_setCq (x : HostUnit) (k : Nat) (v : CompletionQueue) (j : Nat) :
    (x.setCq k v).sq j = x.sq j := rfl

/-! ## Interrupts -/

@[simp] theorem HostUnit.setInterrupts_state (u : HostUnit) (a b : BitVec 6) : (u.setInterrupts a b).state = u.state := rfl
@[simp] theorem HostUnit.setInterrupts_haltCode (u : HostUnit) (a b : BitVec 6) : (u.setInterrupts a b).haltCode = u.haltCode := rfl
@[simp] theorem HostUnit.setInterrupts_haltQueue (u : HostUnit) (a b : BitVec 6) : (u.setInterrupts a b).haltQueue = u.haltQueue := rfl
@[simp] theorem HostUnit.setInterrupts_enable (u : HostUnit) (a b : BitVec 6) : (u.setInterrupts a b).enable = u.enable := rfl
@[simp] theorem HostUnit.setInterrupts_qtableLo (u : HostUnit) (a b : BitVec 6) : (u.setInterrupts a b).qtableLo = u.qtableLo := rfl
@[simp] theorem HostUnit.setInterrupts_qtableHi (u : HostUnit) (a b : BitVec 6) : (u.setInterrupts a b).qtableHi = u.qtableHi := rfl
@[simp] theorem HostUnit.setInterrupts_submission (u : HostUnit) (a b : BitVec 6) : (u.setInterrupts a b).submission = u.submission := rfl
@[simp] theorem HostUnit.setInterrupts_completion (u : HostUnit) (a b : BitVec 6) : (u.setInterrupts a b).completion = u.completion := rfl
@[simp] theorem HostUnit.setInterrupts_eventQueue (u : HostUnit) (a b : BitVec 6) : (u.setInterrupts a b).eventQueue = u.eventQueue := rfl
@[simp] theorem HostUnit.setInterrupts_lastGranted (u : HostUnit) (a b : BitVec 6) : (u.setInterrupts a b).lastGranted = u.lastGranted := rfl
@[simp] theorem HostUnit.setInterrupts_fetch (u : HostUnit) (a b : BitVec 6) : (u.setInterrupts a b).fetch = u.fetch := rfl
@[simp] theorem HostUnit.setInterrupts_intakePause (u : HostUnit) (a b : BitVec 6) : (u.setInterrupts a b).intakePause = u.intakePause := rfl
@[simp] theorem HostUnit.setInterrupts_events (u : HostUnit) (a b : BitVec 6) : (u.setInterrupts a b).events = u.events := rfl
@[simp] theorem HostUnit.setInterrupts_writes (u : HostUnit) (a b : BitVec 6) : (u.setInterrupts a b).writes = u.writes := rfl

@[simp] theorem HostUnit.raiseCause_state (u : HostUnit) (a : BitVec 6) : (u.raiseCause a).state = u.state := rfl
@[simp] theorem HostUnit.raiseCause_haltCode (u : HostUnit) (a : BitVec 6) : (u.raiseCause a).haltCode = u.haltCode := rfl
@[simp] theorem HostUnit.raiseCause_haltQueue (u : HostUnit) (a : BitVec 6) : (u.raiseCause a).haltQueue = u.haltQueue := rfl
@[simp] theorem HostUnit.raiseCause_enable (u : HostUnit) (a : BitVec 6) : (u.raiseCause a).enable = u.enable := rfl
@[simp] theorem HostUnit.raiseCause_qtableLo (u : HostUnit) (a : BitVec 6) : (u.raiseCause a).qtableLo = u.qtableLo := rfl
@[simp] theorem HostUnit.raiseCause_qtableHi (u : HostUnit) (a : BitVec 6) : (u.raiseCause a).qtableHi = u.qtableHi := rfl
@[simp] theorem HostUnit.raiseCause_intMask (u : HostUnit) (a : BitVec 6) : (u.raiseCause a).intMask = u.intMask := rfl
@[simp] theorem HostUnit.raiseCause_submission (u : HostUnit) (a : BitVec 6) : (u.raiseCause a).submission = u.submission := rfl
@[simp] theorem HostUnit.raiseCause_completion (u : HostUnit) (a : BitVec 6) : (u.raiseCause a).completion = u.completion := rfl
@[simp] theorem HostUnit.raiseCause_eventQueue (u : HostUnit) (a : BitVec 6) : (u.raiseCause a).eventQueue = u.eventQueue := rfl
@[simp] theorem HostUnit.raiseCause_lastGranted (u : HostUnit) (a : BitVec 6) : (u.raiseCause a).lastGranted = u.lastGranted := rfl
@[simp] theorem HostUnit.raiseCause_fetch (u : HostUnit) (a : BitVec 6) : (u.raiseCause a).fetch = u.fetch := rfl
@[simp] theorem HostUnit.raiseCause_intakePause (u : HostUnit) (a : BitVec 6) : (u.raiseCause a).intakePause = u.intakePause := rfl
@[simp] theorem HostUnit.raiseCause_events (u : HostUnit) (a : BitVec 6) : (u.raiseCause a).events = u.events := rfl
@[simp] theorem HostUnit.raiseCause_writes (u : HostUnit) (a : BitVec 6) : (u.raiseCause a).writes = u.writes := rfl

@[simp] theorem HostUnit.clearCause_state (u : HostUnit) (a : BitVec 6) : (u.clearCause a).state = u.state := rfl
@[simp] theorem HostUnit.clearCause_haltCode (u : HostUnit) (a : BitVec 6) : (u.clearCause a).haltCode = u.haltCode := rfl
@[simp] theorem HostUnit.clearCause_haltQueue (u : HostUnit) (a : BitVec 6) : (u.clearCause a).haltQueue = u.haltQueue := rfl
@[simp] theorem HostUnit.clearCause_enable (u : HostUnit) (a : BitVec 6) : (u.clearCause a).enable = u.enable := rfl
@[simp] theorem HostUnit.clearCause_qtableLo (u : HostUnit) (a : BitVec 6) : (u.clearCause a).qtableLo = u.qtableLo := rfl
@[simp] theorem HostUnit.clearCause_qtableHi (u : HostUnit) (a : BitVec 6) : (u.clearCause a).qtableHi = u.qtableHi := rfl
@[simp] theorem HostUnit.clearCause_intMask (u : HostUnit) (a : BitVec 6) : (u.clearCause a).intMask = u.intMask := rfl
@[simp] theorem HostUnit.clearCause_submission (u : HostUnit) (a : BitVec 6) : (u.clearCause a).submission = u.submission := rfl
@[simp] theorem HostUnit.clearCause_completion (u : HostUnit) (a : BitVec 6) : (u.clearCause a).completion = u.completion := rfl
@[simp] theorem HostUnit.clearCause_eventQueue (u : HostUnit) (a : BitVec 6) : (u.clearCause a).eventQueue = u.eventQueue := rfl
@[simp] theorem HostUnit.clearCause_lastGranted (u : HostUnit) (a : BitVec 6) : (u.clearCause a).lastGranted = u.lastGranted := rfl
@[simp] theorem HostUnit.clearCause_fetch (u : HostUnit) (a : BitVec 6) : (u.clearCause a).fetch = u.fetch := rfl
@[simp] theorem HostUnit.clearCause_intakePause (u : HostUnit) (a : BitVec 6) : (u.clearCause a).intakePause = u.intakePause := rfl
@[simp] theorem HostUnit.clearCause_events (u : HostUnit) (a : BitVec 6) : (u.clearCause a).events = u.events := rfl
@[simp] theorem HostUnit.clearCause_writes (u : HostUnit) (a : BitVec 6) : (u.clearCause a).writes = u.writes := rfl

/-! ## Posting and completing -/

@[simp] theorem HostUnit.postRecord_state (u : HostUnit) (m : Nat) (r : Bool) (b : List Byte) : (u.postRecord m r b).state = u.state := rfl
@[simp] theorem HostUnit.postRecord_haltCode (u : HostUnit) (m : Nat) (r : Bool) (b : List Byte) : (u.postRecord m r b).haltCode = u.haltCode := rfl
@[simp] theorem HostUnit.postRecord_haltQueue (u : HostUnit) (m : Nat) (r : Bool) (b : List Byte) : (u.postRecord m r b).haltQueue = u.haltQueue := rfl
@[simp] theorem HostUnit.postRecord_enable (u : HostUnit) (m : Nat) (r : Bool) (b : List Byte) : (u.postRecord m r b).enable = u.enable := rfl
@[simp] theorem HostUnit.postRecord_qtableLo (u : HostUnit) (m : Nat) (r : Bool) (b : List Byte) : (u.postRecord m r b).qtableLo = u.qtableLo := rfl
@[simp] theorem HostUnit.postRecord_qtableHi (u : HostUnit) (m : Nat) (r : Bool) (b : List Byte) : (u.postRecord m r b).qtableHi = u.qtableHi := rfl
@[simp] theorem HostUnit.postRecord_intCause (u : HostUnit) (m : Nat) (r : Bool) (b : List Byte) : (u.postRecord m r b).intCause = u.intCause := rfl
@[simp] theorem HostUnit.postRecord_intMask (u : HostUnit) (m : Nat) (r : Bool) (b : List Byte) : (u.postRecord m r b).intMask = u.intMask := rfl
@[simp] theorem HostUnit.postRecord_submission (u : HostUnit) (m : Nat) (r : Bool) (b : List Byte) : (u.postRecord m r b).submission = u.submission := rfl
@[simp] theorem HostUnit.postRecord_eventQueue (u : HostUnit) (m : Nat) (r : Bool) (b : List Byte) : (u.postRecord m r b).eventQueue = u.eventQueue := rfl
@[simp] theorem HostUnit.postRecord_lastGranted (u : HostUnit) (m : Nat) (r : Bool) (b : List Byte) : (u.postRecord m r b).lastGranted = u.lastGranted := rfl
@[simp] theorem HostUnit.postRecord_fetch (u : HostUnit) (m : Nat) (r : Bool) (b : List Byte) : (u.postRecord m r b).fetch = u.fetch := rfl
@[simp] theorem HostUnit.postRecord_intakePause (u : HostUnit) (m : Nat) (r : Bool) (b : List Byte) : (u.postRecord m r b).intakePause = u.intakePause := rfl
@[simp] theorem HostUnit.postRecord_events (u : HostUnit) (m : Nat) (r : Bool) (b : List Byte) : (u.postRecord m r b).events = u.events := rfl
@[simp] theorem HostUnit.postRecord_messages (u : HostUnit) (m : Nat) (r : Bool) (b : List Byte) : (u.postRecord m r b).messages = u.messages := rfl

@[simp] theorem HostUnit.complete_state (u : HostUnit) (o : Owed) (st : Status) (n : Nat) : (u.complete o st n).state = u.state := by
  unfold HostUnit.complete; split <;> rfl
@[simp] theorem HostUnit.complete_haltCode (u : HostUnit) (o : Owed) (st : Status) (n : Nat) : (u.complete o st n).haltCode = u.haltCode := by
  unfold HostUnit.complete; split <;> rfl
@[simp] theorem HostUnit.complete_haltQueue (u : HostUnit) (o : Owed) (st : Status) (n : Nat) : (u.complete o st n).haltQueue = u.haltQueue := by
  unfold HostUnit.complete; split <;> rfl
@[simp] theorem HostUnit.complete_enable (u : HostUnit) (o : Owed) (st : Status) (n : Nat) : (u.complete o st n).enable = u.enable := by
  unfold HostUnit.complete; split <;> rfl
@[simp] theorem HostUnit.complete_qtableLo (u : HostUnit) (o : Owed) (st : Status) (n : Nat) : (u.complete o st n).qtableLo = u.qtableLo := by
  unfold HostUnit.complete; split <;> rfl
@[simp] theorem HostUnit.complete_qtableHi (u : HostUnit) (o : Owed) (st : Status) (n : Nat) : (u.complete o st n).qtableHi = u.qtableHi := by
  unfold HostUnit.complete; split <;> rfl
@[simp] theorem HostUnit.complete_intCause (u : HostUnit) (o : Owed) (st : Status) (n : Nat) : (u.complete o st n).intCause = u.intCause := by
  unfold HostUnit.complete; split <;> rfl
@[simp] theorem HostUnit.complete_intMask (u : HostUnit) (o : Owed) (st : Status) (n : Nat) : (u.complete o st n).intMask = u.intMask := by
  unfold HostUnit.complete; split <;> rfl
@[simp] theorem HostUnit.complete_eventQueue (u : HostUnit) (o : Owed) (st : Status) (n : Nat) : (u.complete o st n).eventQueue = u.eventQueue := by
  unfold HostUnit.complete; split <;> rfl
@[simp] theorem HostUnit.complete_lastGranted (u : HostUnit) (o : Owed) (st : Status) (n : Nat) : (u.complete o st n).lastGranted = u.lastGranted := by
  unfold HostUnit.complete; split <;> rfl
@[simp] theorem HostUnit.complete_fetch (u : HostUnit) (o : Owed) (st : Status) (n : Nat) : (u.complete o st n).fetch = u.fetch := by
  unfold HostUnit.complete; split <;> rfl
@[simp] theorem HostUnit.complete_intakePause (u : HostUnit) (o : Owed) (st : Status) (n : Nat) : (u.complete o st n).intakePause = u.intakePause := by
  unfold HostUnit.complete; split <;> rfl
@[simp] theorem HostUnit.complete_events (u : HostUnit) (o : Owed) (st : Status) (n : Nat) : (u.complete o st n).events = u.events := by
  unfold HostUnit.complete; split <;> rfl
@[simp] theorem HostUnit.complete_messages (u : HostUnit) (o : Owed) (st : Status) (n : Nat) : (u.complete o st n).messages = u.messages := by
  unfold HostUnit.complete; split <;> rfl

@[simp] theorem HostUnit.completeNow_state (u : HostUnit) (c : Ctx) (st : Status) (n : Nat) : (u.completeNow c st n).state = u.state := by
  simp [HostUnit.completeNow]
@[simp] theorem HostUnit.completeNow_haltCode (u : HostUnit) (c : Ctx) (st : Status) (n : Nat) : (u.completeNow c st n).haltCode = u.haltCode := by
  simp [HostUnit.completeNow]
@[simp] theorem HostUnit.completeNow_haltQueue (u : HostUnit) (c : Ctx) (st : Status) (n : Nat) : (u.completeNow c st n).haltQueue = u.haltQueue := by
  simp [HostUnit.completeNow]
@[simp] theorem HostUnit.completeNow_enable (u : HostUnit) (c : Ctx) (st : Status) (n : Nat) : (u.completeNow c st n).enable = u.enable := by
  simp [HostUnit.completeNow]
@[simp] theorem HostUnit.completeNow_qtableLo (u : HostUnit) (c : Ctx) (st : Status) (n : Nat) : (u.completeNow c st n).qtableLo = u.qtableLo := by
  simp [HostUnit.completeNow]
@[simp] theorem HostUnit.completeNow_qtableHi (u : HostUnit) (c : Ctx) (st : Status) (n : Nat) : (u.completeNow c st n).qtableHi = u.qtableHi := by
  simp [HostUnit.completeNow]
@[simp] theorem HostUnit.completeNow_intCause (u : HostUnit) (c : Ctx) (st : Status) (n : Nat) : (u.completeNow c st n).intCause = u.intCause := by
  simp [HostUnit.completeNow]
@[simp] theorem HostUnit.completeNow_intMask (u : HostUnit) (c : Ctx) (st : Status) (n : Nat) : (u.completeNow c st n).intMask = u.intMask := by
  simp [HostUnit.completeNow]
@[simp] theorem HostUnit.completeNow_eventQueue (u : HostUnit) (c : Ctx) (st : Status) (n : Nat) : (u.completeNow c st n).eventQueue = u.eventQueue := by
  simp [HostUnit.completeNow]
@[simp] theorem HostUnit.completeNow_lastGranted (u : HostUnit) (c : Ctx) (st : Status) (n : Nat) : (u.completeNow c st n).lastGranted = u.lastGranted := by
  simp [HostUnit.completeNow]
@[simp] theorem HostUnit.completeNow_fetch (u : HostUnit) (c : Ctx) (st : Status) (n : Nat) : (u.completeNow c st n).fetch = u.fetch := by
  simp [HostUnit.completeNow]
@[simp] theorem HostUnit.completeNow_intakePause (u : HostUnit) (c : Ctx) (st : Status) (n : Nat) : (u.completeNow c st n).intakePause = u.intakePause := by
  simp [HostUnit.completeNow]
@[simp] theorem HostUnit.completeNow_events (u : HostUnit) (c : Ctx) (st : Status) (n : Nat) : (u.completeNow c st n).events = u.events := by
  simp [HostUnit.completeNow]
@[simp] theorem HostUnit.completeNow_messages (u : HostUnit) (c : Ctx) (st : Status) (n : Nat) : (u.completeNow c st n).messages = u.messages := by
  simp [HostUnit.completeNow]

@[simp] theorem HostUnit.raiseEvent_state (u : HostUnit) (e : EventEntry) : (u.raiseEvent e).state = u.state := by
  unfold HostUnit.raiseEvent; split <;> rfl
@[simp] theorem HostUnit.raiseEvent_haltCode (u : HostUnit) (e : EventEntry) : (u.raiseEvent e).haltCode = u.haltCode := by
  unfold HostUnit.raiseEvent; split <;> rfl
@[simp] theorem HostUnit.raiseEvent_haltQueue (u : HostUnit) (e : EventEntry) : (u.raiseEvent e).haltQueue = u.haltQueue := by
  unfold HostUnit.raiseEvent; split <;> rfl
@[simp] theorem HostUnit.raiseEvent_enable (u : HostUnit) (e : EventEntry) : (u.raiseEvent e).enable = u.enable := by
  unfold HostUnit.raiseEvent; split <;> rfl
@[simp] theorem HostUnit.raiseEvent_qtableLo (u : HostUnit) (e : EventEntry) : (u.raiseEvent e).qtableLo = u.qtableLo := by
  unfold HostUnit.raiseEvent; split <;> rfl
@[simp] theorem HostUnit.raiseEvent_qtableHi (u : HostUnit) (e : EventEntry) : (u.raiseEvent e).qtableHi = u.qtableHi := by
  unfold HostUnit.raiseEvent; split <;> rfl
@[simp] theorem HostUnit.raiseEvent_intCause (u : HostUnit) (e : EventEntry) : (u.raiseEvent e).intCause = u.intCause := by
  unfold HostUnit.raiseEvent; split <;> rfl
@[simp] theorem HostUnit.raiseEvent_intMask (u : HostUnit) (e : EventEntry) : (u.raiseEvent e).intMask = u.intMask := by
  unfold HostUnit.raiseEvent; split <;> rfl
@[simp] theorem HostUnit.raiseEvent_submission (u : HostUnit) (e : EventEntry) : (u.raiseEvent e).submission = u.submission := by
  unfold HostUnit.raiseEvent; split <;> rfl
@[simp] theorem HostUnit.raiseEvent_completion (u : HostUnit) (e : EventEntry) : (u.raiseEvent e).completion = u.completion := by
  unfold HostUnit.raiseEvent; split <;> rfl
@[simp] theorem HostUnit.raiseEvent_eventQueue (u : HostUnit) (e : EventEntry) : (u.raiseEvent e).eventQueue = u.eventQueue := by
  unfold HostUnit.raiseEvent; split <;> rfl
@[simp] theorem HostUnit.raiseEvent_lastGranted (u : HostUnit) (e : EventEntry) : (u.raiseEvent e).lastGranted = u.lastGranted := by
  unfold HostUnit.raiseEvent; split <;> rfl
@[simp] theorem HostUnit.raiseEvent_fetch (u : HostUnit) (e : EventEntry) : (u.raiseEvent e).fetch = u.fetch := by
  unfold HostUnit.raiseEvent; split <;> rfl
@[simp] theorem HostUnit.raiseEvent_intakePause (u : HostUnit) (e : EventEntry) : (u.raiseEvent e).intakePause = u.intakePause := by
  unfold HostUnit.raiseEvent; split <;> rfl
@[simp] theorem HostUnit.raiseEvent_writes (u : HostUnit) (e : EventEntry) : (u.raiseEvent e).writes = u.writes := by
  unfold HostUnit.raiseEvent; split <;> rfl
@[simp] theorem HostUnit.raiseEvent_messages (u : HostUnit) (e : EventEntry) : (u.raiseEvent e).messages = u.messages := by
  unfold HostUnit.raiseEvent; split <;> rfl

end Sys2Proof.Machine
end

