-- ==== Sys2Proof/Laws/Host.lean ====
section
/-! SUPPORT. What handing over a completion, posting a record and raising an event do to the Host Queue Unit. -/

namespace Sys2Proof.Machine

/-- A completion that may not be posted changes nothing (R83, R159, R174). -/
theorem HostUnit.complete_of_not_postable (u : HostUnit) (o : Owed) (st : Status) (n : Nat)
    (h : u.postable o = false) : u.complete o st n = u := by
  simp [HostUnit.complete, h]

/-- A completion queue after a completion is handed over: the bound queue posts one more record out of its
reservation, the others are left (R167). -/
theorem HostUnit.cq_complete (u : HostUnit) (o : Owed) (st : Status) (n m : Nat) :
    (u.complete o st n).cq m =
      if u.postable o = true ∧ m = (u.sq o.ctx.sq).boundCq then (u.cq m).afterPost true else u.cq m := by
  unfold HostUnit.complete
  by_cases h : u.postable o = true
  · by_cases hm : m = (u.sq o.ctx.sq).boundCq
    · subst hm; simp only [h, if_true, HostUnit.cq_setSq, true_and]
      show (u.setCq _ _).cq _ = _
      simp
    · simp only [h, hm, if_true, and_false, if_false, HostUnit.cq_setSq]
      show (u.setCq _ _).cq _ = _
      simp [hm]
  · simp [h]

/-- A submission queue after a completion is handed over (R166, R167). -/
theorem HostUnit.sq_complete (u : HostUnit) (o : Owed) (st : Status) (n q : Nat) :
    (u.complete o st n).sq q =
      if u.postable o = true ∧ q = o.ctx.sq then (u.sq q).afterCompletion else u.sq q := by
  unfold HostUnit.complete
  by_cases h : u.postable o = true
  · simp only [h, if_true, HostUnit.sq_setSq, true_and]
    by_cases hq : q = o.ctx.sq
    · subst hq; simp
    · simp only [hq, if_false]; rfl
  · simp [h]

/-- The record writes after a completion is handed over (R167). -/
theorem HostUnit.writes_complete (u : HostUnit) (o : Owed) (st : Status) (n : Nat) :
    (u.complete o st n).writes =
      if u.postable o = true then
        u.writes ++
          [{ queue := (u.sq o.ctx.sq).boundCq
             address := (u.cq (u.sq o.ctx.sq).boundCq).base +
               BitVec.ofNat 64 (16 * (u.cq (u.sq o.ctx.sq).boundCq).tail)
             bytes := completionRecord o.ctx st n (u.cq (u.sq o.ctx.sq).boundCq).nextSequence }]
      else u.writes := by
  unfold HostUnit.complete
  split <;> rfl

/-- A completion keeps the two tables in canonical form. -/
theorem HostUnit.complete_wf (u : HostUnit) (o : Owed) (st : Status) (n : Nat)
    (h : u.submission.wf SubmissionQueue.inactive = true ∧ u.completion.wf CompletionQueue.inactive = true) :
    (u.complete o st n).submission.wf SubmissionQueue.inactive = true ∧
      (u.complete o st n).completion.wf CompletionQueue.inactive = true := by
  unfold HostUnit.complete
  split
  · exact ⟨Table.set_wf _ _ _ _ h.1, Table.set_wf _ _ _ _ h.2⟩
  · exact h

/-- The event list after an event is raised (R169). -/
theorem HostUnit.events_raiseEvent (u : HostUnit) (e : EventEntry) :
    (u.raiseEvent e).events =
      if ∃ x ∈ u.events, x.kind = e.kind ∧ x.object = e.object then u.events else u.events ++ [e] := by
  unfold HostUnit.raiseEvent
  simp only [List.any_eq_true, decide_eq_true_eq]
  split <;> simp_all

/-- Raising an event changes the event list alone. -/
theorem HostUnit.raiseEvent_eq (u : HostUnit) (e : EventEntry) :
    ∃ l, u.raiseEvent e = { u with events := l } := by
  unfold HostUnit.raiseEvent
  split
  · exact ⟨u.events, rfl⟩
  · exact ⟨_, rfl⟩

end Sys2Proof.Machine
end

