-- ==== Sys2Proof/Laws/FrameIntake.lean ====
section
/-! SUPPORT. What the host interface may do in the midst of a frame start, said once: a record that carries a group is
completed at intake or joins the hold list, and no owner sees it (R120, R123, R126, R165). -/

namespace Sys2Proof.Machine

/-- A hold list after at most one request has joined its tail (R119, R120). -/
def HoldGrown (l l' : List HeldRequest) : Prop :=
  l' = l ∨ ∃ h, l' = l ++ [h] ∧ l.length < 128 ∧ 1 ≤ h.group ∧ h.group ≤ 15

/-- The host unit after a grant, a fetch that has come to its end, or a record that has been taken: the two tables stay
canonical, and registers, events and the interface state stay. -/
structure HostServed (u v : HostUnit) : Prop where
  wf : u.submission.wf SubmissionQueue.inactive = true ∧ u.completion.wf CompletionQueue.inactive = true →
    v.submission.wf SubmissionQueue.inactive = true ∧ v.completion.wf CompletionQueue.inactive = true
  rest : v =
    { u with
      submission := v.submission, completion := v.completion, writes := v.writes, fetch := v.fetch,
      lastGranted := v.lastGranted }

/-- Only the host unit and the hold list are changed. -/
def Joins (s t : State) : Prop :=
  ∃ host hold, t = { s with host := host, groups := { s.groups with hold := hold } } ∧ HostServed s.host host ∧
    HoldGrown s.groups.hold hold

theorem HostServed.refl (u : HostUnit) : HostServed u u := ⟨id, rfl⟩

theorem HostServed.trans {u v x : HostUnit} (h : HostServed u v) (h' : HostServed v x) : HostServed u x :=
  ⟨h'.wf ∘ h.wf, by rw [h'.rest, h.rest]⟩

theorem HostServed.setSq (u : HostUnit) (q : Nat) (x : SubmissionQueue) : HostServed u (u.setSq q x) :=
  ⟨fun h => ⟨Table.set_wf _ _ _ _ h.1, h.2⟩, rfl⟩

theorem HostServed.setCq (u : HostUnit) (m : Nat) (x : CompletionQueue) : HostServed u (u.setCq m x) :=
  ⟨fun h => ⟨h.1, Table.set_wf _ _ _ _ h.2⟩, rfl⟩

theorem HostServed.fetch (u : HostUnit) (x : Option Fetch) : HostServed u { u with fetch := x } := ⟨id, rfl⟩

theorem HostServed.complete (u : HostUnit) (o : Owed) (st : Status) (n : Nat) : HostServed u (u.complete o st n) :=
  ⟨HostUnit.complete_wf u o st n, by unfold HostUnit.complete; split <;> rfl⟩

/-- Only the host unit is changed. -/
theorem Joins.host {s : State} {u : HostUnit} (h : HostServed s.host u) : Joins s { s with host := u } :=
  ⟨u, s.groups.hold, rfl, h, .inl rfl⟩

theorem Joins.refl (s : State) : Joins s s := .host (.refl _)

/-- Only the host unit is changed before. -/
theorem Joins.after {s t : State} {u : HostUnit} (h : HostServed s.host u) (h' : Joins { s with host := u } t) :
    Joins s t := by
  obtain ⟨v, l, e, hv, hl⟩ := h'
  exact ⟨v, l, e, h.trans hv, hl⟩

/-- A request of a groupable kind is one that its owner stages. -/
theorem requestOf_groupable (k : Kind) (b : RecordBody) (h : k.groupable = true) : ∃ q, requestOf k b = .groupable q := by
  cases k <;> first | exact ⟨_, rfl⟩ | cases h

/-- A record that carries a group is completed at intake or held (R120, R165). -/
theorem checkAndRoute_joins (s : State) (ctx : Ctx) (r : RequestRecord) (h : carriesGroup r.body = true) :
    Joins s (s.checkAndRoute ctx r) := by
  have done : ∀ st n, Joins s (s.finishNow ctx st n) := fun st n => .host (.complete _ _ _ _)
  unfold carriesGroup at h
  rw [decide_eq_true_eq] at h
  have h0 : r.body.group.toNat ≠ 0 := fun e => h (BitVec.eq_of_toNat_eq e)
  unfold State.checkAndRoute
  split
  · exact done _ _
  · exact done _ _
  · rename_i q hq
    unfold formatCheck at hq
    split at hq
    · cases hq
    · rename_i k _
      unfold checkKind at hq
      split at hq
      · cases hq
      · split at hq
        · cases hq
        · split at hq
          · cases hq
          · rename_i hg
            split at hq
            · cases hq
            · have hk : k.groupable = true := by
                cases hk : k.groupable with
                | true => rfl
                | false => exact absurd (.inr ⟨h, hk⟩) hg
              obtain ⟨g, e⟩ := requestOf_groupable k r.body hk
              rw [e] at hq
              injection hq with hq
              rw [← hq]
              show Joins s (if r.body.group.toNat = 0 then _ else _)
              rw [if_neg h0]
              unfold State.holdRequest
              simp only [Config.holdList]
              split
              · exact done _ _
              · have h1 : 1 ≤ r.body.group.toNat := Nat.pos_of_ne_zero h0
                have h2 : r.body.group.toNat ≤ 15 := Nat.not_lt.mp fun a => hg (.inl a)
                exact ⟨s.host, _, rfl, .refl _, .inr ⟨_, rfl, by omega, h1, h2⟩⟩

theorem takeRecord_joins (s : State) (q : Nat) (r : RequestRecord) (h : carriesGroup r.body = true) :
    Joins s (s.takeRecord q r) :=
  .after (.setSq _ _ _) (checkAndRoute_joins { s with host := s.host.advance q } _ r h)

/-- Whatever the host interface brings, only the host unit and the hold list are changed, and at most one request joins. -/
theorem State.intakeArrival_joins (s : State) (a : IntakeArrival) : Joins s (s.intakeArrival a) := by
  cases a with
  | grant =>
    show Joins s s.intakeGrant
    unfold State.intakeGrant
    split
    · exact .refl s
    · split
      · exact .host ⟨fun h => ⟨h.1, Table.set_wf _ _ _ _ h.2⟩, rfl⟩
      · exact .refl s
  | record r =>
    show Joins s (if carriesGroup r.body then s.recordArrives r else s)
    split
    · unfold State.recordArrives
      split
      · exact .refl s
      · split
        · exact .host (.trans (.setCq _ _ _) (.fetch _ _))
        · dsimp only
          split
          · exact .host (.trans (.fetch _ _) (.setSq _ _ _))
          · exact .after (.fetch _ _) (takeRecord_joins { s with host := { s.host with fetch := none } } _ r ‹_›)
    · exact .refl s
  | fenced q =>
    show Joins s (if (s.host.sq q.val).fence.any (fun w => carriesGroup w.record.body) then s.takeFenced q.val else s)
    split
    · rename_i h
      unfold State.takeFenced
      split
      · exact .refl s
      · rename_i w hw
        rw [hw] at h
        split
        · exact takeRecord_joins s _ _ h
        · exact .refl s
    · exact .refl s

/-- The same of the frame start's work. -/
theorem FrameWork.takeArrival_is (w : FrameWork) (a : IntakeArrival) :
    ∃ host hold,
      w.takeArrival a = { w with s := { w.s with host := host, groups := { w.s.groups with hold := hold } } } ∧
      HostServed w.s.host host ∧ HoldGrown w.s.groups.hold hold := by
  unfold FrameWork.takeArrival
  split
  · exact ⟨w.s.host, w.s.groups.hold, rfl, .refl _, .inl rfl⟩
  · obtain ⟨u, l, e, h⟩ := w.s.intakeArrival_joins a
    exact ⟨u, l, by rw [e], h⟩

end Sys2Proof.Machine
end

