-- ==== Sys2Proof/Laws/FrameWork.lean ====
section
/-! SUPPORT. For each small update of a frame start's work, one lemma for each field that it leaves. -/

namespace Sys2Proof.Machine

@[simp] theorem FrameWork.finish_period (w : FrameWork) (o : Owed) (st : Status) (n : Nat) : (w.finish o st n).period = w.period := rfl
@[simp] theorem FrameWork.finish_agenda (w : FrameWork) (o : Owed) (st : Status) (n : Nat) : (w.finish o st n).agenda = w.agenda := rfl
@[simp] theorem FrameWork.finish_atOnce (w : FrameWork) (o : Owed) (st : Status) (n : Nat) : (w.finish o st n).atOnce = w.atOnce := rfl
@[simp] theorem FrameWork.finish_stagedOver (w : FrameWork) (o : Owed) (st : Status) (n : Nat) : (w.finish o st n).stagedOver = w.stagedOver := rfl
@[simp] theorem FrameWork.finish_notices (w : FrameWork) (o : Owed) (st : Status) (n : Nat) : (w.finish o st n).notices = w.notices := rfl
@[simp] theorem FrameWork.finish_superseded (w : FrameWork) (o : Owed) (st : Status) (n : Nat) : (w.finish o st n).superseded = w.superseded := rfl
@[simp] theorem FrameWork.finish_mustEnd (w : FrameWork) (o : Owed) (st : Status) (n : Nat) : (w.finish o st n).mustEnd = w.mustEnd := rfl
@[simp] theorem FrameWork.finish_engineWaits (w : FrameWork) (o : Owed) (st : Status) (n : Nat) : (w.finish o st n).engineWaits = w.engineWaits := rfl
@[simp] theorem FrameWork.finish_bandWaits (w : FrameWork) (o : Owed) (st : Status) (n : Nat) : (w.finish o st n).bandWaits = w.bandWaits := rfl
@[simp] theorem FrameWork.finish_bandLoads (w : FrameWork) (o : Owed) (st : Status) (n : Nat) : (w.finish o st n).bandLoads = w.bandLoads := rfl
@[simp] theorem FrameWork.finish_toController (w : FrameWork) (o : Owed) (st : Status) (n : Nat) : (w.finish o st n).toController = w.toController := rfl
@[simp] theorem FrameWork.finish_toBands (w : FrameWork) (o : Owed) (st : Status) (n : Nat) : (w.finish o st n).toBands = w.toBands := rfl
@[simp] theorem FrameWork.finish_toComposer (w : FrameWork) (o : Owed) (st : Status) (n : Nat) : (w.finish o st n).toComposer = w.toComposer := rfl
@[simp] theorem FrameWork.finish_resetSent (w : FrameWork) (o : Owed) (st : Status) (n : Nat) : (w.finish o st n).resetSent = w.resetSent := rfl
@[simp] theorem FrameWork.finish_resetArbiter (w : FrameWork) (o : Owed) (st : Status) (n : Nat) : (w.finish o st n).resetArbiter = w.resetArbiter := rfl
@[simp] theorem FrameWork.finish_resetStore (w : FrameWork) (o : Owed) (st : Status) (n : Nat) : (w.finish o st n).resetStore = w.resetStore := rfl
@[simp] theorem FrameWork.finish_resetEngine (w : FrameWork) (o : Owed) (st : Status) (n : Nat) : (w.finish o st n).resetEngine = w.resetEngine := rfl
@[simp] theorem FrameWork.finish_resetController (w : FrameWork) (o : Owed) (st : Status) (n : Nat) : (w.finish o st n).resetController = w.resetController := rfl
@[simp] theorem FrameWork.finish_resetBands (w : FrameWork) (o : Owed) (st : Status) (n : Nat) : (w.finish o st n).resetBands = w.resetBands := rfl
@[simp] theorem FrameWork.finish_resetGroups (w : FrameWork) (o : Owed) (st : Status) (n : Nat) : (w.finish o st n).resetGroups = w.resetGroups := rfl
@[simp] theorem FrameWork.finish_resetLosses (w : FrameWork) (o : Owed) (st : Status) (n : Nat) : (w.finish o st n).resetLosses = w.resetLosses := rfl

@[simp] theorem FrameWork.doFirst_s (w : FrameWork) (l : List ControllerStep) : (w.doFirst l).s = w.s := rfl
@[simp] theorem FrameWork.doFirst_period (w : FrameWork) (l : List ControllerStep) : (w.doFirst l).period = w.period := rfl
@[simp] theorem FrameWork.doFirst_atOnce (w : FrameWork) (l : List ControllerStep) : (w.doFirst l).atOnce = w.atOnce := rfl
@[simp] theorem FrameWork.doFirst_stagedOver (w : FrameWork) (l : List ControllerStep) : (w.doFirst l).stagedOver = w.stagedOver := rfl
@[simp] theorem FrameWork.doFirst_notices (w : FrameWork) (l : List ControllerStep) : (w.doFirst l).notices = w.notices := rfl
@[simp] theorem FrameWork.doFirst_superseded (w : FrameWork) (l : List ControllerStep) : (w.doFirst l).superseded = w.superseded := rfl
@[simp] theorem FrameWork.doFirst_mustEnd (w : FrameWork) (l : List ControllerStep) : (w.doFirst l).mustEnd = w.mustEnd := rfl
@[simp] theorem FrameWork.doFirst_engineWaits (w : FrameWork) (l : List ControllerStep) : (w.doFirst l).engineWaits = w.engineWaits := rfl
@[simp] theorem FrameWork.doFirst_bandWaits (w : FrameWork) (l : List ControllerStep) : (w.doFirst l).bandWaits = w.bandWaits := rfl
@[simp] theorem FrameWork.doFirst_bandLoads (w : FrameWork) (l : List ControllerStep) : (w.doFirst l).bandLoads = w.bandLoads := rfl
@[simp] theorem FrameWork.doFirst_toController (w : FrameWork) (l : List ControllerStep) : (w.doFirst l).toController = w.toController := rfl
@[simp] theorem FrameWork.doFirst_toBands (w : FrameWork) (l : List ControllerStep) : (w.doFirst l).toBands = w.toBands := rfl
@[simp] theorem FrameWork.doFirst_toComposer (w : FrameWork) (l : List ControllerStep) : (w.doFirst l).toComposer = w.toComposer := rfl
@[simp] theorem FrameWork.doFirst_resetSent (w : FrameWork) (l : List ControllerStep) : (w.doFirst l).resetSent = w.resetSent := rfl
@[simp] theorem FrameWork.doFirst_resetArbiter (w : FrameWork) (l : List ControllerStep) : (w.doFirst l).resetArbiter = w.resetArbiter := rfl
@[simp] theorem FrameWork.doFirst_resetStore (w : FrameWork) (l : List ControllerStep) : (w.doFirst l).resetStore = w.resetStore := rfl
@[simp] theorem FrameWork.doFirst_resetEngine (w : FrameWork) (l : List ControllerStep) : (w.doFirst l).resetEngine = w.resetEngine := rfl
@[simp] theorem FrameWork.doFirst_resetController (w : FrameWork) (l : List ControllerStep) : (w.doFirst l).resetController = w.resetController := rfl
@[simp] theorem FrameWork.doFirst_resetBands (w : FrameWork) (l : List ControllerStep) : (w.doFirst l).resetBands = w.resetBands := rfl
@[simp] theorem FrameWork.doFirst_resetGroups (w : FrameWork) (l : List ControllerStep) : (w.doFirst l).resetGroups = w.resetGroups := rfl
@[simp] theorem FrameWork.doFirst_resetLosses (w : FrameWork) (l : List ControllerStep) : (w.doFirst l).resetLosses = w.resetLosses := rfl

@[simp] theorem FrameWork.doAtOnce_s (w : FrameWork) (l : List ControllerStep) : (w.doAtOnce l).s = w.s := rfl
@[simp] theorem FrameWork.doAtOnce_period (w : FrameWork) (l : List ControllerStep) : (w.doAtOnce l).period = w.period := rfl
@[simp] theorem FrameWork.doAtOnce_agenda (w : FrameWork) (l : List ControllerStep) : (w.doAtOnce l).agenda = w.agenda := rfl
@[simp] theorem FrameWork.doAtOnce_stagedOver (w : FrameWork) (l : List ControllerStep) : (w.doAtOnce l).stagedOver = w.stagedOver := rfl
@[simp] theorem FrameWork.doAtOnce_notices (w : FrameWork) (l : List ControllerStep) : (w.doAtOnce l).notices = w.notices := rfl
@[simp] theorem FrameWork.doAtOnce_superseded (w : FrameWork) (l : List ControllerStep) : (w.doAtOnce l).superseded = w.superseded := rfl
@[simp] theorem FrameWork.doAtOnce_mustEnd (w : FrameWork) (l : List ControllerStep) : (w.doAtOnce l).mustEnd = w.mustEnd := rfl
@[simp] theorem FrameWork.doAtOnce_engineWaits (w : FrameWork) (l : List ControllerStep) : (w.doAtOnce l).engineWaits = w.engineWaits := rfl
@[simp] theorem FrameWork.doAtOnce_bandWaits (w : FrameWork) (l : List ControllerStep) : (w.doAtOnce l).bandWaits = w.bandWaits := rfl
@[simp] theorem FrameWork.doAtOnce_bandLoads (w : FrameWork) (l : List ControllerStep) : (w.doAtOnce l).bandLoads = w.bandLoads := rfl
@[simp] theorem FrameWork.doAtOnce_toController (w : FrameWork) (l : List ControllerStep) : (w.doAtOnce l).toController = w.toController := rfl
@[simp] theorem FrameWork.doAtOnce_toBands (w : FrameWork) (l : List ControllerStep) : (w.doAtOnce l).toBands = w.toBands := rfl
@[simp] theorem FrameWork.doAtOnce_toComposer (w : FrameWork) (l : List ControllerStep) : (w.doAtOnce l).toComposer = w.toComposer := rfl
@[simp] theorem FrameWork.doAtOnce_resetSent (w : FrameWork) (l : List ControllerStep) : (w.doAtOnce l).resetSent = w.resetSent := rfl
@[simp] theorem FrameWork.doAtOnce_resetArbiter (w : FrameWork) (l : List ControllerStep) : (w.doAtOnce l).resetArbiter = w.resetArbiter := rfl
@[simp] theorem FrameWork.doAtOnce_resetStore (w : FrameWork) (l : List ControllerStep) : (w.doAtOnce l).resetStore = w.resetStore := rfl
@[simp] theorem FrameWork.doAtOnce_resetEngine (w : FrameWork) (l : List ControllerStep) : (w.doAtOnce l).resetEngine = w.resetEngine := rfl
@[simp] theorem FrameWork.doAtOnce_resetController (w : FrameWork) (l : List ControllerStep) : (w.doAtOnce l).resetController = w.resetController := rfl
@[simp] theorem FrameWork.doAtOnce_resetBands (w : FrameWork) (l : List ControllerStep) : (w.doAtOnce l).resetBands = w.resetBands := rfl
@[simp] theorem FrameWork.doAtOnce_resetGroups (w : FrameWork) (l : List ControllerStep) : (w.doAtOnce l).resetGroups = w.resetGroups := rfl
@[simp] theorem FrameWork.doAtOnce_resetLosses (w : FrameWork) (l : List ControllerStep) : (w.doAtOnce l).resetLosses = w.resetLosses := rfl

@[simp] theorem FrameWork.setChannels_period (w : FrameWork) (t : Table Channel) : (w.setChannels t).period = w.period := rfl
@[simp] theorem FrameWork.setChannels_agenda (w : FrameWork) (t : Table Channel) : (w.setChannels t).agenda = w.agenda := rfl
@[simp] theorem FrameWork.setChannels_atOnce (w : FrameWork) (t : Table Channel) : (w.setChannels t).atOnce = w.atOnce := rfl
@[simp] theorem FrameWork.setChannels_stagedOver (w : FrameWork) (t : Table Channel) : (w.setChannels t).stagedOver = w.stagedOver := rfl
@[simp] theorem FrameWork.setChannels_notices (w : FrameWork) (t : Table Channel) : (w.setChannels t).notices = w.notices := rfl
@[simp] theorem FrameWork.setChannels_superseded (w : FrameWork) (t : Table Channel) : (w.setChannels t).superseded = w.superseded := rfl
@[simp] theorem FrameWork.setChannels_mustEnd (w : FrameWork) (t : Table Channel) : (w.setChannels t).mustEnd = w.mustEnd := rfl
@[simp] theorem FrameWork.setChannels_engineWaits (w : FrameWork) (t : Table Channel) : (w.setChannels t).engineWaits = w.engineWaits := rfl
@[simp] theorem FrameWork.setChannels_bandWaits (w : FrameWork) (t : Table Channel) : (w.setChannels t).bandWaits = w.bandWaits := rfl
@[simp] theorem FrameWork.setChannels_bandLoads (w : FrameWork) (t : Table Channel) : (w.setChannels t).bandLoads = w.bandLoads := rfl
@[simp] theorem FrameWork.setChannels_toController (w : FrameWork) (t : Table Channel) : (w.setChannels t).toController = w.toController := rfl
@[simp] theorem FrameWork.setChannels_toBands (w : FrameWork) (t : Table Channel) : (w.setChannels t).toBands = w.toBands := rfl
@[simp] theorem FrameWork.setChannels_toComposer (w : FrameWork) (t : Table Channel) : (w.setChannels t).toComposer = w.toComposer := rfl
@[simp] theorem FrameWork.setChannels_resetSent (w : FrameWork) (t : Table Channel) : (w.setChannels t).resetSent = w.resetSent := rfl
@[simp] theorem FrameWork.setChannels_resetArbiter (w : FrameWork) (t : Table Channel) : (w.setChannels t).resetArbiter = w.resetArbiter := rfl
@[simp] theorem FrameWork.setChannels_resetStore (w : FrameWork) (t : Table Channel) : (w.setChannels t).resetStore = w.resetStore := rfl
@[simp] theorem FrameWork.setChannels_resetEngine (w : FrameWork) (t : Table Channel) : (w.setChannels t).resetEngine = w.resetEngine := rfl
@[simp] theorem FrameWork.setChannels_resetController (w : FrameWork) (t : Table Channel) : (w.setChannels t).resetController = w.resetController := rfl
@[simp] theorem FrameWork.setChannels_resetBands (w : FrameWork) (t : Table Channel) : (w.setChannels t).resetBands = w.resetBands := rfl
@[simp] theorem FrameWork.setChannels_resetGroups (w : FrameWork) (t : Table Channel) : (w.setChannels t).resetGroups = w.resetGroups := rfl
@[simp] theorem FrameWork.setChannels_resetLosses (w : FrameWork) (t : Table Channel) : (w.setChannels t).resetLosses = w.resetLosses := rfl

@[simp] theorem FrameWork.setSlot_period (w : FrameWork) (k : Nat) (v : FadeSlot) : (w.setSlot k v).period = w.period := rfl
@[simp] theorem FrameWork.setSlot_agenda (w : FrameWork) (k : Nat) (v : FadeSlot) : (w.setSlot k v).agenda = w.agenda := rfl
@[simp] theorem FrameWork.setSlot_atOnce (w : FrameWork) (k : Nat) (v : FadeSlot) : (w.setSlot k v).atOnce = w.atOnce := rfl
@[simp] theorem FrameWork.setSlot_stagedOver (w : FrameWork) (k : Nat) (v : FadeSlot) : (w.setSlot k v).stagedOver = w.stagedOver := rfl
@[simp] theorem FrameWork.setSlot_notices (w : FrameWork) (k : Nat) (v : FadeSlot) : (w.setSlot k v).notices = w.notices := rfl
@[simp] theorem FrameWork.setSlot_superseded (w : FrameWork) (k : Nat) (v : FadeSlot) : (w.setSlot k v).superseded = w.superseded := rfl
@[simp] theorem FrameWork.setSlot_mustEnd (w : FrameWork) (k : Nat) (v : FadeSlot) : (w.setSlot k v).mustEnd = w.mustEnd := rfl
@[simp] theorem FrameWork.setSlot_engineWaits (w : FrameWork) (k : Nat) (v : FadeSlot) : (w.setSlot k v).engineWaits = w.engineWaits := rfl
@[simp] theorem FrameWork.setSlot_bandWaits (w : FrameWork) (k : Nat) (v : FadeSlot) : (w.setSlot k v).bandWaits = w.bandWaits := rfl
@[simp] theorem FrameWork.setSlot_bandLoads (w : FrameWork) (k : Nat) (v : FadeSlot) : (w.setSlot k v).bandLoads = w.bandLoads := rfl
@[simp] theorem FrameWork.setSlot_toController (w : FrameWork) (k : Nat) (v : FadeSlot) : (w.setSlot k v).toController = w.toController := rfl
@[simp] theorem FrameWork.setSlot_toBands (w : FrameWork) (k : Nat) (v : FadeSlot) : (w.setSlot k v).toBands = w.toBands := rfl
@[simp] theorem FrameWork.setSlot_toComposer (w : FrameWork) (k : Nat) (v : FadeSlot) : (w.setSlot k v).toComposer = w.toComposer := rfl
@[simp] theorem FrameWork.setSlot_resetSent (w : FrameWork) (k : Nat) (v : FadeSlot) : (w.setSlot k v).resetSent = w.resetSent := rfl
@[simp] theorem FrameWork.setSlot_resetArbiter (w : FrameWork) (k : Nat) (v : FadeSlot) : (w.setSlot k v).resetArbiter = w.resetArbiter := rfl
@[simp] theorem FrameWork.setSlot_resetStore (w : FrameWork) (k : Nat) (v : FadeSlot) : (w.setSlot k v).resetStore = w.resetStore := rfl
@[simp] theorem FrameWork.setSlot_resetEngine (w : FrameWork) (k : Nat) (v : FadeSlot) : (w.setSlot k v).resetEngine = w.resetEngine := rfl
@[simp] theorem FrameWork.setSlot_resetController (w : FrameWork) (k : Nat) (v : FadeSlot) : (w.setSlot k v).resetController = w.resetController := rfl
@[simp] theorem FrameWork.setSlot_resetBands (w : FrameWork) (k : Nat) (v : FadeSlot) : (w.setSlot k v).resetBands = w.resetBands := rfl
@[simp] theorem FrameWork.setSlot_resetGroups (w : FrameWork) (k : Nat) (v : FadeSlot) : (w.setSlot k v).resetGroups = w.resetGroups := rfl
@[simp] theorem FrameWork.setSlot_resetLosses (w : FrameWork) (k : Nat) (v : FadeSlot) : (w.setSlot k v).resetLosses = w.resetLosses := rfl

@[simp] theorem FrameWork.setPlayback_period (w : FrameWork) (k : Nat) (v : Playback) : (w.setPlayback k v).period = w.period := rfl
@[simp] theorem FrameWork.setPlayback_agenda (w : FrameWork) (k : Nat) (v : Playback) : (w.setPlayback k v).agenda = w.agenda := rfl
@[simp] theorem FrameWork.setPlayback_atOnce (w : FrameWork) (k : Nat) (v : Playback) : (w.setPlayback k v).atOnce = w.atOnce := rfl
@[simp] theorem FrameWork.setPlayback_stagedOver (w : FrameWork) (k : Nat) (v : Playback) : (w.setPlayback k v).stagedOver = w.stagedOver := rfl
@[simp] theorem FrameWork.setPlayback_notices (w : FrameWork) (k : Nat) (v : Playback) : (w.setPlayback k v).notices = w.notices := rfl
@[simp] theorem FrameWork.setPlayback_superseded (w : FrameWork) (k : Nat) (v : Playback) : (w.setPlayback k v).superseded = w.superseded := rfl
@[simp] theorem FrameWork.setPlayback_mustEnd (w : FrameWork) (k : Nat) (v : Playback) : (w.setPlayback k v).mustEnd = w.mustEnd := rfl
@[simp] theorem FrameWork.setPlayback_engineWaits (w : FrameWork) (k : Nat) (v : Playback) : (w.setPlayback k v).engineWaits = w.engineWaits := rfl
@[simp] theorem FrameWork.setPlayback_bandWaits (w : FrameWork) (k : Nat) (v : Playback) : (w.setPlayback k v).bandWaits = w.bandWaits := rfl
@[simp] theorem FrameWork.setPlayback_bandLoads (w : FrameWork) (k : Nat) (v : Playback) : (w.setPlayback k v).bandLoads = w.bandLoads := rfl
@[simp] theorem FrameWork.setPlayback_toController (w : FrameWork) (k : Nat) (v : Playback) : (w.setPlayback k v).toController = w.toController := rfl
@[simp] theorem FrameWork.setPlayback_toBands (w : FrameWork) (k : Nat) (v : Playback) : (w.setPlayback k v).toBands = w.toBands := rfl
@[simp] theorem FrameWork.setPlayback_toComposer (w : FrameWork) (k : Nat) (v : Playback) : (w.setPlayback k v).toComposer = w.toComposer := rfl
@[simp] theorem FrameWork.setPlayback_resetSent (w : FrameWork) (k : Nat) (v : Playback) : (w.setPlayback k v).resetSent = w.resetSent := rfl
@[simp] theorem FrameWork.setPlayback_resetArbiter (w : FrameWork) (k : Nat) (v : Playback) : (w.setPlayback k v).resetArbiter = w.resetArbiter := rfl
@[simp] theorem FrameWork.setPlayback_resetStore (w : FrameWork) (k : Nat) (v : Playback) : (w.setPlayback k v).resetStore = w.resetStore := rfl
@[simp] theorem FrameWork.setPlayback_resetEngine (w : FrameWork) (k : Nat) (v : Playback) : (w.setPlayback k v).resetEngine = w.resetEngine := rfl
@[simp] theorem FrameWork.setPlayback_resetController (w : FrameWork) (k : Nat) (v : Playback) : (w.setPlayback k v).resetController = w.resetController := rfl
@[simp] theorem FrameWork.setPlayback_resetBands (w : FrameWork) (k : Nat) (v : Playback) : (w.setPlayback k v).resetBands = w.resetBands := rfl
@[simp] theorem FrameWork.setPlayback_resetGroups (w : FrameWork) (k : Nat) (v : Playback) : (w.setPlayback k v).resetGroups = w.resetGroups := rfl
@[simp] theorem FrameWork.setPlayback_resetLosses (w : FrameWork) (k : Nat) (v : Playback) : (w.setPlayback k v).resetLosses = w.resetLosses := rfl

@[simp] theorem FrameWork.finish_s (w : FrameWork) (o : Owed) (st : Status) (n : Nat) :
    (w.finish o st n).s = w.s.finish o st n := rfl
@[simp] theorem FrameWork.doFirst_agenda (w : FrameWork) (l : List ControllerStep) :
    (w.doFirst l).agenda = l ++ w.agenda := rfl
@[simp] theorem FrameWork.doAtOnce_atOnce (w : FrameWork) (l : List ControllerStep) :
    (w.doAtOnce l).atOnce = w.atOnce ++ l := rfl
@[simp] theorem FrameWork.setPlayback_playback (w : FrameWork) (k : Nat) (v : Playback) (j : Nat) :
    (w.setPlayback k v).playback j = if j = k then v else w.playback j := by
  simp [FrameWork.playback, FrameWork.setPlayback]

end Sys2Proof.Machine
end

