-- ==== Sys2Proof/Laws/LoadData.lean ====
section
/-! SUPPORT. What an answer of the host to a read of load data does, said once (R25, R26, R28, R92). -/

namespace Sys2Proof.Machine

/-- The blocks held by the scenes after one scene is written (R21). -/
theorem heldBlocks_setScene (t : SceneStore) (id : Nat) (v : Scene) (h : t.scenes.wf Scene.none = true) :
    Safety.heldBlocks (t.setScene id v) + (t.scene id).blocks = Safety.heldBlocks t + v.blocks :=
  Table.total_set Scene.blocks Scene.none t.scenes id v h rfl

theorem heldBlocks_emptyScene (t : SceneStore) (i : Nat) (h : t.scenes.wf Scene.none = true) :
    (t.emptyScene i).freeBlocks + Safety.heldBlocks (t.emptyScene i) = t.freeBlocks + Safety.heldBlocks t := by
  have h1 := heldBlocks_setScene t i Scene.none h
  have h2 : Safety.heldBlocks (t.emptyScene i) = Safety.heldBlocks (t.setScene i Scene.none) := rfl
  have h3 : (t.emptyScene i).freeBlocks = t.freeBlocks + (t.scene i).blocks := rfl
  have h4 : Scene.none.blocks = 0 := rfl
  omega

/-- A load without what the data that has come so far changes of it. -/
def Load.fixed (l : Load) : Load := { l with received := 0, fetching := false }

theorem nextHead_fixed (l : List Load) : (nextHead l).map Load.fixed = (l.drop 1).map Load.fixed := by
  match l with
  | [] => rfl
  | [_] => rfl
  | _ :: _ :: _ => rfl

/-- What the data of a load may do to the store, `f` being the effective frame: the tables stay canonical and the blocks
are conserved (R21), loads leave the queue from its head only (R24), and at most one load-end notice is sent (R28). -/
structure StoreServed (f : Nat) (t t' : SceneStore) : Prop where
  wf : t.scenes.wf Scene.none = true → t'.scenes.wf Scene.none = true
  blocks : t.scenes.wf Scene.none = true →
    t'.freeBlocks + Safety.heldBlocks t' = t.freeBlocks + Safety.heldBlocks t
  loads : ∃ k, t'.loads.map Load.fixed = (t.loads.drop k).map Load.fixed
  notices : t'.notices = t.notices ∨ ∃ id x, t'.notices = t.notices ++ [{ scene := id, state := x, frame := f }]
  nextLoad : t'.nextLoad = t.nextLoad

/-- What an answer of the host may do: the store is served, a band may be written, and one completion may be handed over. -/
def Answered (f : Nat) (s t : State) : Prop :=
  ∃ st records, StoreServed f s.store st ∧
    (s.bands.records.wf Band.undefined = true → records.wf Band.undefined = true) ∧
    (t = { s with store := st, bands := { s.bands with records := records } } ∨
      ∃ c x n, t = State.finishNow { s with store := st, bands := { s.bands with records := records } } c x n)

theorem StoreServed.refl (f : Nat) (t : SceneStore) : StoreServed f t t :=
  ⟨id, fun _ => rfl, ⟨0, rfl⟩, .inl rfl, rfl⟩

/-- A scene written with as many blocks as it had. -/
theorem StoreServed.scene {f : Nat} {t u : SceneStore} (h : StoreServed f t u) (i : Nat) (v : Scene)
    (hv : v.blocks = (u.scene i).blocks) : StoreServed f t (u.setScene i v) :=
  ⟨fun w => Table.set_wf _ _ _ _ (h.wf w), fun w => by
      have h1 := heldBlocks_setScene u i v (h.wf w)
      have h2 := h.blocks w
      have h3 : (u.setScene i v).freeBlocks = u.freeBlocks := rfl
      omega,
    h.loads, h.notices, h.nextLoad⟩

/-- One more item is counted. -/
theorem StoreServed.count {f : Nat} {t u : SceneStore} (h : StoreServed f t u) : StoreServed f t u.countItem :=
  ⟨h.wf, h.blocks, by
    obtain ⟨k, hk⟩ := h.loads
    refine ⟨k, hk ▸ ?_⟩
    unfold SceneStore.countItem
    cases u.loads <;> rfl, h.notices, h.nextLoad⟩

/-- The load at the head leaves; nothing has left before. -/
theorem StoreServed.pop {f : Nat} {t u : SceneStore} (h : StoreServed f t u)
    (hl : u.loads.map Load.fixed = t.loads.map Load.fixed) : StoreServed f t u.popLoad :=
  ⟨h.wf, h.blocks, ⟨1, by
    show (nextHead u.loads).map Load.fixed = _
    rw [nextHead_fixed, List.map_drop, hl, ← List.map_drop]⟩, h.notices, h.nextLoad⟩

/-- A scene load ends with its scene READY. -/
theorem endSceneLoadReady_answered {f : Nat} {s t : State} (i : Nat) (l : Load)
    (h : StoreServed f s.store t.store) (hl : t.store.loads.map Load.fixed = s.store.loads.map Load.fixed)
    (hn : t.store.notices = s.store.notices) (ht : t = { s with store := t.store }) :
    Answered f s (t.endSceneLoadReady f l i) := by
  have h1 := (h.scene i { t.store.scene i with state := .ready } rfl).pop hl
  refine ⟨{ (t.store.setScene i { t.store.scene i with state := .ready }).popLoad with
    notices := s.store.notices ++ [{ scene := i, state := .ready, frame := f }] }, s.bands.records,
    ⟨h1.wf, h1.blocks, h1.loads, .inr ⟨_, _, rfl⟩, h1.nextLoad⟩, id, .inr ⟨l.ctx, .ok, (t.store.scene i).entryCount, ?_⟩⟩
  rw [← hn]
  generalize t.store = u at *
  subst ht
  rfl

/-- A scene load fails. -/
theorem endSceneLoadFailed_answered (f : Nat) (s : State) (l : Load) (i : Nat) (x : Status) (n : Nat) :
    Answered f s (s.endSceneLoadFailed f l i x n) :=
  ⟨{ (s.store.emptyScene i).popLoad with
      notices := s.store.notices ++ [{ scene := i, state := .empty, frame := f }] }, s.bands.records,
    ⟨fun w => Table.set_wf _ _ _ _ w, heldBlocks_emptyScene s.store i, ⟨1, nextHead_fixed _⟩, .inr ⟨_, _, rfl⟩, rfl⟩,
    id, .inr ⟨l.ctx, x, n, rfl⟩⟩

/-- Every answer of the host does that. -/
theorem loadAnswer_answered (s : State) (f : Nat) (a : LoadAnswer) : Answered f s (s.loadAnswer f a) := by
  have same : Answered f s s := ⟨s.store, s.bands.records, .refl _ _, id, .inl rfl⟩
  have counted := StoreServed.count (StoreServed.refl f s.store)
  have popped := StoreServed.pop (StoreServed.refl f s.store) rfl
  cases a with
  | error =>
    show Answered f s (s.loadError f)
    unfold State.loadError
    split
    · exact same
    · split
      · exact endSceneLoadFailed_answered _ _ _ _ _ _
      · exact ⟨_, _, popped, Table.set_wf _ _ _ _, .inr ⟨_, _, _, rfl⟩⟩
  | item item =>
    show Answered f s (s.loadItem f item)
    unfold State.loadItem
    split
    · exact same
    · rename_i l _
      split
      · rename_i i _
        unfold State.takeSceneItem
        dsimp only
        have h1 := StoreServed.count (StoreServed.scene (StoreServed.refl f s.store) i
          { s.store.scene i with entries := (s.store.scene i).entries ++ [sceneItem item.bytes] } rfl)
        split
        · exact endSceneLoadFailed_answered _ _ _ _ _ _
        · split
          · exact ⟨_, s.bands.records, h1, id, .inl rfl⟩
          · refine endSceneLoadReady_answered (t := { s with store := _ }) i l h1 ?_ rfl rfl
            unfold SceneStore.countItem SceneStore.setScene
            dsimp only
            cases s.store.loads <;> rfl
      · unfold State.takeColour
        split
        · exact same
        · dsimp only
          split
          · exact ⟨_, _, counted, Table.set_wf _ _ _ _, .inl rfl⟩
          · exact ⟨_, _, popped, Table.set_wf _ _ _ _, .inr ⟨_, _, _, rfl⟩⟩

/-- But for the effective frame that it is given, an answer of the host does not look at the clock. -/
theorem loadAnswer_clock (s : State) (c : FrameClock) (f : Nat) (a : LoadAnswer) :
    { State.loadAnswer { s with clock := c } f a with clock := s.clock } = s.loadAnswer f a := by
  cases a with
  | error =>
    show { State.loadError { s with clock := c } f with clock := s.clock } = s.loadError f
    unfold State.loadError
    dsimp only
    split
    · rfl
    · split <;> rfl
  | item item =>
    show { State.loadItem { s with clock := c } f item with clock := s.clock } = s.loadItem f item
    unfold State.loadItem
    dsimp only
    split
    · rfl
    · split
      · unfold State.takeSceneItem
        dsimp only
        split
        · rfl
        · split <;> rfl
      · unfold State.takeColour
        dsimp only
        split
        · rfl
        · split <;> rfl

/-- The notices that are not of the frame stay. -/
theorem StoreServed.otherNotices {f : Nat} {t u : SceneStore} (h : StoreServed f t u) :
    u.notices.filter (fun x => decide (x.frame ≠ f)) = t.notices.filter (fun x => decide (x.frame ≠ f)) := by
  rcases h.notices with e | ⟨i, x, e⟩
  · rw [e]
  · rw [e, List.filter_append]; simp

/-- What an answer that comes in the midst of a frame start leaves: all but the store, the bands' records, the host unit
and the list of the band loads; a load-end notice sent now is stamped with the frame. -/
theorem FrameWork.takeAnswer_is (w : FrameWork) (a : LoadAnswer) :
    ∃ host store records loads,
      w.takeAnswer a =
        { w with
          s := { w.s with host := host, store := store, bands := { w.s.bands with records := records } }
          bandLoads := loads } ∧
      (store.notices = w.s.store.notices ∨
        ∃ id x, store.notices = w.s.store.notices ++ [{ scene := id, state := x, frame := w.frame }]) := by
  unfold FrameWork.takeAnswer
  split
  · exact ⟨w.s.host, w.s.store, w.s.bands.records, w.bandLoads, rfl, .inl rfl⟩
  · obtain ⟨st, records, hs, _, e | ⟨c, x, n, e⟩⟩ := loadAnswer_answered w.s w.frame a
    · rw [e]; exact ⟨w.s.host, st, records, _, rfl, hs.notices⟩
    · rw [e]; exact ⟨_, st, records, _, rfl, hs.notices⟩

end Sys2Proof.Machine
end

