-- ==== Sys2Proof/Laws/FrameEdits.lean ====
section
/-! SUPPORT. Everything that a frame start can do to the state, said once: it is a path of edits, each of which changes
one block in a bounded way or hands over one completion. An invariant is kept by FRAME_START if each edit keeps it. -/

namespace Sys2Proof.Machine

/-! ## What an edit may do to its block -/

/-- Canonical form is kept, and no last level changes (R2). -/
def ChannelsKept (t t' : Table Channel) : Prop :=
  t.wf Channel.dark = true →
    t'.wf Channel.dark = true ∧ ∀ c, (t'.get Channel.dark c).last = (t.get Channel.dark c).last

/-- No pending list grows, and a set of cues in flight grows to 4 at most (R55, R61). -/
def PlaybackKept (p p' : Playback) : Prop :=
  p'.pending.length ≤ p.pending.length ∧ p'.inFlight.length ≤ max p.inFlight.length 4

/-- What an edit may do to the Playback Controller. -/
def ControllerKept (c c' : PlaybackController) : Prop :=
  (c.playbacks.wf Playback.atReset = true → c'.playbacks.wf Playback.atReset = true) ∧
  c'.staged.Sublist c.staged ∧ c'.nextCue = c.nextCue ∧ ∀ p, PlaybackKept (c.playback p) (c'.playback p)

/-- What an edit of frame start `f` may do to the Scene Store: the blocks are conserved (R21), loads leave the queue from
its head only (R24), and of the notices of other frames none is added. -/
def StoreKept (f : Nat) (t t' : SceneStore) : Prop :=
  (t.scenes.wf Scene.none = true →
    t'.scenes.wf Scene.none = true ∧
      (t.freeBlocks + Safety.heldBlocks t = 2048 → t'.freeBlocks + Safety.heldBlocks t' = 2048)) ∧
  (∃ k, t'.loads.map Load.fixed = (t.loads.drop k).map Load.fixed) ∧
  (t'.notices.filter (fun x => decide (x.frame ≠ f))).Sublist (t.notices.filter (fun x => decide (x.frame ≠ f))) ∧
  t'.nextLoad = t.nextLoad

/-- The park list's law (R107), of a list. -/
def ParksLegal (l : List ParkRange) : Prop :=
  l.length ≤ 32 ∧ l.Pairwise (fun a b => a.first ≤ b.first ∧ ∀ c, ¬(a.covers c = true ∧ b.covers c = true))

/-- What an edit may do to the Frame Clock and Composer. -/
def ClockKept (c c' : FrameClock) : Prop :=
  c'.frame = c.frame ∧ c'.acceptedPeriod = c.acceptedPeriod ∧ c'.safe = c.safe ∧ c'.reads = c.reads ∧
  c'.staged.Sublist c.staged ∧ (ParksLegal c.parks → ParksLegal c'.parks) ∧
  (c'.period = c.period ∨ ∃ e ∈ c.staged, e.request = .setPeriod c'.period)

/-- What an edit may do to the Strip Ports. -/
def PortsKept (u u' : StripPorts) : Prop :=
  (u.records.wf Port.atReset = true → u'.records.wf Port.atReset = true) ∧ u'.staged.Sublist u.staged ∧
  ∀ k, (u'.port k).line = (u.port k).line ∧ (u'.port k).accepted = (u.port k).accepted

/-- One edit of a frame start. -/
inductive FrameEdit : State → State → Prop
  | finish (s : State) (o : Owed) (st : Status) (n : Nat) : FrameEdit s (s.finish o st n)
  | arbiter (s : State) (t : Table Channel) (h : ChannelsKept s.arbiter.channels t) :
      FrameEdit s { s with arbiter := { s.arbiter with channels := t } }
  | engine (s : State) (e : TransitionEngine)
      (h : s.engine.slots.wf FadeSlot.atReset = true → e.slots.wf FadeSlot.atReset = true) :
      FrameEdit s { s with engine := e }
  | controller (s : State) (c : PlaybackController) (h : ControllerKept s.controller c) :
      FrameEdit s { s with controller := c }
  | store (s : State) (t : SceneStore) (h : StoreKept s.clock.frame s.store t) : FrameEdit s { s with store := t }
  | bands (s : State) (b : BandUnit)
      (h : (s.bands.records.wf Band.undefined = true → b.records.wf Band.undefined = true) ∧
        b.staged.Sublist s.bands.staged) :
      FrameEdit s { s with bands := b }
  | clock (s : State) (c : FrameClock) (h : ClockKept s.clock c) : FrameEdit s { s with clock := c }
  | groups (s : State) (g : GroupUnit)
      (h : g.hold.Sublist s.groups.hold ∧ g.commits.Sublist s.groups.commits) : FrameEdit s { s with groups := g }
  | ports (s : State) (u : StripPorts) (h : PortsKept s.ports u) : FrameEdit s { s with ports := u }
  | intake (s : State) : FrameEdit s { s with host := { s.host with intakePause := false } }
  | arrival (s : State) (a : IntakeArrival) : FrameEdit s (s.intakeArrival a)

/-- A path of edits. -/
inductive FrameEdits : State → State → Prop
  | nil (s : State) : FrameEdits s s
  | cons {s t u : State} (h : FrameEdit s t) (rest : FrameEdits t u) : FrameEdits s u

namespace FrameEdits

theorem trans {s t u : State} (h : FrameEdits s t) (h' : FrameEdits t u) : FrameEdits s u := by
  induction h with
  | nil => exact h'
  | cons e _ ih => exact .cons e (ih h')

theorem one {s t : State} (h : FrameEdit s t) : FrameEdits s t := .cons h (.nil t)

/-- What every edit keeps, a path keeps. -/
theorem keeps {P : State → Prop} (hP : ∀ s t, FrameEdit s t → P s → P t) {s t : State} (h : FrameEdits s t)
    (hs : P s) : P t := by
  induction h with
  | nil => exact hs
  | cons e _ ih => exact ih (hP _ _ e hs)

/-- A chain of operations, each a path. -/
theorem fold {β : Type} (f : FrameWork → β → FrameWork) (hf : ∀ w b, FrameEdits w.s (f w b).s) (l : List β) :
    ∀ w : FrameWork, FrameEdits w.s (l.foldl f w).s := by
  induction l with
  | nil => intro w; exact .nil _
  | cons b l ih => intro w; exact (hf w b).trans (ih (f w b))

end FrameEdits

/-! ## The channel table -/

theorem ChannelsKept.refl (t : Table Channel) : ChannelsKept t t := fun h => ⟨h, fun _ => rfl⟩

theorem ChannelsKept.trans {a b c : Table Channel} (h : ChannelsKept a b) (h' : ChannelsKept b c) :
    ChannelsKept a c := fun w => ⟨(h' (h w).1).1, fun k => ((h' (h w).1).2 k).trans ((h w).2 k)⟩

theorem ChannelsKept.set (t : Table Channel) (c : Nat) (v : Channel) (h : v.last = (t.get Channel.dark c).last) :
    ChannelsKept t (t.set Channel.dark c v) := fun w =>
  ⟨Table.set_wf _ _ _ _ w, fun k => by
    rw [Table.get_set]; split
    · subst_vars; exact h
    · rfl⟩

/-- A claim writes the holding of one channel or nothing (R4, R5, R7). -/
theorem claimChannel_kept (o : Owner) (q c : Nat) (b : Channel → Holding) (acc : Table Channel × ArbiterReport) :
    ChannelsKept acc.1 (claimChannel o q c b acc).1 := by
  unfold claimChannel
  dsimp only
  split
  · exact ChannelsKept.set _ _ _ rfl
  · exact .refl _

theorem claims_kept {β : Type} (f : Table Channel × ArbiterReport → β → Table Channel × ArbiterReport)
    (hf : ∀ acc b, ChannelsKept acc.1 (f acc b).1) (l : List β) :
    ∀ acc, ChannelsKept acc.1 (l.foldl f acc).1 := by
  induction l with
  | nil => intro acc; exact .refl _
  | cons b l ih => intro acc; exact (hf acc b).trans (ih _)

theorem fadeBatch_kept (t : Table Channel) (p q k : Nat) (pairs : List (Nat × Level)) :
    ChannelsKept t (fadeBatch t p q k pairs).1 :=
  claims_kept
    (fun acc (pair : Nat × Level) =>
      claimChannel (.playback p) q pair.1 (fun ch => .fading p q k ch.last pair.2) acc)
    (fun _ _ => claimChannel_kept _ _ _ _ _) pairs (t, { granted := 0, denied := 0, lost := [] })

theorem bandBatch_kept (t : Table Channel) (b q first count : Nat) :
    ChannelsKept t (bandBatch t b q first count).1 :=
  claims_kept (fun acc i => claimChannel (.band b) q (first + i) (fun _ => .band b q) acc)
    (fun _ _ => claimChannel_kept _ _ _ _ _) (List.range count) (t, { granted := 0, denied := 0, lost := [] })

theorem mapHoldings_kept (t : Table Channel) (g : Channel → Channel) (hl : ∀ ch, (g ch).last = ch.last)
    (hd : g Channel.dark = Channel.dark) : ChannelsKept t (t.mapCells Channel.dark (fun _ => g)) := fun w =>
  ⟨Table.mapCells_wf _ _ _ w, fun k => by rw [Table.get_mapCells _ _ _ _ hd w]; exact hl _⟩

/-- An order changes holdings alone, and takes no channel that is not listed (R6, R11 to R15). -/
theorem applyOrder_kept (t : Table Channel) (chosen : Holding → Bool) (b : Channel → Holding)
    (hd : chosen (.free 0) = false) : ChannelsKept t (applyOrder t chosen b).1 :=
  mapHoldings_kept t (fun ch => if chosen ch.holding then { ch with holding := b ch } else ch)
    (fun ch => by split <;> rfl) (by
      have h : chosen Channel.dark.holding = false := hd
      rw [h]; rfl)

theorem releaseBatch_kept (t : Table Channel) (p k : Nat) : ChannelsKept t (releaseBatch t p k).1 :=
  applyOrder_kept _ _ _ (by simp [ownedBy, Holding.owner])

theorem settleOrder_kept (t : Table Channel) (k : Nat) : ChannelsKept t (settleOrder t k).1 :=
  applyOrder_kept _ _ _ (by simp [fadingUnder, Holding.slot])

theorem releaseEndOrder_kept (t : Table Channel) (k : Nat) : ChannelsKept t (releaseEndOrder t k).1 :=
  applyOrder_kept _ _ _ (by simp [fadingUnder, Holding.slot])

theorem stopOrder_kept (t : Table Channel) (b : Nat) : ChannelsKept t (stopOrder t b).1 :=
  applyOrder_kept _ _ _ (by simp [Holding.owner])

theorem clearOrder_kept (t : Table Channel) (p : Nat) : ChannelsKept t (clearOrder t p).1 :=
  applyOrder_kept _ _ _ (by simp [ownedBy, Holding.owner])

theorem snapOrder_kept (t : Table Channel) (p : Nat) : ChannelsKept t (snapOrder t p).1 :=
  applyOrder_kept _ _ _ (by simp [ownedBy, Holding.owner])

theorem showResetOrder_kept (t : Table Channel) : ChannelsKept t (showResetOrder t).1 :=
  applyOrder_kept _ _ _ (by decide)

/-! ## The Scene Store -/

/-- Writing a scene with as many blocks as it had. -/
theorem StoreKept.setScene (f : Nat) (t : SceneStore) (id : Nat) (v : Scene) (h : v.blocks = (t.scene id).blocks) :
    StoreKept f t (t.setScene id v) :=
  ⟨fun w => ⟨Table.set_wf _ _ _ _ w, fun hs => by
      have := heldBlocks_setScene t id v w
      rw [SceneStore.setScene_freeBlocks]; omega⟩,
    ⟨0, rfl⟩, List.Sublist.refl _, rfl⟩

theorem StoreKept.refl (f : Nat) (t : SceneStore) : StoreKept f t t :=
  ⟨fun w => ⟨w, id⟩, ⟨0, rfl⟩, List.Sublist.refl _, rfl⟩

/-- The data of a load keeps them. -/
theorem StoreServed.kept {f : Nat} {t u : SceneStore} (h : StoreServed f t u) : StoreKept f t u :=
  ⟨fun w => ⟨h.wf w, fun e => (h.blocks w).trans e⟩, h.loads, h.otherNotices ▸ List.Sublist.refl _, h.nextLoad⟩

theorem lend_kept (f : Nat) (t : SceneStore) (id : Nat) : StoreKept f t (t.lend id) := by
  unfold SceneStore.lend
  split
  · exact .setScene _ _ _ _ rfl
  · exact .refl _ _

theorem giveBack_kept (f : Nat) (t : SceneStore) (id : Nat) : StoreKept f t (t.giveBack id) := .setScene _ _ _ _ rfl

/-! ## The playbacks -/

theorem PlaybackKept.refl (p : Playback) : PlaybackKept p p := ⟨Nat.le_refl _, Nat.le_max_left _ _⟩

theorem ControllerKept.setPlayback (c : PlaybackController) (n : Nat) (v : Playback)
    (h : PlaybackKept (c.playback n) v) : ControllerKept c (c.setPlayback n v) :=
  ⟨Table.set_wf _ _ _ _, List.Sublist.refl _, rfl, fun p => by
    rw [PlaybackController.playback_setPlayback]; split
    · subst_vars; exact h
    · exact .refl _⟩

theorem ControllerKept.staged (c : PlaybackController) (l : List (Staged PlaybackRequest)) (h : l.Sublist c.staged) :
    ControllerKept c { c with staged := l } := ⟨id, h, rfl, fun _ => .refl _⟩

/-! ## Paths of the operations -/

namespace FrameWork

open FrameEdits

theorem setChannels_edits (w : FrameWork) (t : Table Channel) (h : ChannelsKept w.s.arbiter.channels t) :
    FrameEdits w.s (w.setChannels t).s := one (.arbiter _ _ h)

theorem setSlot_edits (w : FrameWork) (k : Nat) (v : FadeSlot) : FrameEdits w.s (w.setSlot k v).s :=
  one (.engine _ _ (Table.set_wf _ _ _ _))

theorem setPlayback_edits (w : FrameWork) (p : Nat) (v : Playback) (h : PlaybackKept (w.playback p) v) :
    FrameEdits w.s (w.setPlayback p v).s := one (.controller _ _ (.setPlayback _ _ _ h))

theorem finish_edits (w : FrameWork) (o : Owed) (st : Status) (n : Nat) : FrameEdits w.s (w.finish o st n).s :=
  one (.finish _ _ _ _)

theorem orders_edits (w : FrameWork) (e : TransitionEngine)
    (h : w.s.engine.slots.wf FadeSlot.atReset = true → e.slots.wf FadeSlot.atReset = true) :
    FrameEdits w.s { w with s := { w.s with engine := e } }.s := one (.engine _ _ h)

/-! ### Transition Engine -/

theorem freeSlot_edits (w : FrameWork) (k : Nat) (r : EndReason) : FrameEdits w.s (w.freeSlot k r).s := by
  unfold freeSlot
  split
  · exact .nil _
  · rename_i run _
    refine (setSlot_edits w k (.free (w.frame + 1))).trans ?_
    dsimp only
    cases run.kind with
    | cue c scene => exact one (.store _ _ (giveBack_kept _ _ _))
    | release => exact .nil _

theorem loseChannels_edits (w : FrameWork) (k n : Nat) (r : EndReason) :
    FrameEdits w.s (w.loseChannels k n r).s := by
  unfold loseChannels
  split
  · exact .nil _
  · split
    · exact freeSlot_edits _ _ _
    · exact setSlot_edits _ _ _

theorem takeLosses_edits (w : FrameWork) (l : List (Nat × Nat)) (r : EndReason) :
    FrameEdits w.s (w.takeLosses l r).s :=
  fold (fun acc (x : Nat × Nat) => acc.loseChannels x.1 x.2 r) (fun _ _ => loseChannels_edits _ _ _ _) l w

theorem endSlot_edits (w : FrameWork) (k : Nat) : FrameEdits w.s (w.endSlot k).s := by
  unfold endSlot
  split
  · exact .nil _
  · split
    · exact .nil _
    · rename_i run _ _
      refine (setChannels_edits w _ ?_).trans (freeSlot_edits _ _ _)
      cases run.kind with
      | cue c scene => exact settleOrder_kept _ _
      | release => exact releaseEndOrder_kept _ _

theorem lendFor_edits (w : FrameWork) (k : SlotKind) : FrameEdits w.s (w.lendFor k).s := by
  cases k with
  | cue c scene => exact one (.store _ _ (lend_kept _ _ _))
  | release => exact .nil _

theorem batchOf_kept (t : Table Channel) (q : SlotRequest) (k : Nat) : ChannelsKept t (batchOf t q k).1 := by
  unfold batchOf
  split
  · exact fadeBatch_kept _ _ _ _ _
  · exact releaseBatch_kept _ _ _

theorem requestSlot_edits (w : FrameWork) (q : SlotRequest) : FrameEdits w.s (w.requestSlot q).1.s := by
  unfold requestSlot
  split
  · exact .nil _
  · split
    · exact .nil _
    · split
      · exact setSlot_edits _ _ _
      · rename_i k _ _
        have h1 := setChannels_edits w _ (batchOf_kept w.s.arbiter.channels q k)
        dsimp only
        split
        · exact h1.trans (setSlot_edits _ _ _)
        · have h2 := (h1.trans (setSlot_edits _ k
            (.inUse (allocated q w.frame (batchOf w.s.arbiter.channels q k).2.granted)))).trans
            ((lendFor_edits _ q.kind).trans (takeLosses_edits _ (batchOf w.s.arbiter.channels q k).2.lost
              (takeoverReason q.kind)))
          split <;> exact h2

/-! ### Playback Controller -/

theorem reportCue_edits (w : FrameWork) (c : Cue) (st : Status) : FrameEdits w.s (w.reportCue c st).s := by
  unfold reportCue
  split
  · exact finish_edits _ _ _ _
  · exact .nil _

theorem setCue_edits (w : FrameWork) (p id : Nat) (g : Cue → Cue) : FrameEdits w.s (w.setCue p id g).s :=
  setPlayback_edits _ _ _ ⟨Nat.le_refl _, by simp only [List.length_map]; exact Nat.le_max_left _ _⟩

theorem followDue_length (w : FrameWork) (p : Playback) (l : List Cue) : (w.followDue p l).length = l.length := by
  cases l with
  | nil => rfl
  | cons c rest => simp only [followDue]; split <;> rfl

theorem triggerHead_edits (w : FrameWork) (p : Nat) (h : (w.playback p).inFlight.length < 4) :
    FrameEdits w.s (w.triggerHead p).s := by
  unfold triggerHead
  dsimp only
  split
  · exact .nil _
  · rename_i c rest hp
    refine setPlayback_edits w _ _ ⟨?_, ?_⟩
    · rw [hp]; cases rest <;> simp
    · simp only [List.length_append, List.length_cons, List.length_nil]; omega

theorem room_of_headDue {w : FrameWork} {q : Playback} (h : w.headDue q = true) : q.inFlight.length < 4 := by
  unfold headDue at h
  split at h
  · cases h
  · split at h
    · cases h
    · exact (of_decide_eq_true h).2.2

theorem tryHead_edits (w : FrameWork) (p : Nat) : FrameEdits w.s (w.tryHead p).s := by
  unfold tryHead
  split
  · exact triggerHead_edits _ _ (room_of_headDue ‹_›)
  · exact .nil _

theorem endCue_edits (w : FrameWork) (p id : Nat) (st : Status) : FrameEdits w.s (w.endCue p id st).s := by
  unfold endCue
  split
  · exact .nil _
  · refine (setPlayback_edits w _ _ ⟨?_, ?_⟩).trans ((reportCue_edits _ _ _).trans (tryHead_edits _ _))
    · dsimp only
      split
      · exact Nat.le_of_eq (followDue_length _ _ _)
      · exact Nat.le_refl _
    · exact Nat.le_trans (List.length_filter_le _ _) (Nat.le_max_left _ _)

theorem endRelease_edits (w : FrameWork) (p k : Nat) (st : Status) : FrameEdits w.s (w.endRelease p k st).s := by
  unfold endRelease
  dsimp only
  split
  · have h := setPlayback_edits w p { w.playback p with releaseSlot := none, releaseRecord := none } (.refl _)
    cases (w.playback p).releaseRecord with
    | some r => exact h.trans (finish_edits _ _ _ _)
    | none => exact h
  · split
    · exact one (.finish _ _ _ _)
    · exact .nil _

theorem takeNotice_edits (w : FrameWork) (n : EndNotice) : FrameEdits w.s (w.takeNotice n).s := by
  unfold takeNotice
  split
  · exact endCue_edits _ _ _ _
  · exact endRelease_edits _ _ _ _

theorem takeNotices_edits (w : FrameWork) : FrameEdits w.s w.takeNotices.s :=
  fold takeNotice (fun _ _ => takeNotice_edits _ _) w.notices { w with notices := [] }

theorem startCue_edits (w : FrameWork) (p : Nat) (c : Cue) (pairs : List (Nat × Level)) :
    FrameEdits w.s (w.startCue p c pairs).s := by
  unfold startCue
  dsimp only
  have h := (takeNotices_edits w).trans
    (requestSlot_edits w.takeNotices (cueRequest (w.takeNotices.playback p) p c pairs))
  generalize w.takeNotices.requestSlot (cueRequest (w.takeNotices.playback p) p c pairs) = r at h ⊢
  obtain ⟨w1, a⟩ := r
  cases a with
  | noSlot => exact h.trans (endCue_edits _ _ _ _)
  | noChannels d => exact h.trans ((setCue_edits _ _ _ _).trans (endCue_edits _ _ _ _))
  | started k g d => exact h.trans (setCue_edits _ _ _ _)
  | refused => exact h.trans (setCue_edits _ _ _ _)
  | silent => exact h.trans (setCue_edits _ _ _ _)

theorem readScene_edits (w : FrameWork) (p : Nat) (c : Cue) : FrameEdits w.s (w.readScene p c).s := by
  unfold readScene
  split
  · exact startCue_edits _ _ _ _
  · exact setCue_edits _ _ _ _
  · exact endCue_edits _ _ _ _

theorem fadeStart_edits (w : FrameWork) (p id : Nat) : FrameEdits w.s (w.fadeStart p id).s := by
  unfold fadeStart
  split
  · split
    · exact readScene_edits _ _ _
    · exact .nil _
  · exact .nil _

theorem wakeCue_edits (w : FrameWork) (p id : Nat) : FrameEdits w.s (w.wakeCue p id).s := by
  unfold wakeCue
  split
  · split
    · exact readScene_edits _ _ _
    · exact .nil _
  · exact .nil _

theorem applyGo_edits (w : FrameWork) (p : Nat) (o : Owed) : FrameEdits w.s (w.applyGo p o).s := by
  unfold applyGo
  dsimp only
  split
  · exact finish_edits _ _ _ _
  · split
    · exact finish_edits _ _ _ _
    · split
      · exact finish_edits _ _ _ _
      · exact triggerHead_edits _ _ (by simp only [Config.cuesInFlight] at *; omega)

theorem goChain_edits (w : FrameWork) (p n : Nat) (o : Owed) : FrameEdits w.s (w.goChain p n o).s := by
  unfold goChain
  split
  · exact triggerHead_edits _ _ (room_of_headDue ‹_›)
  · exact finish_edits _ _ _ _

theorem mapPlayback_wf (e : TransitionEngine) (p : Nat) (g : FadeRun → FadeRun)
    (h : e.slots.wf FadeSlot.atReset = true) : (e.mapPlayback p g).slots.wf FadeSlot.atReset = true :=
  Table.mapCells_wf _ _ _ h

theorem applyPause_edits (w : FrameWork) (p : Nat) (o : Owed) : FrameEdits w.s (w.applyPause p o).s := by
  unfold applyPause
  dsimp only
  split
  · exact finish_edits _ _ _ _
  · exact (setPlayback_edits w p { w.playback p with paused := some w.frame } (.refl _)).trans
      ((orders_edits _ (TransitionEngine.pauseOrder _ p w.frame) (mapPlayback_wf _ _ _)).trans
        (finish_edits _ o .ok 1))

theorem shiftPlayback_kept (n : Nat) (q : Playback) : PlaybackKept q (shiftPlayback n q) := by
  unfold shiftPlayback
  refine ⟨?_, by simp only [List.length_map]; exact Nat.le_max_left _ _⟩
  cases q.pending <;> exact Nat.le_refl _

theorem applyResume_edits (w : FrameWork) (p : Nat) (o : Owed) : FrameEdits w.s (w.applyResume p o).s := by
  unfold applyResume
  dsimp only
  split
  · exact finish_edits _ _ _ _
  · rename_i a _
    exact (setPlayback_edits w p _ (shiftPlayback_kept (w.frame - a) (w.playback p))).trans
      ((orders_edits _ (TransitionEngine.resumeOrder _ p w.frame) (mapPlayback_wf _ _ _)).trans
        (one (.finish _ o .ok (w.frame - a))))

theorem cancelCues_edits (w : FrameWork) (l : List Cue) : FrameEdits w.s (w.cancelCues l).s :=
  fold (fun acc c => acc.reportCue c .cancelled) (fun _ _ => reportCue_edits _ _ _) l w

theorem reportCue_controller (w : FrameWork) (c : Cue) (st : Status) :
    (w.reportCue c st).s.controller = w.s.controller := by
  unfold reportCue; split <;> rfl

theorem cancelCues_controller (l : List Cue) : ∀ w : FrameWork, (w.cancelCues l).s.controller = w.s.controller := by
  unfold cancelCues
  induction l with
  | nil => intro w; rfl
  | cons c l ih => intro w; rw [List.foldl_cons, ih, reportCue_controller]

theorem cancelCues_playback (w : FrameWork) (l : List Cue) (p : Nat) : (w.cancelCues l).playback p = w.playback p := by
  unfold playback; rw [cancelCues_controller]

theorem cancelWaiting_edits (w : FrameWork) (p : Nat) : FrameEdits w.s (w.cancelWaiting p).s :=
  fold (fun acc (c : Cue) => acc.endCue p c.id .cancelled) (fun _ _ => endCue_edits _ _ _ _)
    ((w.playback p).inFlight.filter waiting) w

theorem applyClear_edits (w : FrameWork) (p : Nat) (o : Owed) : FrameEdits w.s (w.applyClear p o).s := by
  unfold applyClear
  dsimp only
  have h1 : FrameEdits w.s ((w.cancelCues (w.playback p).pending).setPlayback p
      { w.playback p with pending := [] }).s :=
    (cancelCues_edits _ _).trans (setPlayback_edits _ _ _ (by
      rw [cancelCues_playback]; exact ⟨Nat.zero_le _, Nat.le_max_left _ _⟩))
  have h2 := h1.trans (cancelWaiting_edits _ p)
  generalize FrameWork.cancelWaiting _ p = w3 at h2 ⊢
  split
  · exact h2
  · refine h2.trans ((setChannels_edits _ _ (clearOrder_kept _ _)).trans ((takeLosses_edits _ _ _).trans
      ((takeNotices_edits _).trans ((setPlayback_edits _ _ _ ?_).trans (one (.finish _ _ _ _))))))
    exact ⟨Nat.le_refl _, Nat.le_max_left _ _⟩

theorem releaseRead_edits (w : FrameWork) (p : Nat) (g : Option Nat) (o : Owed) :
    FrameEdits w.s (w.releaseRead p g o).s := by
  unfold releaseRead
  split
  · exact finish_edits _ _ _ _
  · exact .nil _

theorem recordRelease_edits (w : FrameWork) (p k m : Nat) (o : Owed) :
    FrameEdits w.s (w.recordRelease p k m o).s := by
  unfold recordRelease
  dsimp only
  have h := setPlayback_edits w p
    { w.playback p with releaseSlot := some k, releaseRecord := some { owed := o, moved := m } } (.refl _)
  split <;> exact h

theorem releaseSlot_edits (w : FrameWork) (p n : Nat) (o : Owed) : FrameEdits w.s (w.releaseSlot p n o).s := by
  unfold releaseSlot
  dsimp only
  have h := (takeNotices_edits w).trans
    (requestSlot_edits w.takeNotices (releaseRequest (w.takeNotices.playback p) p n))
  generalize w.takeNotices.requestSlot (releaseRequest (w.takeNotices.playback p) p n) = r at h ⊢
  obtain ⟨w1, a⟩ := r
  cases a with
  | noSlot => exact h
  | noChannels d => exact h.trans (finish_edits _ _ _ _)
  | started k g d => exact h.trans (recordRelease_edits _ _ _ _ _)
  | refused => exact h
  | silent => exact h

theorem applySnap_edits (w : FrameWork) (p : Nat) (o : Owed) : FrameEdits w.s (w.applySnap p o).s := by
  unfold applySnap
  split
  · exact .nil _
  · exact (setChannels_edits _ _ (snapOrder_kept _ _)).trans ((takeLosses_edits _ _ _).trans (finish_edits _ _ _ _))

theorem applyPlayback_edits (w : FrameWork) (o : Owed) (r : PlaybackRequest) :
    FrameEdits w.s (w.applyPlayback o r).s := by
  cases r with
  | go p => exact applyGo_edits _ _ _
  | pause p => exact applyPause_edits _ _ _
  | resume p => exact applyResume_edits _ _ _
  | clear p => exact applyClear_edits _ _ _
  | release p g => exact cancelWaiting_edits _ _

theorem takeStaged_sublist {ρ : Type} (f : Nat) : (l : List (Staged ρ)) → (e : Staged ρ) → (rest : List (Staged ρ)) →
    takeStaged f l = some (e, rest) → rest.Sublist l ∧ e ∈ l
  | [], _, _, h => by cases h
  | x :: l, e, rest, h => by
    unfold takeStaged at h
    split at h
    · cases h; exact ⟨List.sublist_cons_self _ _, List.mem_cons_self⟩
    · cases hr : takeStaged f l with
      | none => rw [hr] at h; cases h
      | some r =>
        rw [hr] at h
        obtain ⟨e', rest'⟩ := r
        cases h
        have ih := takeStaged_sublist f l e' rest' hr
        exact ⟨ih.1.cons_cons _, List.mem_cons_of_mem _ ih.2⟩

theorem stagedPass_edits (w : FrameWork) : FrameEdits w.s w.stagedPass.s := by
  unfold stagedPass
  split
  · rename_i e rest h
    let w1 : FrameWork := { w with s := { w.s with controller := { w.s.controller with staged := rest } } }
    have h1 : FrameEdits w.s w1.s := one (.controller _ _ (.staged _ _ (takeStaged_sublist _ _ _ _ h).1))
    exact h1.trans (applyPlayback_edits (w1.doFirst [.stagedPass]) e.owed e.request)
  · exact .nil _

theorem sweep_edits (w : FrameWork) (p : Nat) : FrameEdits w.s (w.sweep p).s := by
  unfold sweep
  dsimp only
  split <;> exact .nil _

theorem takeReleased_edits (w : FrameWork) (o : Owed) (r : PlaybackRequest) :
    FrameEdits w.s (w.takeReleased o r).s := by
  unfold takeReleased
  split
  · exact finish_edits _ _ _ _
  · split
    · split
      · exact applyResume_edits _ _ _
      · exact applyResume_edits _ _ _
    · exact applyPlayback_edits _ _ _

theorem controllerStep_edits (w : FrameWork) (c : ControllerStep) : FrameEdits w.s (w.controllerStep c).s := by
  cases c with
  | stagedPass => exact stagedPass_edits _
  | sweep p => exact sweep_edits _ _
  | fadeStart p c => exact fadeStart_edits _ _ _
  | wake p c => exact wakeCue_edits _ _ _
  | tryHead p => exact tryHead_edits _ _
  | goChain p n o => exact goChain_edits _ _ _ _
  | releaseRead p g o => exact releaseRead_edits _ _ _ _
  | releaseSlot p n o => exact releaseSlot_edits _ _ _ _
  | snap p o => exact applySnap_edits _ _ _
  | awaitReset o => exact .nil _

/-! ### Band Unit -/

theorem setBand_edits (w : FrameWork) (b : Nat) (v : Band) :
    FrameEdits w.s { w.s with bands := w.s.bands.setBand b v } :=
  one (.bands _ _ ⟨Table.set_wf _ _ _ _, List.Sublist.refl _⟩)

theorem applyStartBand_edits (w : FrameWork) (o : Owed) (b q : Nat) :
    FrameEdits w.s (w.applyStartBand o b q).s := by
  unfold applyStartBand
  dsimp only
  split
  · exact finish_edits _ _ _ _
  · exact .nil _
  · split
    · exact .nil _
    · exact (setChannels_edits w _ (bandBatch_kept _ _ _ _ _)).trans ((takeLosses_edits _ _ _).trans
        ((setBand_edits _ _ _).trans (one (.finish _ _ _ _))))

theorem applyStopBand_edits (w : FrameWork) (o : Owed) (b : Nat) : FrameEdits w.s (w.applyStopBand o b).s := by
  unfold applyStopBand
  split
  · split
    · exact .nil _
    · exact (setChannels_edits w _ (stopOrder_kept _ _)).trans ((setBand_edits _ _ _).trans (one (.finish _ _ _ _)))
  · exact finish_edits _ _ _ _
  · exact finish_edits _ _ _ _

theorem applySetRoll_edits (w : FrameWork) (o : Owed) (b : Nat) (st : Int) (p : Nat) (off : Option Nat) :
    FrameEdits w.s (w.applySetRoll o b st p off).s := by
  unfold applySetRoll
  split
  · exact (setBand_edits w _ _).trans (one (.finish _ _ _ _))
  · exact finish_edits _ _ _ _

theorem applyBand_edits (w : FrameWork) (o : Owed) (r : BandRequest) : FrameEdits w.s (w.applyBand o r).s := by
  cases r with
  | start b q => exact applyStartBand_edits _ _ _ _
  | stop b => exact applyStopBand_edits _ _ _
  | setRoll b st p off => exact applySetRoll_edits _ _ _ _ _ _

theorem takeReleasedBand_edits (w : FrameWork) (o : Owed) (r : BandRequest) :
    FrameEdits w.s (w.takeReleasedBand o r).s := by
  unfold takeReleasedBand
  split
  · exact finish_edits _ _ _ _
  · exact applyBand_edits _ _ _

/-! ### Frame Clock and Composer -/

theorem covers_of_not_overlap {first count : Nat} {r : ParkRange} {level : Level}
    (h : runsOverlap first count r = false) (c : Nat) :
    ¬((ParkRange.mk first count level).covers c = true ∧ r.covers c = true) := by
  simp only [runsOverlap, decide_eq_false_iff_not] at h
  simp only [ParkRange.covers, decide_eq_true_eq]
  omega

theorem mem_insertPark (r : ParkRange) : (l : List ParkRange) → ∀ x ∈ insertPark r l, x = r ∨ x ∈ l
  | [], x, h => by simpa [insertPark] using h
  | q :: rest, x, h => by
    unfold insertPark at h
    split at h
    · simpa using h
    · rcases List.mem_cons.mp h with h | h
      · exact .inr (h ▸ List.mem_cons_self)
      · rcases mem_insertPark r rest x h with h | h
        · exact .inl h
        · exact .inr (List.mem_cons_of_mem _ h)

theorem length_insertPark (r : ParkRange) : (l : List ParkRange) → (insertPark r l).length = l.length + 1
  | [] => rfl
  | q :: rest => by unfold insertPark; split <;> simp [length_insertPark r rest]

theorem insertPark_pairwise (r : ParkRange) : (l : List ParkRange) →
    l.Pairwise (fun a b => a.first ≤ b.first ∧ ∀ c, ¬(a.covers c = true ∧ b.covers c = true)) →
    (∀ q ∈ l, ∀ c, ¬(r.covers c = true ∧ q.covers c = true)) →
    (insertPark r l).Pairwise (fun a b => a.first ≤ b.first ∧ ∀ c, ¬(a.covers c = true ∧ b.covers c = true))
  | [], _, _ => by simp [insertPark]
  | q :: rest, h, hr => by
    obtain ⟨hq, hrest⟩ := List.pairwise_cons.mp h
    unfold insertPark
    split
    · refine List.pairwise_cons.mpr ⟨fun x hx => ⟨?_, hr x hx⟩, h⟩
      rcases List.mem_cons.mp hx with rfl | hx
      · omega
      · have := (hq x hx).1; omega
    · refine List.pairwise_cons.mpr ⟨fun x hx => ?_, insertPark_pairwise r rest hrest
        (fun x hx => hr x (List.mem_cons_of_mem _ hx))⟩
      rcases mem_insertPark r rest x hx with rfl | hx
      · exact ⟨by omega, fun c hc => hr q List.mem_cons_self c ⟨hc.2, hc.1⟩⟩
      · exact hq x hx

/-- PARK keeps the law of the park list (R107, R108). -/
theorem applyPark_legal (l : List ParkRange) (first count : Nat) (level : Level) (h : ParksLegal l) :
    ParksLegal (applyPark l first count level).1 := by
  unfold applyPark
  split
  · exact h
  · rename_i hn
    split
    · exact h
    · rename_i hl
      simp only [Config.parkRanges] at hl
      refine ⟨by rw [length_insertPark]; omega, insertPark_pairwise _ _ h.2 (fun q hq => ?_)⟩
      have := List.find?_eq_none.mp hn q hq
      exact covers_of_not_overlap (by simpa using this)

/-- UNPARK keeps the law of the park list (R107, R109). -/
theorem applyUnpark_legal (l : List ParkRange) (first count : Nat) (h : ParksLegal l) :
    ParksLegal (applyUnpark l first count).1 := by
  unfold applyUnpark
  split
  · exact ⟨Nat.le_trans (List.eraseP_sublist).length_le h.1, h.2.sublist List.eraseP_sublist⟩
  · exact h

theorem clock_edits (w : FrameWork) (c : FrameClock) (h : ClockKept w.s.clock c) :
    FrameEdits w.s { w.s with clock := c } := one (.clock _ _ h)

theorem applyCompose_edits (s : State) (o : Owed) (q : ComposeRequest) : FrameEdits s (s.applyCompose o q) := by
  cases q with
  | park first count level =>
    exact (one (.clock s { s.clock with parks := (applyPark s.clock.parks first count level).1 }
      ⟨rfl, rfl, rfl, rfl, List.Sublist.refl _, applyPark_legal _ _ _ _, .inl rfl⟩)).trans (one (.finish _ _ _ _))
  | unpark first count =>
    exact (one (.clock s { s.clock with parks := (applyUnpark s.clock.parks first count).1 }
      ⟨rfl, rfl, rfl, rfl, List.Sublist.refl _, applyUnpark_legal _ _ _, .inl rfl⟩)).trans (one (.finish _ _ _ _))
  | setMaster m =>
    exact (one (.clock s { s.clock with master := m }
      ⟨rfl, rfl, rfl, rfl, List.Sublist.refl _, id, .inl rfl⟩)).trans (one (.finish _ _ _ _))

theorem applyShowReset_edits (w : FrameWork) (o : Owed) : FrameEdits w.s (w.applyShowReset o).s :=
  (one (.clock w.s { w.s.clock with parks := [], master := 65535 }
    ⟨rfl, rfl, rfl, rfl, List.Sublist.refl _, fun _ => ⟨Nat.zero_le _, List.Pairwise.nil⟩, .inl rfl⟩)).trans
    ((one (.intake _)).trans (one (.finish _ o .ok 0)))

/-- The next staged entry of the Frame Clock and Composer is taken off its list and applied. -/
theorem doComposerStaged_edits (w : FrameWork) : FrameEdits w.s w.doComposerStaged.s := by
  unfold doComposerStaged
  split
  case h_2 => exact .nil _
  rename_i e rest h
  obtain ⟨hs, hm⟩ := takeStaged_sublist _ _ _ _ h
  let w1 : FrameWork := { w with s := { w.s with clock := { w.s.clock with staged := rest } } }
  have h1 : FrameEdits w.s w1.s :=
    one (.clock _ _ ⟨rfl, rfl, rfl, rfl, hs, id, .inl rfl⟩)
  unfold applyClock
  split
  · exact h1.trans (applyCompose_edits _ _ _)
  · rename_i p hp
    exact (one (.clock w.s { w.s.clock with staged := rest, period := p }
      ⟨rfl, rfl, rfl, rfl, hs, id, .inr ⟨e, hm, hp⟩⟩)).trans (one (.finish _ _ _ _))
  · exact h1.trans (applyShowReset_edits w1 e.owed)

theorem takeReleasedCompose_edits (w : FrameWork) (o : Owed) (q : ComposeRequest) :
    FrameEdits w.s (w.takeReleasedCompose o q).s := by
  unfold takeReleasedCompose
  split
  · exact finish_edits _ _ _ _
  · exact applyCompose_edits _ _ _

/-! ### Frame Group Unit -/

theorem handOut_s (w : FrameWork) (h : HeldRequest) : (w.handOut h).s = w.s := by
  unfold handOut; dsimp only; split <;> rfl

theorem foldl_handOut_s (l : List HeldRequest) : ∀ w : FrameWork, (l.foldl handOut w).s = w.s := by
  induction l with
  | nil => intro w; rfl
  | cons h l ih => intro w; rw [List.foldl_cons, ih, handOut_s]

theorem applyCommit_edits (w : FrameWork) (o : Owed) (g : Nat) : FrameEdits w.s (w.applyCommit o g).s := by
  unfold applyCommit
  dsimp only
  let w1 : FrameWork := { w with s := { w.s with groups := { w.s.groups with hold := w.s.groups.without g } } }
  have h1 : FrameEdits w.s w1.s := one (.groups _ _ ⟨List.filter_sublist, List.Sublist.refl _⟩)
  have h2 : ((w.s.groups.members g).foldl handOut w1).s = w1.s := foldl_handOut_s _ _
  refine (h2 ▸ h1 : FrameEdits w.s ((w.s.groups.members g).foldl handOut w1).s).trans ?_
  exact one (.finish _ _ _ _)

/-! ### The show reset -/

theorem showResetArbiter_edits (w : FrameWork) : FrameEdits w.s w.showResetArbiter.s :=
  setChannels_edits w _ (showResetOrder_kept _)

theorem takeResetReport_edits (w : FrameWork) : FrameEdits w.s w.takeResetReport.s :=
  takeLosses_edits { w with resetLosses := [] } _ _

theorem finishNow_fold {β : Type} (f : β → Ctx) (st : Status) (n : Nat) (l : List β) :
    ∀ s : State, FrameEdits s (l.foldl (fun acc x => acc.finishNow (f x) st n) s) := by
  induction l with
  | nil => intro s; exact .nil _
  | cons x l ih =>
    intro s
    exact (one (.finish s { ctx := f x, dropped := false } st n)).trans (ih _)

theorem finishNow_fold_store {β : Type} (f : β → Ctx) (st : Status) (n : Nat) (l : List β) :
    ∀ s : State, (l.foldl (fun acc x => acc.finishNow (f x) st n) s).store = s.store := by
  induction l with
  | nil => intro s; rfl
  | cons x l ih => intro s; rw [List.foldl_cons, ih]; rfl

theorem showResetStore_edits (w : FrameWork) : FrameEdits w.s w.showResetStore.s := by
  refine (finishNow_fold id .cancelled 0 (sceneRequests w.s.store.loads) w.s).trans (one (.store _ _ ?_))
  exact ⟨fun _ => ⟨rfl, fun _ => rfl⟩, ⟨_, (congrArg (List.map Load.fixed) List.drop_length).symm⟩,
    List.Sublist.refl _, rfl⟩

theorem showResetEngine_edits (w : FrameWork) : FrameEdits w.s w.showResetEngine.s :=
  fold (fun acc k => acc.freeSlot k .showReset) (fun _ _ => freeSlot_edits _ _ _) w.s.engine.inUseSlots w

theorem cancelOwed_edits (w : FrameWork) (l : List Owed) : FrameEdits w.s (w.cancelOwed l).s :=
  fold (fun acc o => acc.finish o .cancelled 0) (fun _ _ => finish_edits _ _ _ _) l w

theorem cancelPlayback_edits (w : FrameWork) (p : Nat) : FrameEdits w.s (w.cancelPlayback p).s := by
  unfold cancelPlayback
  dsimp only
  have h := cancelCues_edits w ((w.playback p).pending ++ (w.playback p).inFlight)
  split
  · exact h.trans (finish_edits _ _ _ _)
  · exact h

theorem showResetController_edits (w : FrameWork) : FrameEdits w.s w.showResetController.s := by
  unfold showResetController
  dsimp only
  refine (((((cancelOwed_edits w _).trans (cancelOwed_edits _ _)).trans
    (fold cancelPlayback (fun _ _ => cancelPlayback_edits _ _) (List.range Config.playbacks) _)).trans
    (fold (fun acc (x : Nat × ReleaseRecord) => acc.finish x.2.owed .cancelled x.2.moved)
      (fun _ _ => finish_edits _ _ _ _) w.superseded _)).trans
    (one (.controller _ _ ⟨fun _ => rfl, List.filter_sublist, rfl, fun p => ?_⟩)))
  exact ⟨Nat.zero_le _, Nat.zero_le _⟩

theorem showResetBands_edits (w : FrameWork) : FrameEdits w.s w.showResetBands.s := by
  unfold showResetBands
  exact (cancelOwed_edits w _).trans (one (.bands _ _ ⟨fun _ => rfl, List.filter_sublist⟩))

theorem cancelHeld_edits (s : State) (l : List HeldRequest) : FrameEdits s (s.cancelHeld l) :=
  finishNow_fold HeldRequest.ctx .cancelled 0 l s

theorem showResetGroups_edits (w : FrameWork) : FrameEdits w.s w.showResetGroups.s := by
  unfold showResetGroups
  dsimp only
  let w1 : FrameWork := { w with s := w.s.cancelHeld w.s.groups.hold }
  have h1 : FrameEdits w.s w1.s := cancelHeld_edits _ _
  exact (h1.trans (cancelOwed_edits w1 _)).trans (one (.groups _ _ ⟨List.nil_sublist _, List.filter_sublist⟩))

/-! ### Load data -/

/-- An answer of the host is a path of edits. -/
theorem loadAnswer_edits (s : State) (a : LoadAnswer) : FrameEdits s (s.loadAnswer s.clock.frame a) := by
  obtain ⟨st, records, hs, hb, e⟩ := loadAnswer_answered s s.clock.frame a
  have h : FrameEdits s { s with store := st, bands := { s.bands with records := records } } :=
    (one (.store s st hs.kept)).trans (one (.bands _ { s.bands with records := records } ⟨hb, List.Sublist.refl _⟩))
  rcases e with e | ⟨c, x, n, e⟩
  · rw [e]; exact h
  · rw [e]; exact h.trans (one (.finish _ { ctx := c, dropped := false } x n))

theorem takeAnswer_edits (w : FrameWork) (a : LoadAnswer) : FrameEdits w.s (w.takeAnswer a).s := by
  unfold takeAnswer
  split
  · exact .nil _
  · exact loadAnswer_edits w.s a

/-! ### Requests that join a group -/

theorem takeArrival_edits (w : FrameWork) (a : IntakeArrival) : FrameEdits w.s (w.takeArrival a).s := by
  unfold takeArrival
  split
  · exact .nil _
  · exact one (.arrival _ _)

/-! ### The pieces of work, and the frame start -/

theorem configure_kept (u : StripPorts) (k : Nat) (c : PortConfig) :
    PortsKept u (u.setPort k ((u.port k).configure c)) :=
  ⟨Table.set_wf _ _ _ _, List.Sublist.refl _, fun j => by
    rw [StripPorts.port_setPort]; split
    · subst_vars; exact ⟨rfl, rfl⟩
    · exact ⟨rfl, rfl⟩⟩

/-- Each piece of work is a path of edits. -/
theorem take_edits (w : FrameWork) (i : WorkItem) : FrameEdits w.s (w.take i).s := by
  cases i with
  | commit =>
    show FrameEdits w.s w.doCommit.s
    unfold doCommit
    split
    · rename_i e rest h
      let w1 : FrameWork := { w with s := { w.s with groups := { w.s.groups with commits := rest } } }
      have h1 : FrameEdits w.s w1.s :=
        one (.groups _ _ ⟨List.Sublist.refl _, (takeStaged_sublist _ _ _ _ h).1⟩)
      exact h1.trans (applyCommit_edits w1 e.owed e.request)
    · exact .nil _
  | composerReleased =>
    show FrameEdits w.s w.doComposerReleased.s
    unfold doComposerReleased
    split
    · rename_i o q rest _
      exact takeReleasedCompose_edits { w with toComposer := rest } o q
    · exact .nil _
  | composerStaged => exact doComposerStaged_edits w
  | portStaged =>
    show FrameEdits w.s w.doPortStaged.s
    unfold doPortStaged
    split
    · rename_i e rest h
      exact (one (.ports w.s { w.s.ports with staged := rest }
        ⟨id, (takeStaged_sublist _ _ _ _ h).1, fun _ => ⟨rfl, rfl⟩⟩)).trans
        ((one (.ports _ _ (configure_kept _ e.request.port e.request.config))).trans (one (.finish _ _ _ _)))
    · exact .nil _
  | slotMustEnd k => exact endSlot_edits { w with mustEnd := w.mustEnd.erase k } k
  | slotEnd k => exact endSlot_edits w k
  | endNotice =>
    show FrameEdits w.s w.doEndNotice.s
    unfold doEndNotice
    split
    · rename_i n rest _
      exact takeNotice_edits { w with notices := rest } n
    · exact .nil _
  | loadEndNotice =>
    show FrameEdits w.s w.doLoadEnd.s
    unfold doLoadEnd
    split
    · exact one (.store _ _ ⟨fun h => ⟨h, id⟩, ⟨0, rfl⟩, List.eraseP_sublist.filter _, rfl⟩)
    · exact .nil _
  | playbackReleased =>
    show FrameEdits w.s w.doPlaybackReleased.s
    unfold doPlaybackReleased
    split
    · rename_i o q rest _
      exact takeReleased_edits { w with toController := rest } o q
    · exact .nil _
  | controllerStep =>
    show FrameEdits w.s w.doControllerStep.s
    unfold doControllerStep
    split
    · rename_i step rest _
      exact controllerStep_edits { w with atOnce := rest } step
    · split
      · rename_i step rest _
        exact controllerStep_edits { w with agenda := rest } step
      · exact .nil _
  | bandReleased =>
    show FrameEdits w.s w.doBandReleased.s
    unfold doBandReleased
    split
    · rename_i o q rest _
      exact takeReleasedBand_edits { w with toBands := rest } o q
    · exact .nil _
  | bandStaged =>
    show FrameEdits w.s w.doBandStaged.s
    unfold doBandStaged
    split
    · rename_i e rest h
      let w1 : FrameWork := { w with s := { w.s with bands := { w.s.bands with staged := rest } } }
      have h1 : FrameEdits w.s w1.s := one (.bands _ _ ⟨id, (takeStaged_sublist _ _ _ _ h).1⟩)
      exact h1.trans (applyBand_edits w1 e.owed e.request)
    · exact .nil _
  | resetArbiter => exact showResetArbiter_edits w
  | resetStore => exact showResetStore_edits w
  | resetEngine => exact showResetEngine_edits w
  | resetController => exact showResetController_edits w
  | resetBands => exact showResetBands_edits w
  | resetGroups => exact showResetGroups_edits w
  | resetReport => exact takeResetReport_edits w
  | loadAnswer =>
    show FrameEdits w.s w.doAnswer.s
    unfold doAnswer
    split
    · rename_i a rest _
      exact takeAnswer_edits { w with answers := rest } a
    · exact .nil _
  | intakeArrival =>
    show FrameEdits w.s w.doArrival.s
    unfold doArrival
    split
    · rename_i a rest _
      exact takeArrival_edits { w with intake := rest } a
    · exact .nil _

/-- The whole work of a frame start is a path of edits. -/
theorem run_edits (fuel : Nat) : ∀ (order : List Nat) (w : FrameWork), FrameEdits w.s (run fuel order w).s := by
  induction fuel with
  | zero => intro order w; exact .nil _
  | succ fuel ih =>
    intro order w
    unfold run
    split
    · exact (take_edits _ _).trans (ih _ _)
    · exact .nil _

end FrameWork

/-- FRAME_START, said once: the frame number rises by one, the heads of the pending lists are set, and a path of edits
follows. -/
theorem frameStart_edits (s : State) (course : FrameCourse) :
    FrameEdits
      { s with
        clock := { s.clock with frame := s.clock.frame + 1 }
        controller := s.controller.setHeads (s.clock.frame + 1) (s.clock.periodOf (s.clock.frame + 1)) }
      (s.frameStart course) :=
  FrameWork.run_edits _ _ { s.beginFrame (s.clock.frame + 1) with
    answers := course.answers, intake := course.intake }

end Sys2Proof.Machine
end

