-- ==== Sys2Proof/Laws/FrameMeasure.lean ====
section
/-! SUPPORT. A frame start ends: every piece of work lowers `FrameWork.left`, so that `FrameWork.run` with that many
pieces ends with nothing that may be taken; and nothing that may be taken means nothing left to do. -/

namespace Sys2Proof.Machine

namespace FrameWork

/-- The tables that the measure counts over are canonical. -/
def Sound (w : FrameWork) : Prop :=
  w.s.engine.slots.wf FadeSlot.atReset = true ∧ w.s.controller.playbacks.wf Playback.atReset = true

/-- What the blocks that take the show reset remember of it, and what the Band Unit waits for. -/
def marks (w : FrameWork) : List Bool × Option Owed :=
  ([w.resetSent, w.resetArbiter, w.resetStore, w.resetEngine, w.resetController, w.resetBands, w.resetGroups],
   w.bandWaits)

/-- The steps that the controller does at once (R58, R61, R62). -/
def Quick (c : ControllerStep) : Prop := (∃ p id, c = .fadeStart p id) ∨ ∃ p, c = .tryHead p

/-- What an operation inside one piece of work does to the measure, `d` being how much it may add to what is in hand,
and to what the controller and the Transition Engine wait for. -/
structure Eases (n m : Nat) (d : Int) (w v : FrameWork) : Prop where
  sound : v.Sound
  cues : v.cues ≤ w.cues
  slots : v.openSlots + v.busySlots ≤ w.openSlots + w.busySlots
  inHand : (v.inHand n : Int) ≤ w.inHand n + d
  toTake : v.toTake n m ≤ w.toTake n m
  frame : v.frame = w.frame
  marks : v.marks = w.marks
  staged : v.s.controller.staged = w.s.controller.staged ∧ v.s.bands.staged = w.s.bands.staged
  waits : v.engineWaits = true → w.engineWaits = true ∨ (w.resetArbiter = true ∧ w.resetEngine = false)
  idle : w.resetEngine = true → w.busySlots = 0 → w.mustEnd = [] → v.busySlots = 0 ∧ v.mustEnd = []
  agenda : ∃ l, v.agenda = l ++ w.agenda ∧
    ∀ o, .awaitReset o ∈ l → w.resetArbiter = true ∨ w.resetEngine = true
  atOnce : ∃ l, v.atOnce = w.atOnce ++ l ∧ ∀ c ∈ l, Quick c

namespace Eases

variable {n m : Nat} {d e : Int} {w v u : FrameWork}

theorem refl (h : w.Sound) : Eases n m 0 w w :=
  ⟨h, Nat.le_refl _, Nat.le_refl _, by omega, Nat.le_refl _, rfl, rfl, ⟨rfl, rfl⟩, .inl, fun _ b c => ⟨b, c⟩,
    ⟨[], rfl, by simp⟩, ⟨[], by simp, by simp⟩⟩

theorem resetArbiter (h : Eases n m d w v) : v.resetArbiter = w.resetArbiter := by
  have := h.marks; simp only [FrameWork.marks, Prod.mk.injEq, List.cons.injEq] at this; exact this.1.2.1

theorem resetEngine (h : Eases n m d w v) : v.resetEngine = w.resetEngine := by
  have := h.marks; simp only [FrameWork.marks, Prod.mk.injEq, List.cons.injEq] at this; exact this.1.2.2.2.1

theorem trans (h : Eases n m d w v) (h' : Eases n m e v u) : Eases n m (d + e) w u where
  sound := h'.sound
  cues := Nat.le_trans h'.cues h.cues
  slots := Nat.le_trans h'.slots h.slots
  inHand := by have := h.inHand; have := h'.inHand; omega
  toTake := Nat.le_trans h'.toTake h.toTake
  frame := h'.frame.trans h.frame
  marks := h'.marks.trans h.marks
  staged := ⟨h'.staged.1.trans h.staged.1, h'.staged.2.trans h.staged.2⟩
  waits := fun hu => by
    rcases h'.waits hu with hv | hv
    · exact h.waits hv
    · rw [h.resetArbiter, h.resetEngine] at hv; exact .inr hv
  idle := fun a b c => by
    obtain ⟨b', c'⟩ := h.idle a b c
    exact h'.idle (h.resetEngine.trans a) b' c'
  agenda := by
    obtain ⟨l, hl, hn⟩ := h.agenda
    obtain ⟨l', hl', hn'⟩ := h'.agenda
    refine ⟨l' ++ l, by rw [hl', hl, List.append_assoc], fun o ho => ?_⟩
    rcases List.mem_append.mp ho with ho | ho
    · have := hn' o ho; rwa [h.resetArbiter, h.resetEngine] at this
    · exact hn o ho
  atOnce := by
    obtain ⟨l, hl, hn⟩ := h.atOnce
    obtain ⟨l', hl', hn'⟩ := h'.atOnce
    exact ⟨l ++ l', by rw [hl', hl, List.append_assoc], fun c hc => by
      rcases List.mem_append.mp hc with hc | hc
      · exact hn c hc
      · exact hn' c hc⟩

/-- A looser bound. -/
theorem weaken (h : Eases n m d w v) (hd : d ≤ e) : Eases n m e w v :=
  { h with inHand := by have := h.inHand; omega }

/-- Two operations of which neither adds anything. -/
theorem andThen (h : Eases n m 0 w v) (h' : Eases n m 0 v u) : Eases n m 0 w u := h.trans h'

/-- An operation that leaves all that is counted. -/
theorem still (h : w.Sound) (hw : v = { w with s := v.s, bandLoads := v.bandLoads, superseded := v.superseded })
    (he : v.s.engine = w.s.engine) (hc : v.s.controller = w.s.controller)
    (hk : v.s.clock.frame = w.s.clock.frame ∧ v.s.clock.staged = w.s.clock.staged)
    (hn : v.s.store.notices = w.s.store.notices) (hb : v.s.bands.staged = w.s.bands.staged)
    (hp : v.s.ports.staged = w.s.ports.staged) (hg : v.s.groups = w.s.groups) : Eases n m 0 w v := by
  generalize v.s = s at *
  generalize v.bandLoads = b at *
  generalize v.superseded = x at *
  subst hw
  have hf : FrameWork.frame { w with s := s, bandLoads := b, superseded := x } = w.frame := hk.1
  refine ⟨?_, ?_, ?_, ?_, ?_, hf, rfl, ⟨congrArg _ hc, hb⟩, .inl, fun _ a c => ⟨?_, c⟩, ⟨[], rfl, by simp⟩,
    ⟨[], by simp, by simp⟩⟩
  · unfold Sound; dsimp only; rw [he, hc]; exact h
  · unfold FrameWork.cues; dsimp only; rw [hc] <;> exact Nat.le_refl _
  · unfold openSlots busySlots; rw [hf]; dsimp only; rw [he] <;> exact Nat.le_refl _
  · unfold FrameWork.inHand openSlots busySlots pendingCues; rw [hf]; dsimp only; rw [he, hc]; omega
  · unfold FrameWork.toTake; rw [hf]; dsimp only; rw [hc, hb, hp, hg, hn, hk.2] <;> exact Nat.le_refl _
  · unfold busySlots; dsimp only; rw [he]; exact a

/-- A chain of operations of which none adds anything. -/
theorem fold {β : Type} (f : FrameWork → β → FrameWork)
    (hf : ∀ w b, w.Sound → Eases n m 0 w (f w b)) (l : List β) :
    ∀ w : FrameWork, w.Sound → Eases n m 0 w (l.foldl f w) := by
  induction l with
  | nil => intro w h; exact .refl h
  | cons b l ih => intro w h; exact (hf w b h).andThen (ih _ (hf w b h).sound)

end Eases

section
variable {n m : Nat} {w : FrameWork} (h : w.Sound)
include h

/-! ## The small updates -/

theorem finish_eases (o : Owed) (st : Status) (k : Nat) : Eases n m 0 w (w.finish o st k) :=
  .still h rfl rfl rfl ⟨rfl, rfl⟩ rfl rfl rfl rfl

theorem setChannels_eases (t : Table Channel) : Eases n m 0 w (w.setChannels t) :=
  .still h rfl rfl rfl ⟨rfl, rfl⟩ rfl rfl rfl rfl

theorem reportCue_eases (c : Cue) (st : Status) : Eases n m 0 w (w.reportCue c st) := by
  unfold reportCue; split
  · exact finish_eases h _ _ _
  · exact .refl h

theorem doFirst_eases (l : List ControllerStep)
    (hl : ∀ o, .awaitReset o ∈ l → w.resetArbiter = true ∨ w.resetEngine = true) :
    Eases n m ((l.map (stepWeight n)).sum : Nat) w (w.doFirst l) := by
  refine ⟨h, Nat.le_refl _, Nat.le_refl _, ?_, Nat.le_refl _, rfl, rfl, ⟨rfl, rfl⟩, .inl, fun _ a b => ⟨a, b⟩,
    ⟨l, rfl, hl⟩, ⟨[], by simp [doFirst], by simp⟩⟩
  have : (w.doFirst l).inHand n = w.inHand n + (l.map (stepWeight n)).sum := by
    show 3 * w.pendingCues + 3 * w.openSlots + 2 * w.busySlots + w.notices.length + w.mustEnd.length +
      (!w.engineWaits).toNat + (w.atOnce.map (stepWeight n)).sum + ((l ++ w.agenda).map (stepWeight n)).sum = _
    unfold inHand
    rw [List.map_append, List.sum_append]; omega
  omega

theorem doAtOnce_eases (l : List ControllerStep) (hl : ∀ c ∈ l, Quick c) :
    Eases n m ((l.map (stepWeight n)).sum : Nat) w (w.doAtOnce l) := by
  refine ⟨h, Nat.le_refl _, Nat.le_refl _, ?_, Nat.le_refl _, rfl, rfl, ⟨rfl, rfl⟩, .inl, fun _ a b => ⟨a, b⟩,
    ⟨[], rfl, by simp⟩, ⟨l, rfl, hl⟩⟩
  have : (w.doAtOnce l).inHand n = w.inHand n + (l.map (stepWeight n)).sum := by
    show 3 * w.pendingCues + 3 * w.openSlots + 2 * w.busySlots + w.notices.length + w.mustEnd.length +
      (!w.engineWaits).toNat + ((w.atOnce ++ l).map (stepWeight n)).sum + (w.agenda.map (stepWeight n)).sum = _
    unfold inHand
    rw [List.map_append, List.sum_append]; omega
  omega

theorem setPlayback_eases (p : Nat) (v : Playback)
    (hv : v.pending.length + v.inFlight.length ≤ (w.playback p).pending.length + (w.playback p).inFlight.length) :
    Eases n m (3 * (v.pending.length : Int) - 3 * ((w.playback p).pending.length : Int)) w (w.setPlayback p v) := by
  have h1 : (w.setPlayback p v).cues + cuesOf (w.playback p) = w.cues + cuesOf v :=
    Table.total_set cuesOf _ _ _ _ h.2 rfl
  have h2 : (w.setPlayback p v).pendingCues + pendingOf (w.playback p) = w.pendingCues + pendingOf v :=
    Table.total_set pendingOf _ _ _ _ h.2 rfl
  simp only [cuesOf, pendingOf] at h1 h2
  refine ⟨⟨h.1, Table.set_wf _ _ _ _ h.2⟩, by omega, Nat.le_refl _, ?_, Nat.le_refl _, rfl, rfl, ⟨rfl, rfl⟩, .inl,
    fun _ a b => ⟨a, b⟩, ⟨[], rfl, by simp⟩, ⟨[], by simp [setPlayback], by simp⟩⟩
  have : (w.setPlayback p v).inHand n + 3 * w.pendingCues = w.inHand n + 3 * (w.setPlayback p v).pendingCues := by
    show 3 * (w.setPlayback p v).pendingCues + 3 * w.openSlots + 2 * w.busySlots + w.notices.length +
      w.mustEnd.length + (!w.engineWaits).toNat + (w.atOnce.map (stepWeight n)).sum +
      (w.agenda.map (stepWeight n)).sum + _ = _
    unfold inHand; omega
  omega

/-- A playback whose lists do not grow. -/
theorem setPlayback_eases_le (p : Nat) (v : Playback) (hp : v.pending.length ≤ (w.playback p).pending.length)
    (hf : v.inFlight.length ≤ (w.playback p).inFlight.length) : Eases n m 0 w (w.setPlayback p v) :=
  (setPlayback_eases h p v (by omega)).weaken (by omega)

end

/-! ## Transition Engine -/

theorem countP_succ_le {p q : Nat → Bool} {k : Nat} (hpq : ∀ j, q j = true → p j = true) (hp : p k = true)
    (hq : q k = false) : (l : List Nat) → k ∈ l → l.countP q + 1 ≤ l.countP p
  | [], h => by cases h
  | j :: l, h => by
    rcases List.mem_cons.mp h with rfl | h
    · have := List.countP_mono_left (l := l) (fun x _ => hpq x)
      rw [List.countP_cons_of_pos hp, List.countP_cons_of_neg (by simp [hq])]; omega
    · have ih := countP_succ_le hpq hp hq l h
      rw [List.countP_cons, List.countP_cons]
      have hj := hpq j
      cases hq' : q j
      · simp only [Bool.false_eq_true, if_false]; omega
      · simp only [hj hq', if_true]; omega

theorem mayAllocate_setSlot (w : FrameWork) (k : Nat) (v : FadeSlot) (hv : ∀ a, v = .free a → w.frame < a) (j : Nat) :
    (w.setSlot k v).s.engine.mayAllocate w.frame j = (if j = k then false else w.s.engine.mayAllocate w.frame j) := by
  unfold TransitionEngine.mayAllocate
  show (match (w.s.engine.setSlot k v).slot j with
    | .free a => decide (a ≤ w.frame)
    | .inUse _ => false) = _
  rw [TransitionEngine.slot_setSlot]
  by_cases hj : j = k
  · simp only [hj, if_true]
    cases v with
    | free a => have := hv a rfl; simp only [decide_eq_false_iff_not]; omega
    | inUse r => rfl
  · simp only [hj, if_false] <;> rfl

theorem openSlots_setSlot (w : FrameWork) (k : Nat) (v : FadeSlot) (hv : ∀ a, v = .free a → w.frame < a) :
    (w.setSlot k v).openSlots ≤ w.openSlots ∧
      (k < Config.slots → w.s.engine.mayAllocate w.frame k = true → (w.setSlot k v).openSlots + 1 ≤ w.openSlots) := by
  have hm := mayAllocate_setSlot w k v hv
  have hle : ∀ j, (w.setSlot k v).s.engine.mayAllocate w.frame j = true → w.s.engine.mayAllocate w.frame j = true := by
    intro j hj
    rw [hm] at hj
    split at hj
    · cases hj
    · exact hj
  refine ⟨List.countP_mono_left (fun j _ => hle j), fun hk ha => ?_⟩
  exact countP_succ_le hle ha (by rw [hm]; simp) _ (List.mem_range.mpr hk)

section
variable {n m : Nat} {w : FrameWork} (h : w.Sound)
include h

theorem busySlots_setSlot (k : Nat) (v : FadeSlot) :
    (w.setSlot k v).busySlots + busyOf (w.s.engine.slot k) = w.busySlots + busyOf v :=
  Table.total_set busyOf _ _ _ _ h.1 rfl

/-- A slot is written. `c` of the open slots are used up. -/
theorem setSlot_eases (k : Nat) (v : FadeSlot) (c : Nat) (ho : (w.setSlot k v).openSlots + c ≤ w.openSlots)
    (hb : busyOf v ≤ busyOf (w.s.engine.slot k) + c)
    (hi : w.resetEngine = false ∨ busyOf v ≤ busyOf (w.s.engine.slot k)) :
    Eases n m (2 * (busyOf v : Int) - 2 * (busyOf (w.s.engine.slot k) : Int) - 3 * (c : Int)) w (w.setSlot k v) := by
  have h1 := busySlots_setSlot h k v
  refine ⟨⟨Table.set_wf _ _ _ _ h.1, h.2⟩, Nat.le_refl _, by omega, ?_, Nat.le_refl _, rfl, rfl, ⟨rfl, rfl⟩, .inl,
    fun a b e => ⟨?_, e⟩, ⟨[], rfl, by simp⟩, ⟨[], by simp [setSlot], by simp⟩⟩
  · have : (w.setSlot k v).inHand n + 3 * w.openSlots + 2 * w.busySlots =
        w.inHand n + 3 * (w.setSlot k v).openSlots + 2 * (w.setSlot k v).busySlots := by
      show 3 * w.pendingCues + 3 * (w.setSlot k v).openSlots + 2 * (w.setSlot k v).busySlots + w.notices.length +
        w.mustEnd.length + (!w.engineWaits).toNat + (w.atOnce.map (stepWeight n)).sum +
        (w.agenda.map (stepWeight n)).sum + _ + _ = _
      unfold inHand; omega
    omega
  · rcases hi with hi | hi
    · rw [hi] at a; cases a
    · omega

theorem sendNotice_eases (x : EndNotice) : Eases n m 1 w { w with notices := w.notices ++ [x] } := by
  refine ⟨h, Nat.le_refl _, Nat.le_refl _, ?_, Nat.le_refl _, rfl, rfl, ⟨rfl, rfl⟩, .inl, fun _ a b => ⟨a, b⟩,
    ⟨[], rfl, by simp⟩, ⟨[], by simp, by simp⟩⟩
  have : FrameWork.inHand n { w with notices := w.notices ++ [x] } = w.inHand n + 1 := by
    show 3 * w.pendingCues + 3 * w.openSlots + 2 * w.busySlots + (w.notices ++ [x]).length + w.mustEnd.length +
      (!w.engineWaits).toNat + (w.atOnce.map (stepWeight n)).sum + (w.agenda.map (stepWeight n)).sum = _
    unfold inHand; rw [List.length_append, List.length_singleton]; omega
  omega

theorem store_eases (t : SceneStore) (ht : t.notices = w.s.store.notices) :
    Eases n m 0 w { w with s := { w.s with store := t } } :=
  .still h rfl rfl rfl ⟨rfl, rfl⟩ ht rfl rfl rfl

/-- A slot that is IN_USE is freed. -/
theorem freeSlot_eases_busy (k : Nat) (r : FadeRun) (hr : w.s.engine.slot k = .inUse r) (why : EndReason) :
    Eases n m (-1) w (w.freeSlot k why) := by
  unfold freeSlot
  rw [hr]
  dsimp only
  have hb : busyOf (w.s.engine.slot k) = 1 := by rw [hr]; rfl
  have ho := (openSlots_setSlot w k (.free (w.frame + 1)) (by intro a e; cases e; omega)).1
  have h1 : Eases n m (-2) w (w.setSlot k (.free (w.frame + 1))) :=
    (setSlot_eases h k _ 0 ho (Nat.zero_le _) (.inr (Nat.zero_le _))).weaken (by rw [hb]; simp [busyOf])
  cases r.kind with
  | cue c scene =>
    have h2 : Eases n m 0 (w.setSlot k (.free (w.frame + 1))) _ :=
      store_eases h1.sound ((w.setSlot k (.free (w.frame + 1))).s.store.giveBack scene) rfl
    exact ((h1.trans h2).trans (sendNotice_eases h2.sound _)).weaken (by omega)
  | release => exact (h1.trans (sendNotice_eases h1.sound _)).weaken (by omega)

theorem freeSlot_eases (k : Nat) (why : EndReason) : Eases n m 0 w (w.freeSlot k why) := by
  cases hr : w.s.engine.slot k with
  | free a => unfold freeSlot; rw [hr]; exact .refl h
  | inUse r => exact (freeSlot_eases_busy h k r hr why).weaken (by omega)

theorem loseChannels_eases (k c : Nat) (why : EndReason) : Eases n m 0 w (w.loseChannels k c why) := by
  unfold loseChannels
  split
  · exact .refl h
  · rename_i r hr
    split
    · exact freeSlot_eases h _ _
    · have hb : busyOf (w.s.engine.slot k) = 1 := by rw [hr]; rfl
      exact (setSlot_eases h k (.inUse { r with count := r.count - c }) 0
        (openSlots_setSlot w k _ (by intro a e; cases e)).1 (by rw [hb]; exact Nat.le_refl _)
        (.inr (by rw [hb]; exact Nat.le_refl _))).weaken (by rw [hb]; simp [busyOf])

theorem takeLosses_eases (l : List (Nat × Nat)) (why : EndReason) : Eases n m 0 w (w.takeLosses l why) :=
  .fold (fun acc (x : Nat × Nat) => acc.loseChannels x.1 x.2 why) (fun _ _ hw => loseChannels_eases hw _ _ _) l w h

/-- The Transition Engine begins to wait for its show-reset notice. -/
theorem engineWaits_eases (ha : w.resetArbiter = true) (he : w.resetEngine = false) :
    Eases n m 0 w { w with engineWaits := true } := by
  refine ⟨h, Nat.le_refl _, Nat.le_refl _, ?_, Nat.le_refl _, rfl, rfl, ⟨rfl, rfl⟩, fun _ => .inr ⟨ha, he⟩,
    fun _ a b => ⟨a, b⟩, ⟨[], rfl, by simp⟩, ⟨[], by simp, by simp⟩⟩
  have : FrameWork.inHand n { w with engineWaits := true } ≤ w.inHand n := by
    show 3 * w.pendingCues + 3 * w.openSlots + 2 * w.busySlots + w.notices.length + w.mustEnd.length +
      0 + (w.atOnce.map (stepWeight n)).sum + (w.agenda.map (stepWeight n)).sum ≤ _
    unfold inHand; omega
  omega

/-- A slot that is IN_USE reaches its end. -/
theorem endSlot_eases_busy (k : Nat) (r : FadeRun) (hr : w.s.engine.slot k = .inUse r)
    (ha : w.resetArbiter = false) : Eases n m (-1) w (w.endSlot k) := by
  unfold endSlot
  rw [hr]
  simp only [ha, Bool.false_eq_true, if_false]
  have hc : ∀ t, Eases n m 0 w (w.setChannels t) := fun t => setChannels_eases h t
  have key : ∀ t, Eases n m (-1) w ((w.setChannels t).freeSlot k .ended) := fun t =>
    ((hc t).trans (freeSlot_eases_busy (hc t).sound k r hr .ended)).weaken (by decide)
  exact key _

theorem endSlot_eases (k : Nat) (he : w.busySlots = 0 ∨ w.resetEngine = false) : Eases n m 0 w (w.endSlot k) := by
  cases hr : w.s.engine.slot k with
  | free a => unfold endSlot; rw [hr]; exact .refl h
  | inUse r =>
    by_cases ha : w.resetArbiter = true
    · have hb : w.busySlots ≠ 0 := by
        have := Table.get_le_total busyOf FadeSlot.atReset w.s.engine.slots k h.1 rfl
        have h1 : busyOf (w.s.engine.slots.get FadeSlot.atReset k) = 1 := by
          show busyOf (w.s.engine.slot k) = 1; rw [hr]; rfl
        rw [h1] at this; show w.s.engine.slots.total busyOf ≠ 0; omega
      unfold endSlot; rw [hr]; dsimp only; rw [if_pos ha]
      exact engineWaits_eases h ha (he.resolve_left hb)
    · exact (endSlot_eases_busy h k r hr (by simpa using ha)).weaken (by omega)

theorem lendFor_eases (k : SlotKind) : Eases n m 0 w (w.lendFor k) := by
  cases k with
  | cue c scene =>
    refine store_eases h _ ?_
    unfold SceneStore.lend; split <;> rfl
  | release => exact .refl h

theorem mustEnd_eases (l : List Nat) (he : w.resetEngine = true → w.busySlots = 0 → l = []) :
    Eases n m (l.length : Nat) w { w with mustEnd := w.mustEnd ++ l } := by
  refine ⟨h, Nat.le_refl _, Nat.le_refl _, ?_, Nat.le_refl _, rfl, rfl, ⟨rfl, rfl⟩, .inl, fun a b c => ⟨b, ?_⟩,
    ⟨[], rfl, by simp⟩, ⟨[], by simp, by simp⟩⟩
  · have : FrameWork.inHand n { w with mustEnd := w.mustEnd ++ l } = w.inHand n + l.length := by
      show 3 * w.pendingCues + 3 * w.openSlots + 2 * w.busySlots + w.notices.length + (w.mustEnd ++ l).length +
        (!w.engineWaits).toNat + (w.atOnce.map (stepWeight n)).sum + (w.agenda.map (stepWeight n)).sum = _
      unfold inHand; rw [List.length_append]; omega
    omega
  · rw [he a b, c]; rfl

/-- A slot request adds nothing: what it sets going, it pays for with an open slot. -/
theorem requestSlot_eases (q : SlotRequest) : Eases n m 0 w (w.requestSlot q).1 := by
  unfold requestSlot
  by_cases he : w.resetEngine = true
  · simp only [he, if_true]; exact .refl h
  have he : w.resetEngine = false := by simpa using he
  simp only [he, Bool.false_eq_true, if_false]
  cases hk : w.s.engine.lowestFree w.frame with
  | none => exact .refl h
  | some k =>
    have hmay := List.find?_some hk
    have hlt : k < Config.slots := List.mem_range.mp (List.mem_of_find?_eq_some hk)
    have hb : busyOf (w.s.engine.slot k) = 0 := by
      unfold TransitionEngine.mayAllocate at hmay
      cases hs : w.s.engine.slot k with
      | free a => rfl
      | inUse r => rw [hs] at hmay; cases hmay
    have alloc : ∀ {x : FrameWork}, x.Sound → x.s.engine = w.s.engine → x.frame = w.frame → x.resetEngine = false →
        ∀ v, (∀ a, v = .free a → x.frame < a) → busyOf v ≤ 1 → Eases n m (-1) x (x.setSlot k v) := by
      intro x hx hs hf hr v hv h1
      have ho := (openSlots_setSlot x k v hv).2 hlt (by rw [hs, hf]; exact hmay)
      have hbx : busyOf (x.s.engine.slot k) = 0 := by rw [hs]; exact hb
      exact (setSlot_eases hx k v 1 ho (by omega) (.inl hr)).weaken (by omega)
    dsimp only
    by_cases ha : w.resetArbiter = true
    · rw [if_pos ha]
      have h1 := alloc h rfl rfl he (.inUse (allocated q w.frame 0)) (by intro a e; cases e) (Nat.le_refl _)
      exact (h1.trans (engineWaits_eases h1.sound ha he)).weaken (by omega)
    · have ha : w.resetArbiter = false := by simpa using ha
      simp only [ha, Bool.false_eq_true, if_false]
      have hc := setChannels_eases (n := n) (m := m) h (batchOf w.s.arbiter.channels q k).1
      split
      · exact (hc.trans (alloc hc.sound rfl rfl he (.free (w.frame + 1))
          (by intro a e; cases e; exact Nat.lt_succ_self _) (Nat.zero_le _))).weaken (by omega)
      · have h1 := hc.trans (alloc hc.sound rfl rfl he
          (.inUse (allocated q w.frame (batchOf w.s.arbiter.channels q k).2.granted)) (by intro a e; cases e)
          (Nat.le_refl _))
        have h2 := h1.trans (lendFor_eases h1.sound q.kind)
        have h3 := h2.trans (takeLosses_eases h2.sound (batchOf w.s.arbiter.channels q k).2.lost
          (takeoverReason q.kind))
        dsimp only
        split
        · exact (h3.trans (mustEnd_eases h3.sound [k] (fun a => by rw [h3.resetEngine, he] at a; cases a))).weaken (by simp)
        · exact h3.weaken (by omega)

end

/-! ## Playback Controller -/

theorem requestSlot_silent (w : FrameWork) (q : SlotRequest) (h : (w.requestSlot q).2 = .silent) :
    w.resetArbiter = true := by
  unfold requestSlot at h
  split at h
  · cases h
  · split at h
    · cases h
    · split at h
      · assumption
      · dsimp only at h
        split at h <;> cases h

theorem requestSlot_refused (w : FrameWork) (q : SlotRequest) (h : (w.requestSlot q).2 = .refused) :
    w.resetEngine = true := by
  unfold requestSlot at h
  split at h
  · assumption
  · split at h
    · cases h
    · split at h
      · cases h
      · dsimp only at h
        split at h <;> cases h

section
variable {n m : Nat} {w : FrameWork} (h : w.Sound)
include h

theorem setCue_eases (p id : Nat) (g : Cue → Cue) : Eases n m 0 w (w.setCue p id g) :=
  setPlayback_eases_le h _ _ (Nat.le_refl _) (by simp)

/-- Triggering a head pays for what it sets going. -/
theorem triggerHead_eases (p : Nat) (hp : (w.playback p).pending ≠ []) : Eases n m (-2) w (w.triggerHead p) := by
  unfold triggerHead
  dsimp only
  split
  · contradiction
  · rename_i c rest hc
    have hl : (w.playback p).pending.length = rest.length + 1 := by rw [hc]; rfl
    have hr : ∀ f, (match rest with
        | [] => []
        | d :: more => becomeHead f d :: more).length = rest.length := by intro f; cases rest <;> rfl
    have h1 := setPlayback_eases (n := n) (m := m) h p
      { w.playback p with
        pending := match rest with
          | [] => []
          | d :: more => becomeHead w.frame d :: more
        inFlight := (w.playback p).inFlight ++ [w.triggered c], lastTrigger := .inFlight c.id }
      (by simp only [hr, hl, List.length_append, List.length_singleton]; omega)
    simp only [hr, hl] at h1
    refine (h1.trans (doAtOnce_eases h1.sound _ ?_)).weaken ?_
    · intro x hx
      split at hx
      · exact .inl ⟨p, c.id, by simpa using hx⟩
      · cases hx
    · split <;> simp [stepWeight] <;> omega

omit h in
theorem pending_of_headDue (p : Nat) (hd : w.headDue (w.playback p) = true) : (w.playback p).pending ≠ [] := by
  intro e; unfold headDue at hd; rw [e] at hd; cases hd

theorem tryHead_eases (p : Nat) : Eases n m 0 w (w.tryHead p) := by
  unfold tryHead
  split
  · have h1 := triggerHead_eases (n := n) (m := m) h p (pending_of_headDue p ‹_›)
    exact (h1.trans (doAtOnce_eases h1.sound _ (by simp [Quick]))).weaken (by simp [stepWeight])
  · exact .refl h

theorem endCue_eases (p id : Nat) (st : Status) : Eases n m 0 w (w.endCue p id st) := by
  unfold endCue
  split
  · exact .refl h
  · rename_i c _
    dsimp only
    have h1 : ∀ v : Playback, v.pending.length ≤ (w.playback p).pending.length →
        v.inFlight.length ≤ (w.playback p).inFlight.length →
        Eases n m 0 w (((w.setPlayback p v).reportCue { c with terminal := some st } st).tryHead p) := by
      intro v hp hf
      have a := setPlayback_eases_le (n := n) (m := m) h p v hp hf
      have b := a.andThen (reportCue_eases a.sound { c with terminal := some st } st)
      exact b.andThen (tryHead_eases b.sound p)
    refine h1 _ ?_ (List.length_filter_le _ _)
    dsimp only
    split
    · exact Nat.le_of_eq (followDue_length _ _ _)
    · exact Nat.le_refl _

theorem endRelease_eases (p k : Nat) (st : Status) : Eases n m 0 w (w.endRelease p k st) := by
  unfold endRelease
  dsimp only
  split
  · have a := setPlayback_eases_le (n := n) (m := m) h p
      { w.playback p with releaseSlot := none, releaseRecord := none } (Nat.le_refl _) (Nat.le_refl _)
    cases (w.playback p).releaseRecord with
    | some r => exact a.andThen (finish_eases a.sound _ _ _)
    | none => exact a
  · split
    · exact .still h rfl rfl rfl ⟨rfl, rfl⟩ rfl rfl rfl rfl
    · exact .refl h

theorem takeNotice_eases (x : EndNotice) : Eases n m 0 w (w.takeNotice x) := by
  unfold takeNotice
  split
  · exact endCue_eases h _ _ _
  · exact endRelease_eases h _ _ _

/-- Notices leave their list. -/
theorem dropNotices_eases (l : List EndNotice) (k : Nat) (hl : l.length + k = w.notices.length) :
    Eases n m (-(k : Int)) w { w with notices := l } := by
  refine ⟨h, Nat.le_refl _, Nat.le_refl _, ?_, Nat.le_refl _, rfl, rfl, ⟨rfl, rfl⟩, .inl, fun _ a b => ⟨a, b⟩,
    ⟨[], rfl, by simp⟩, ⟨[], by simp, by simp⟩⟩
  have : FrameWork.inHand n { w with notices := l } + k = w.inHand n := by
    show 3 * w.pendingCues + 3 * w.openSlots + 2 * w.busySlots + l.length + w.mustEnd.length +
      (!w.engineWaits).toNat + (w.atOnce.map (stepWeight n)).sum + (w.agenda.map (stepWeight n)).sum + k = _
    unfold inHand; omega
  omega

theorem takeNotices_eases : Eases n m 0 w w.takeNotices := by
  have h1 := dropNotices_eases (n := n) (m := m) h [] w.notices.length (by simp)
  exact (h1.trans (.fold takeNotice (fun _ _ hw => takeNotice_eases hw _) w.notices _ h1.sound)).weaken (by omega)

theorem startCue_eases (p : Nat) (c : Cue) (pairs : List (Nat × Level)) : Eases n m 0 w (w.startCue p c pairs) := by
  unfold startCue
  dsimp only
  have h0 := takeNotices_eases (n := n) (m := m) h
  have h1 := h0.andThen (requestSlot_eases h0.sound (cueRequest (w.takeNotices.playback p) p c pairs))
  have hs := requestSlot_silent w.takeNotices (cueRequest (w.takeNotices.playback p) p c pairs)
  generalize w.takeNotices.requestSlot (cueRequest (w.takeNotices.playback p) p c pairs) = r at h1 hs ⊢
  obtain ⟨w1, a⟩ := r
  cases a with
  | noSlot => exact h1.andThen (endCue_eases h1.sound _ _ _)
  | noChannels d =>
    have h2 := h1.andThen (setCue_eases h1.sound p c.id (fun x => { x with denied := d }))
    exact h2.andThen (endCue_eases h2.sound _ _ _)
  | started k g d => exact h1.andThen (setCue_eases h1.sound _ _ _)
  | refused => exact h1.andThen (setCue_eases h1.sound _ _ _)
  | silent =>
    have h2 := h1.andThen (setCue_eases h1.sound p c.id (fun d => { d with state := .delayed, due := none }))
    refine (h2.trans (doFirst_eases h2.sound _ (fun _ _ => .inl ?_))).weaken (by simp [stepWeight])
    exact h2.resetArbiter.trans (h0.resetArbiter.symm.trans (hs rfl))

theorem readScene_eases (p : Nat) (c : Cue) : Eases n m 0 w (w.readScene p c) := by
  unfold readScene
  split
  · exact startCue_eases h _ _ _
  · exact setCue_eases h _ _ _
  · exact endCue_eases h _ _ _

theorem fadeStart_eases (p id : Nat) : Eases n m 0 w (w.fadeStart p id) := by
  unfold fadeStart
  split
  · split
    · exact readScene_eases h _ _
    · exact .refl h
  · exact .refl h

theorem wakeCue_eases (p id : Nat) : Eases n m 0 w (w.wakeCue p id) := by
  unfold wakeCue
  split
  · split
    · exact readScene_eases h _ _
    · exact .refl h
  · exact .refl h

theorem applyGo_eases (p : Nat) (o : Owed) : Eases n m 0 w (w.applyGo p o) := by
  unfold applyGo
  dsimp only
  split
  · exact finish_eases h _ _ _
  · split
    · exact finish_eases h _ _ _
    · split
      · exact finish_eases h _ _ _
      · have h1 := triggerHead_eases (n := n) (m := m) h p ‹_›
        exact (h1.trans (doFirst_eases h1.sound _ (by simp))).weaken (by simp [stepWeight])

theorem goChain_eases (p k : Nat) (o : Owed) : Eases n m 0 w (w.goChain p k o) := by
  unfold goChain
  split
  · have h1 := triggerHead_eases (n := n) (m := m) h p (pending_of_headDue p ‹_›)
    exact (h1.trans (doFirst_eases h1.sound _ (by simp))).weaken (by simp [stepWeight])
  · exact finish_eases h _ _ _

/-- An order that changes the slots of a playback and frees none. -/
theorem mapPlayback_eases (p : Nat) (g : FadeRun → FadeRun) :
    Eases n m 0 w { w with s := { w.s with engine := w.s.engine.mapPlayback p g } } := by
  let v : FrameWork := { w with s := { w.s with engine := w.s.engine.mapPlayback p g } }
  have hs : v.Sound := ⟨Table.mapCells_wf _ _ _ h.1, h.2⟩
  have hb : v.busySlots = w.busySlots :=
    Table.total_mapCells busyOf _ _ _ rfl (fun _ x => by cases x <;> rfl)
  have ho : v.openSlots = w.openSlots := by
    have : v.s.engine.mayAllocate v.frame = w.s.engine.mayAllocate w.frame := by
      funext j
      unfold TransitionEngine.mayAllocate
      have hg : v.s.engine.slot j = match w.s.engine.slot j with
          | .inUse r => .inUse (if r.playback = p then g r else r)
          | .free a => .free a :=
        Table.get_mapCells _ _ _ _ rfl h.1
      rw [hg]
      cases w.s.engine.slot j <;> rfl
    unfold openSlots; rw [this]
  refine ⟨hs, Nat.le_refl _, ?_, ?_, Nat.le_refl _, rfl, rfl, ⟨rfl, rfl⟩, .inl, fun _ a b => ⟨hb.trans a, b⟩,
    ⟨[], rfl, by simp⟩, ⟨[], by simp, by simp⟩⟩
  · show v.openSlots + v.busySlots ≤ _
    omega
  · have : v.inHand n = w.inHand n := by
      show 3 * w.pendingCues + 3 * v.openSlots + 2 * v.busySlots + w.notices.length + w.mustEnd.length +
        (!w.engineWaits).toNat + (w.atOnce.map (stepWeight n)).sum + (w.agenda.map (stepWeight n)).sum = _
      rw [hb, ho]; rfl
    show (v.inHand n : Int) ≤ _
    omega

theorem applyPause_eases (p : Nat) (o : Owed) : Eases n m 0 w (w.applyPause p o) := by
  unfold applyPause
  dsimp only
  split
  · exact finish_eases h _ _ _
  · have h1 := setPlayback_eases_le (n := n) (m := m) h p { w.playback p with paused := some w.frame }
      (Nat.le_refl _) (Nat.le_refl _)
    have h2 := h1.andThen (mapPlayback_eases h1.sound p
      (fun r => if r.pausedAt = none then { r with pausedAt := some w.frame } else r))
    exact h2.andThen (finish_eases h2.sound o .ok 1)

omit h in
theorem keysWhere_le_busy (e : TransitionEngine) (f : FadeSlot → Bool) (hf : ∀ v, f v = true → busyOf v = 1) :
    (e.slots.keysWhere f).length ≤ e.slots.total busyOf := by
  unfold Table.keysWhere Table.total
  rw [List.length_map]
  generalize e.slots.cells = cells
  induction cells with
  | nil => exact Nat.zero_le _
  | cons c rest ih =>
    rw [List.filter_cons, List.map_cons, List.sum_cons]
    split
    · rw [hf _ ‹_›, List.length_cons]; omega
    · omega

/-- RESUME may bring as many slots to their end as are IN_USE. -/
theorem applyResume_eases (hm : w.openSlots + w.busySlots ≤ m) (p : Nat) (o : Owed) :
    Eases n m m w (w.applyResume p o) := by
  unfold applyResume
  dsimp only
  split
  · exact (finish_eases h _ _ _).weaken (by omega)
  · rename_i at_ _
    have hl := shiftPlayback_kept (w.frame - at_) (w.playback p)
    have hi : (shiftPlayback (w.frame - at_) (w.playback p)).inFlight.length ≤ (w.playback p).inFlight.length := by
      simp [shiftPlayback]
    have h1 := setPlayback_eases_le (n := n) (m := m) h p (shiftPlayback (w.frame - at_) (w.playback p)) hl.1 hi
    have h2 := h1.andThen (mapPlayback_eases h1.sound p
      (fun run => match run.pausedAt with
        | some f => { run with accumulatedPause := run.accumulatedPause + (w.frame - f), pausedAt := none }
        | none => run))
    have hk := keysWhere_le_busy (w.s.engine.resumeOrder p w.frame)
      (fun v => match v with
        | .inUse r => decide (r.playback = p) && r.endsAt w.frame
        | .free _ => false) (by intro v hv; cases v with
          | free a => cases hv
          | inUse r => rfl)
    have hb : (w.s.engine.resumeOrder p w.frame).slots.total busyOf = w.busySlots :=
      Table.total_mapCells busyOf _ _ _ rfl (fun _ x => by cases x <;> rfl)
    have hlen : ((w.s.engine.resumeOrder p w.frame).endingOf p w.frame).length ≤ w.busySlots := by
      rw [← hb]; exact hk
    have h3 := h2.trans (mustEnd_eases h2.sound ((w.s.engine.resumeOrder p w.frame).endingOf p w.frame)
      (fun _ hz => by
        have : w.busySlots = 0 := hb.symm.trans hz
        exact List.eq_nil_of_length_eq_zero (by omega)))
    exact (h3.trans (finish_eases h3.sound o .ok (w.frame - at_))).weaken (by omega)

theorem cancelCues_eases (l : List Cue) : Eases n m 0 w (w.cancelCues l) :=
  .fold (fun acc c => acc.reportCue c .cancelled) (fun _ _ hw => reportCue_eases hw _ _) l w h

theorem cancelWaiting_eases (p : Nat) : Eases n m 0 w (w.cancelWaiting p) :=
  .fold (fun acc (c : Cue) => acc.endCue p c.id .cancelled) (fun _ _ hw => endCue_eases hw _ _ _)
    ((w.playback p).inFlight.filter waiting) w h

theorem applyClear_eases (p : Nat) (o : Owed) : Eases n m 0 w (w.applyClear p o) := by
  unfold applyClear
  dsimp only
  have h1 := cancelCues_eases (n := n) (m := m) h (w.playback p).pending
  have h2 := h1.andThen (setPlayback_eases_le h1.sound p { w.playback p with pending := [] } (Nat.zero_le _)
    (by rw [cancelCues_playback] <;> exact Nat.le_refl _))
  have h3 := h2.andThen (cancelWaiting_eases h2.sound p)
  generalize FrameWork.cancelWaiting _ p = w3 at h3 ⊢
  split
  · rename_i ha
    exact (h3.trans (doFirst_eases h3.sound _ (fun _ _ => .inl (h3.resetArbiter.trans ha)))).weaken
      (by simp [stepWeight])
  · have h4 := h3.andThen (setChannels_eases h3.sound (clearOrder w3.s.arbiter.channels p).1)
    have h5 := h4.andThen (takeLosses_eases h4.sound (clearOrder w3.s.arbiter.channels p).2.lost .cleared)
    have h6 := h5.andThen (takeNotices_eases h5.sound)
    generalize FrameWork.takeNotices _ = w4 at h6 ⊢
    have h7 := h6.andThen (setPlayback_eases_le h6.sound p { w4.playback p with paused := none } (Nat.le_refl _)
      (Nat.le_refl _))
    exact h7.andThen (finish_eases h7.sound o .ok _)

theorem applyRelease_eases (p : Nat) (g : Option Nat) (o : Owed) : Eases n m 3 w (w.applyRelease p g o) := by
  have h1 := cancelWaiting_eases (n := n) (m := m) h p
  exact (h1.trans (doFirst_eases h1.sound _ (by simp))).weaken (by simp [stepWeight])

theorem releaseRead_eases (p : Nat) (g : Option Nat) (o : Owed) : Eases n m 2 w (w.releaseRead p g o) := by
  unfold releaseRead
  split
  · exact (finish_eases h _ _ _).weaken (by omega)
  · exact (doFirst_eases h _ (by simp)).weaken (by simp [stepWeight])

theorem recordRelease_eases (p k c : Nat) (o : Owed) : Eases n m 0 w (w.recordRelease p k c o) := by
  unfold recordRelease
  dsimp only
  have h1 := setPlayback_eases_le (n := n) (m := m) h p
    { w.playback p with releaseSlot := some k, releaseRecord := some { owed := o, moved := c } }
    (Nat.le_refl _) (Nat.le_refl _)
  split
  · exact h1.andThen (.still h1.sound rfl rfl rfl ⟨rfl, rfl⟩ rfl rfl rfl rfl)
  · exact h1

theorem releaseSlot_eases (p k : Nat) (o : Owed) : Eases n m 1 w (w.releaseSlot p k o) := by
  unfold releaseSlot
  dsimp only
  have h0 := takeNotices_eases (n := n) (m := m) h
  have h1 := h0.andThen (requestSlot_eases h0.sound (releaseRequest (w.takeNotices.playback p) p k))
  have hs := requestSlot_silent w.takeNotices (releaseRequest (w.takeNotices.playback p) p k)
  have hr := requestSlot_refused w.takeNotices (releaseRequest (w.takeNotices.playback p) p k)
  generalize w.takeNotices.requestSlot (releaseRequest (w.takeNotices.playback p) p k) = r at h1 hs hr ⊢
  obtain ⟨w1, a⟩ := r
  cases a with
  | noSlot => exact (h1.trans (doFirst_eases h1.sound _ (by simp))).weaken (by simp [stepWeight])
  | noChannels d => exact (h1.trans (finish_eases h1.sound _ _ _)).weaken (by omega)
  | started k g d => exact (h1.trans (recordRelease_eases h1.sound _ _ _ _)).weaken (by omega)
  | refused =>
    refine (h1.trans (doFirst_eases h1.sound _ (fun _ _ => .inr ?_))).weaken (by simp [stepWeight])
    exact h1.resetEngine.trans (h0.resetEngine.symm.trans (hr rfl))
  | silent =>
    refine (h1.trans (doFirst_eases h1.sound _ (fun _ _ => .inl ?_))).weaken (by simp [stepWeight])
    exact h1.resetArbiter.trans (h0.resetArbiter.symm.trans (hs rfl))

theorem applySnap_eases (p : Nat) (o : Owed) : Eases n m 0 w (w.applySnap p o) := by
  unfold applySnap
  split
  · exact (doFirst_eases h _ (fun _ _ => .inl ‹_›)).weaken (by simp [stepWeight])
  · have h1 := setChannels_eases (n := n) (m := m) h (snapOrder w.s.arbiter.channels p).1
    have h2 := h1.andThen (takeLosses_eases h1.sound (snapOrder w.s.arbiter.channels p).2.lost .snapped)
    exact h2.andThen (finish_eases h2.sound _ _ _)

theorem applyPlayback_eases (hm : w.openSlots + w.busySlots ≤ m) (o : Owed) (r : PlaybackRequest) :
    Eases n m (m + 3) w (w.applyPlayback o r) := by
  cases r with
  | go p => exact (applyGo_eases h _ _).weaken (by omega)
  | pause p => exact (applyPause_eases h _ _).weaken (by omega)
  | resume p => exact (applyResume_eases h hm _ _).weaken (by omega)
  | clear p => exact (applyClear_eases h _ _).weaken (by omega)
  | release p g => exact (applyRelease_eases h _ _ _).weaken (by omega)

/-- The sweep's visit gives rise to at most one step for each cue, and one for the head. -/
theorem sweep_eases (hn : w.cues ≤ n) (p : Nat) : Eases n m (n + 1) w (w.sweep p) := by
  unfold sweep
  dsimp only
  split
  · exact (Eases.refl h).weaken (by omega)
  · have hc : cuesOf (w.playback p) ≤ w.cues := Table.get_le_total cuesOf _ _ _ h.2 rfl
    have hf := List.length_filter_le (fun c => decide (c.state = .delayed ∧ c.due = some w.frame)) (w.playback p).inFlight
    have hw : ∀ l : List Cue, ((l.map (fun c => ControllerStep.fadeStart p c.id)).map (stepWeight n)).sum = l.length := by
      intro l; induction l with
      | nil => rfl
      | cons c l ih => simp only [List.map_cons, List.sum_cons, ih, stepWeight, List.length_cons]; omega
    refine (doFirst_eases h _ (by simp)).weaken ?_
    rw [List.map_append, List.sum_append, hw]
    simp only [cuesOf] at hc
    simp only [List.map_cons, List.map_nil, List.sum_cons, List.sum_nil, stepWeight]
    omega

/-- A load-end notice wakes at most as many cues as the playbacks hold. -/
theorem takeLoadEnd_eases (hn : w.cues ≤ n) (scene : Nat) : Eases n m n w (w.takeLoadEnd scene) := by
  unfold takeLoadEnd
  have hw : ∀ l : List Nat, (((l.flatMap (w.waitersOf scene))).map (stepWeight n)).sum ≤
      (l.map (fun p => cuesOf (w.playback p))).sum := by
    intro l
    induction l with
    | nil => exact Nat.le_refl _
    | cons p l ih =>
      have hp : ((w.waitersOf scene p).map (stepWeight n)).sum ≤ cuesOf (w.playback p) := by
        unfold waitersOf
        have hf := List.length_filter_le (fun c => decide (c.state = .waitScene ∧ c.scene = scene)) (w.playback p).inFlight
        have : ∀ l : List Cue, ((l.map (fun c => ControllerStep.wake p c.id)).map (stepWeight n)).sum = l.length := by
          intro l; induction l with
          | nil => rfl
          | cons c l ih => simp only [List.map_cons, List.sum_cons, ih, stepWeight, List.length_cons]; omega
        rw [this]; unfold cuesOf; omega
      simp only [List.flatMap_cons, List.map_append, List.sum_append, List.map_cons, List.sum_cons]
      omega
  refine (doFirst_eases h _ ?_).weaken ?_
  · intro o ho
    obtain ⟨p, -, hp⟩ := List.mem_flatMap.mp ho
    simp [waitersOf] at hp
  · have h1 := hw (List.range Config.playbacks)
    have h2 : ((List.range Config.playbacks).map (fun p => cuesOf (w.playback p))).sum ≤ w.cues :=
      Table.sum_get_le_total cuesOf _ rfl _ List.nodup_range _ h.2
    omega

end

/-! ## What may be taken, item by item -/

theorem mem_listed (b : Bool) (i j : WorkItem) : i ∈ listed b j ↔ b = true ∧ i = j := by
  unfold listed; split <;> simp_all

/-- When a piece of work may be taken. -/
def may (w : FrameWork) : WorkItem → Prop
  | .commit => (takeStaged w.frame w.s.groups.commits).isSome = true
  | .composerReleased => w.toComposer ≠ []
  | .composerStaged => (takeStaged w.frame w.s.clock.staged).isSome = true
  | .portStaged => (takeStaged w.frame w.s.ports.staged).isSome = true
  | .slotMustEnd k => w.engineWaits = false ∧ k ∈ w.mustEnd
  | .slotEnd k => w.engineReady = true ∧ w.resetEngine = false ∧ k ∈ w.s.engine.ending w.frame
  | .endNotice => w.notices ≠ [] ∧ w.handling = false
  | .loadEndNotice => w.nextLoadEnd.isSome = true ∧ w.handling = false
  | .playbackReleased => w.releasedReady = true
  | .controllerStep => ∃ step, w.nextStep = some step ∧ w.stepReady step = true
  | .bandReleased => w.toBands ≠ [] ∧ w.bandWaits = none
  | .bandStaged => (takeStaged w.frame w.s.bands.staged).isSome = true ∧ w.bandWaits = none
  | .resetArbiter => w.resetSent = true ∧ w.resetArbiter = false
  | .resetStore => w.resetSent = true ∧ w.resetStore = false
  | .resetEngine => w.resetSent = true ∧ w.resetEngine = false ∧ w.engineMayReset = true
  | .resetController => w.resetSent = true ∧ w.resetController = false ∧ w.handling = false
  | .resetBands => w.resetSent = true ∧ w.resetBands = false
  | .resetGroups => w.resetSent = true ∧ w.resetGroups = false
  | .resetReport => w.resetLosses ≠ [] ∧ w.engineReady = true
  | .loadAnswer => w.answers ≠ []
  | .intakeArrival => w.intake ≠ []

theorem mem_slotItems (w : FrameWork) (i : WorkItem) : i ∈ w.slotItems ↔
    ∃ k, (i = .slotMustEnd k ∧ w.engineWaits = false ∧ k ∈ w.mustEnd) ∨
      (i = .slotEnd k ∧ w.engineReady = true ∧ w.resetEngine = false ∧ k ∈ w.s.engine.ending w.frame) := by
  unfold slotItems engineReady
  cases hw : w.engineWaits with
  | true => simp
  | false =>
    cases hm : w.mustEnd with
    | nil => cases w.resetEngine <;> simp [eq_comm, and_comm]
    | cons x l =>
      simp only [List.isEmpty_cons, Bool.false_and, Bool.false_eq_true, if_false, List.mem_map, false_and, and_false,
        or_false, true_and]
      exact ⟨fun ⟨k, hk, e⟩ => ⟨k, e.symm, hk⟩, fun ⟨k, e, hk⟩ => ⟨k, hk, e.symm⟩⟩

theorem mem_controllerItems (w : FrameWork) (i : WorkItem) : i ∈ w.controllerItems ↔
    i = .controllerStep ∧ ∃ step, w.nextStep = some step ∧ w.stepReady step = true := by
  unfold controllerItems
  cases w.nextStep with
  | none => simp
  | some step => simp [mem_listed, and_comm]

theorem mem_enabled (w : FrameWork) (i : WorkItem) : i ∈ w.enabled ↔ w.may i := by
  unfold enabled
  simp only [List.mem_append, mem_listed, mem_slotItems, mem_controllerItems]
  cases i <;> simp [may, and_assoc]

/-! ## Every piece of work lowers the measure -/

/-- What is left has fallen by `c` at least. -/
structure Lowers (n m c : Nat) (w v : FrameWork) : Prop where
  sound : v.Sound
  cues : v.cues ≤ w.cues
  slots : v.openSlots + v.busySlots ≤ w.openSlots + w.busySlots
  less : v.inHand n + v.toTake n m + c ≤ w.inHand n + w.toTake n m

theorem Lowers.andEases {n m c k : Nat} {d : Int} {w x v : FrameWork} (h : Lowers n m c w x) (e : Eases n m d x v)
    (hd : d + k ≤ c) : Lowers n m k w v :=
  ⟨e.sound, Nat.le_trans e.cues h.cues, Nat.le_trans e.slots h.slots, by
    have := h.less; have := e.inHand; have := e.toTake; omega⟩

theorem Lowers.weaken {n m c k : Nat} {w v : FrameWork} (h : Lowers n m c w v) (hk : k ≤ c) : Lowers n m k w v :=
  { h with less := by have := h.less; omega }

theorem dueCount_takeStaged {ρ : Type} (f : Nat) : (l : List (Staged ρ)) → (e : Staged ρ) → (rest : List (Staged ρ)) →
    takeStaged f l = some (e, rest) → dueCount f l = dueCount f rest + 1
  | [], _, _, h => by cases h
  | x :: l, e, rest, h => by
    unfold takeStaged at h
    unfold dueCount
    split at h
    · cases h; rw [List.countP_cons_of_pos (by simpa using ‹_›)]
    · cases hr : takeStaged f l with
      | none => rw [hr] at h; cases h
      | some r =>
        rw [hr] at h
        obtain ⟨e', rest'⟩ := r
        cases h
        have ih := dueCount_takeStaged f l e' rest' hr
        unfold dueCount at ih
        rw [List.countP_cons_of_neg (by simpa using ‹_›), List.countP_cons_of_neg (by simpa using ‹_›), ih]

theorem dueCount_of_takeStaged_none {ρ : Type} (f : Nat) : (l : List (Staged ρ)) → takeStaged f l = none →
    dueCount f l = 0
  | [], _ => rfl
  | x :: l, h => by
    unfold takeStaged at h
    split at h
    · cases h
    · have hl : takeStaged f l = none := by simpa using h
      have ih := dueCount_of_takeStaged_none f l hl
      unfold dueCount at ih ⊢
      rw [List.countP_cons_of_neg (by simpa using ‹_›), ih]

theorem dueCount_otherEntries {ρ : Type} (f : Nat) (l : List (Staged ρ)) : dueCount f (otherEntries f l) = 0 := by
  unfold dueCount otherEntries
  rw [List.countP_eq_zero]
  intro e he
  simpa using (List.mem_filter.mp he).2

section
variable {n m : Nat} {w : FrameWork} (h : w.Sound)
include h

theorem popAgenda (step : ControllerStep) (rest : List ControllerStep) (hw : w.agenda = step :: rest) :
    Lowers n m (stepWeight n step) w { w with agenda := rest } := by
  refine ⟨h, Nat.le_refl _, Nat.le_refl _, ?_⟩
  simp only [inHand, toTake, openSlots, busySlots, pendingCues, frame, hw, List.map_cons, List.sum_cons]
  omega

theorem popAtOnce (step : ControllerStep) (rest : List ControllerStep) (hw : w.atOnce = step :: rest) :
    Lowers n m (stepWeight n step) w { w with atOnce := rest } := by
  refine ⟨h, Nat.le_refl _, Nat.le_refl _, ?_⟩
  simp only [inHand, toTake, openSlots, busySlots, pendingCues, frame, hw, List.map_cons, List.sum_cons]
  omega

theorem popController (e : Staged PlaybackRequest) (rest : List (Staged PlaybackRequest))
    (hw : takeStaged w.frame w.s.controller.staged = some (e, rest)) :
    Lowers n m (m + 4) w { w with s := { w.s with controller := { w.s.controller with staged := rest } } } := by
  refine ⟨h, Nat.le_refl _, Nat.le_refl _, ?_⟩
  have hd := dueCount_takeStaged _ _ _ _ hw
  simp only [inHand, toTake, openSlots, busySlots, pendingCues, frame] at hd ⊢
  rw [hd, Nat.mul_add]
  omega

theorem popBands (e : Staged BandRequest) (rest : List (Staged BandRequest))
    (hw : takeStaged w.frame w.s.bands.staged = some (e, rest)) :
    Lowers n m 1 w { w with s := { w.s with bands := { w.s.bands with staged := rest } } } := by
  refine ⟨h, Nat.le_refl _, Nat.le_refl _, ?_⟩
  have hd := dueCount_takeStaged _ _ _ _ hw
  simp only [inHand, toTake, openSlots, busySlots, pendingCues, frame] at hd ⊢
  omega

theorem popClock (e : Staged ClockRequest) (rest : List (Staged ClockRequest))
    (hw : takeStaged w.frame w.s.clock.staged = some (e, rest)) :
    Lowers n m 1 w { w with s := { w.s with clock := { w.s.clock with staged := rest } } } := by
  refine ⟨h, Nat.le_refl _, Nat.le_refl _, ?_⟩
  have hd := dueCount_takeStaged _ _ _ _ hw
  simp only [inHand, toTake, openSlots, busySlots, pendingCues, frame] at hd ⊢
  omega

theorem popPorts (e : Staged PortRequest) (rest : List (Staged PortRequest))
    (hw : takeStaged w.frame w.s.ports.staged = some (e, rest)) :
    Lowers n m 1 w { w with s := { w.s with ports := { w.s.ports with staged := rest } } } := by
  refine ⟨h, Nat.le_refl _, Nat.le_refl _, ?_⟩
  have hd := dueCount_takeStaged _ _ _ _ hw
  simp only [inHand, toTake, openSlots, busySlots, pendingCues, frame] at hd ⊢
  omega

theorem popCommits (e : Staged Nat) (rest : List (Staged Nat))
    (hw : takeStaged w.frame w.s.groups.commits = some (e, rest)) :
    Lowers n m 1 w { w with s := { w.s with groups := { w.s.groups with commits := rest } } } := by
  refine ⟨h, Nat.le_refl _, Nat.le_refl _, ?_⟩
  have hd := dueCount_takeStaged _ _ _ _ hw
  simp only [inHand, toTake, openSlots, busySlots, pendingCues, frame] at hd ⊢
  omega

theorem popToController (x : Owed × PlaybackRequest) (rest : List (Owed × PlaybackRequest))
    (hw : w.toController = x :: rest) : Lowers n m (m + n + 5) w { w with toController := rest } := by
  refine ⟨h, Nat.le_refl _, Nat.le_refl _, ?_⟩
  simp only [inHand, toTake, openSlots, busySlots, pendingCues, frame, hw, List.length_cons, Nat.mul_add]
  omega

theorem popToBands (x : Owed × BandRequest) (rest : List (Owed × BandRequest)) (hw : w.toBands = x :: rest) :
    Lowers n m 1 w { w with toBands := rest } := by
  refine ⟨h, Nat.le_refl _, Nat.le_refl _, ?_⟩
  simp only [inHand, toTake, openSlots, busySlots, pendingCues, frame, hw, List.length_cons]
  omega

theorem popToComposer (x : Owed × ComposeRequest) (rest : List (Owed × ComposeRequest))
    (hw : w.toComposer = x :: rest) : Lowers n m 1 w { w with toComposer := rest } := by
  refine ⟨h, Nat.le_refl _, Nat.le_refl _, ?_⟩
  simp only [inHand, toTake, openSlots, busySlots, pendingCues, frame, hw, List.length_cons]
  omega

theorem popMustEnd (k : Nat) (hk : k ∈ w.mustEnd) : Lowers n m 1 w { w with mustEnd := w.mustEnd.erase k } := by
  refine ⟨h, Nat.le_refl _, Nat.le_refl _, ?_⟩
  have hl := List.length_erase_of_mem hk
  have hp := List.length_pos_of_mem hk
  simp only [inHand, toTake, openSlots, busySlots, pendingCues, frame]
  omega

theorem popNotice (x : EndNotice) (rest : List EndNotice) (hw : w.notices = x :: rest) :
    Lowers n m 1 w { w with notices := rest } := by
  refine ⟨h, Nat.le_refl _, Nat.le_refl _, ?_⟩
  simp only [inHand, toTake, openSlots, busySlots, pendingCues, frame, hw, List.length_cons]
  omega

omit h in
theorem countP_eraseP {α : Type} (p : α → Bool) : (l : List α) → (x : α) → l.find? p = some x →
    (l.eraseP p).countP p + 1 = l.countP p
  | [], _, h => by cases h
  | a :: l, x, h => by
    cases ha : p a with
    | true => rw [List.eraseP_cons_of_pos ha, List.countP_cons_of_pos ha]
    | false =>
      rw [List.find?_cons_of_neg (by simp [ha])] at h
      rw [List.eraseP_cons_of_neg (by simp [ha]), List.countP_cons_of_neg (by simp [ha]),
        List.countP_cons_of_neg (by simp [ha]), countP_eraseP p l x h]

theorem popLoadEnd (x : LoadEndNotice) (hw : w.nextLoadEnd = some x) :
    Lowers n m (n + 1) w { w with s := { w.s with store := { w.s.store with
      notices := w.s.store.notices.eraseP (fun y => decide (y.frame = w.frame)) } } } := by
  refine ⟨h, Nat.le_refl _, Nat.le_refl _, ?_⟩
  have hc : dueLoadEnds w.frame (w.s.store.notices.eraseP (fun y => decide (y.frame = w.frame))) + 1 =
      dueLoadEnds w.frame w.s.store.notices := countP_eraseP _ w.s.store.notices x hw
  simp only [inHand, toTake, openSlots, busySlots, pendingCues, frame] at hc ⊢
  rw [← hc, Nat.mul_add]
  omega

/-! ### Load data -/

theorem takeAnswer_lowers (a : LoadAnswer) (rest : List LoadAnswer) (hw : w.answers = a :: rest) :
    Lowers n m 1 w (FrameWork.takeAnswer { w with answers := rest } a) := by
  obtain ⟨u, st, records, l, e, hn⟩ := takeAnswer_is { w with answers := rest } a
  rw [e]
  refine ⟨h, Nat.le_refl _, Nat.le_refl _, ?_⟩
  have hc : dueLoadEnds w.frame st.notices ≤ dueLoadEnds w.frame w.s.store.notices + 1 := by
    unfold dueLoadEnds
    rcases hn with hn | ⟨i, x, hn⟩
    · rw [hn]; exact Nat.le_succ _
    · rw [hn, List.countP_append, List.countP_singleton]
      exact Nat.add_le_add_left (by split <;> decide) _
  have hc' := Nat.mul_le_mul_left (n + 1) hc
  have hl : (n + 2) * w.answers.length = (n + 2) * rest.length + (n + 2) := by rw [hw]; rfl
  rw [Nat.mul_add] at hc'
  simp only [inHand, toTake, openSlots, busySlots, pendingCues, frame] at hc' hl ⊢
  omega

/-! ### Requests that join a group -/

theorem takeArrival_lowers (a : IntakeArrival) (rest : List IntakeArrival) (hw : w.intake = a :: rest) :
    Lowers n m 1 w (FrameWork.takeArrival { w with intake := rest } a) := by
  obtain ⟨u, l, e, -, hl⟩ := takeArrival_is { w with intake := rest } a
  rw [e]
  refine ⟨h, Nat.le_refl _, Nat.le_refl _, ?_⟩
  have hc : l.length ≤ w.s.groups.hold.length + 1 := by
    rcases hl with hl | ⟨x, hl, -⟩ <;> simp [hl]
  have hc' := Nat.mul_le_mul_left (m + n + 6) hc
  have hi : (m + n + 7) * w.intake.length = (m + n + 7) * rest.length + (m + n + 7) := by rw [hw]; rfl
  rw [Nat.mul_add] at hc'
  simp only [inHand, toTake, openSlots, busySlots, pendingCues, frame] at hc' hi ⊢
  omega

/-! ### The requests and the resets -/

theorem applyBand_measure (o : Owed) (r : BandRequest) :
    (w.resetArbiter = true ∧ w.applyBand o r = { w with bandWaits := some o }) ∨ Eases n m 0 w (w.applyBand o r) := by
  have setBand : ∀ {x : FrameWork}, x.Sound → ∀ b v,
      Eases n m 0 x { x with s := { x.s with bands := x.s.bands.setBand b v } } := fun hx _ _ =>
    .still hx rfl rfl rfl ⟨rfl, rfl⟩ rfl rfl rfl rfl
  cases r with
  | start b q =>
    show _ ∨ Eases n m 0 w (w.applyStartBand o b q)
    unfold applyStartBand
    dsimp only
    split
    · exact .inr (finish_eases h _ _ _)
    · exact .inr (.refl h)
    · split
      · exact .inl ⟨‹_›, by
          show w.applyStartBand o b q = _
          unfold applyStartBand
          simp only [*]; rfl⟩
      · rename_i d hd hb _
        have h1 := setChannels_eases (n := n) (m := m) h (bandBatch w.s.arbiter.channels b q
          (bandRange d (w.s.ports.port (w.s.bands.band b).portOf).applied).1
          (bandRange d (w.s.ports.port (w.s.bands.band b).portOf).applied).2).1
        have h2 := h1.andThen (takeLosses_eases h1.sound (bandBatch w.s.arbiter.channels b q
          (bandRange d (w.s.ports.port (w.s.bands.band b).portOf).applied).1
          (bandRange d (w.s.ports.port (w.s.bands.band b).portOf).applied).2).2.lost .lost)
        generalize FrameWork.takeLosses _ _ _ = w1 at h2 ⊢
        have h3 := fun v => h2.andThen (setBand h2.sound b v)
        exact .inr ((h3 _).andThen (finish_eases (h3 _).sound o .ok _))
  | stop b =>
    show _ ∨ Eases n m 0 w (w.applyStopBand o b)
    unfold applyStopBand
    split
    · split
      · exact .inl ⟨‹_›, by
          show w.applyStopBand o b = _
          unfold applyStopBand
          simp only [*]; rfl⟩
      · have h1 := setChannels_eases (n := n) (m := m) h (stopOrder w.s.arbiter.channels b).1
        have h3 := fun v => h1.andThen (setBand h1.sound b v)
        exact .inr ((h3 _).andThen (finish_eases (h3 _).sound o .ok _))
    · exact .inr (finish_eases h _ _ _)
    · exact .inr (finish_eases h _ _ _)
  | setRoll b st p off =>
    show _ ∨ Eases n m 0 w (w.applySetRoll o b st p off)
    unfold applySetRoll
    split
    · have h3 := fun v => (setBand h b v)
      exact .inr ((h3 _).andThen (finish_eases (h3 _).sound o .ok _))
    · exact .inr (finish_eases h _ _ _)

end

section
variable {n m : Nat} {w : FrameWork} (h : w.Sound)
include h

theorem takeReleased_lowers (hn : w.cues ≤ n) (hm : w.openSlots + w.busySlots ≤ m) (x : Owed × PlaybackRequest)
    (rest : List (Owed × PlaybackRequest)) (hw : w.toController = x :: rest) :
    Lowers n m 1 w (FrameWork.takeReleased { w with toController := rest } x.1 x.2) := by
  have h0 := popToController (n := n) (m := m) h x rest hw
  have hm0 : FrameWork.openSlots { w with toController := rest } +
    FrameWork.busySlots { w with toController := rest } ≤ m := hm
  unfold takeReleased
  split
  · exact h0.andEases (finish_eases h0.sound _ _ _) (by omega)
  · split
    · rename_i p _
      split
      · have h1 := applyResume_eases (n := n) h0.sound hm0 p x.1
        have h2 := h0.andEases (k := n + 4) h1 (by omega)
        exact h2.andEases (doFirst_eases h2.sound [.sweep p] (by simp)) (by simp [stepWeight] <;> omega)
      · exact h0.andEases (applyResume_eases h0.sound hm0 p x.1) (by omega)
    · exact h0.andEases (applyPlayback_eases h0.sound hm0 _ _) (by omega)

theorem takeReleasedBand_lowers (x : Owed × BandRequest) (rest : List (Owed × BandRequest))
    (hw : w.toBands = x :: rest) : Lowers n m 1 w (FrameWork.takeReleasedBand { w with toBands := rest } x.1 x.2) := by
  have h0 := popToBands (n := n) (m := m) h x rest hw
  unfold takeReleasedBand
  split
  · exact h0.andEases (finish_eases h0.sound _ _ _) (by omega)
  · rcases applyBand_measure (n := n) (m := m) h0.sound x.1 x.2 with ⟨_, e⟩ | e
    · rw [e]; exact ⟨h0.sound, h0.cues, h0.slots, h0.less⟩
    · exact h0.andEases e (by omega)

omit h in
theorem applyCompose_still {x : FrameWork} (hx : x.Sound) (o : Owed) (q : ComposeRequest) :
    Eases n m 0 x { x with s := x.s.applyCompose o q } := by
  cases q <;> exact .still hx rfl rfl rfl ⟨rfl, rfl⟩ rfl rfl rfl rfl

theorem takeReleasedCompose_lowers (x : Owed × ComposeRequest) (rest : List (Owed × ComposeRequest))
    (hw : w.toComposer = x :: rest) :
    Lowers n m 1 w (FrameWork.takeReleasedCompose { w with toComposer := rest } x.1 x.2) := by
  have h0 := popToComposer (n := n) (m := m) h x rest hw
  unfold takeReleasedCompose
  split
  · exact h0.andEases (finish_eases h0.sound _ _ _) (by omega)
  · exact h0.andEases (applyCompose_still h0.sound _ _) (by omega)

omit h in
/-- Applying a SHOW_RESET leaves what is counted; it sends the notices. -/
theorem applyClock_lowers {c : Nat} {x : FrameWork} (h0 : Lowers n m c w x) (o : Owed) (r : ClockRequest) :
    Lowers n m c w (x.applyClock o r) := by
  cases r with
  | compose q => exact h0.andEases (applyCompose_still h0.sound o q) (by omega)
  | setPeriod p => exact ⟨h0.sound, h0.cues, h0.slots, h0.less⟩
  | showReset => exact ⟨h0.sound, h0.cues, h0.slots, h0.less⟩

omit h in
/-- What handing out the requests of a group does, said once. -/
theorem foldl_handOut (l : List HeldRequest) : ∀ w : FrameWork, ∃ a b c,
    l.foldl handOut w = { w with toController := a, toBands := b, toComposer := c } ∧
    ∀ k, (k + 1) * a.length + b.length + c.length ≤
      (k + 1) * w.toController.length + w.toBands.length + w.toComposer.length + (k + 1) * l.length := by
  induction l with
  | nil => intro w; exact ⟨_, _, _, rfl, fun k => Nat.le_refl _⟩
  | cons x l ih =>
    intro w
    obtain ⟨a, b, c, he, hk⟩ := ih (w.handOut x)
    refine ⟨a, b, c, ?_, fun k => ?_⟩
    · rw [List.foldl_cons, he]; unfold handOut; cases x.request <;> rfl
    · refine Nat.le_trans (hk k) ?_
      unfold handOut
      cases x.request <;>
        simp only [List.length_append, List.length_cons, List.length_nil, Nat.mul_add, Nat.mul_one, Nat.zero_add] <;>
        omega

omit h in
theorem members_without (u : GroupUnit) (g : Nat) :
    (u.members g).length + (u.without g).length = u.hold.length := by
  unfold GroupUnit.members GroupUnit.without
  generalize u.hold = l
  induction l with
  | nil => rfl
  | cons x l ih =>
    rw [List.filter_cons, List.filter_cons]
    by_cases hx : x.group = g
    · simp only [hx, decide_true, not_true_eq_false, decide_false, Bool.false_eq_true, if_true, if_false,
        ne_eq, List.length_cons] at ih ⊢
      omega
    · simp only [hx, decide_true, not_false_eq_true, decide_false, Bool.false_eq_true, if_true, if_false,
        ne_eq, List.length_cons] at ih ⊢
      omega

omit h in
theorem applyCommit_lowers {c : Nat} {x : FrameWork} (h0 : Lowers n m c w x) (o : Owed) (g : Nat) :
    Lowers n m c w (x.applyCommit o g) := by
  unfold applyCommit
  dsimp only
  obtain ⟨a, b, d, he, hk⟩ := foldl_handOut (x.s.groups.members g)
    { x with s := { x.s with groups := { x.s.groups with hold := x.s.groups.without g } } }
  rw [he]
  have hl := members_without x.s.groups g
  have hk' := hk (m + n + 4)
  dsimp only at hk'
  rw [show m + n + 4 + 1 = m + n + 5 from rfl] at hk'
  have hmul : (m + n + 6) * x.s.groups.hold.length =
      (m + n + 5) * (x.s.groups.members g).length + (x.s.groups.members g).length +
        (m + n + 6) * (x.s.groups.without g).length := by
    rw [← hl, Nat.mul_add, show m + n + 6 = (m + n + 5) + 1 from rfl, Nat.add_mul, Nat.one_mul]
  refine Lowers.mk h0.sound h0.cues h0.slots (Nat.le_trans (Nat.add_le_add_right ?_ c) h0.less)
  refine Nat.add_le_add (Nat.le_refl (x.inHand n)) ?_
  simp only [toTake, frame, finish, State.finish]
  rw [hmul]
  omega

/-! ### The show reset -/

theorem cancelOwed_eases (l : List Owed) : Eases n m 0 w (w.cancelOwed l) :=
  .fold (fun acc o => acc.finish o .cancelled 0) (fun _ _ hw => finish_eases hw _ _ _) l w h

theorem cancelPlayback_eases (p : Nat) : Eases n m 0 w (w.cancelPlayback p) := by
  unfold cancelPlayback
  dsimp only
  have h1 := cancelCues_eases (n := n) (m := m) h ((w.playback p).pending ++ (w.playback p).inFlight)
  split
  · exact h1.andThen (finish_eases h1.sound _ _ _)
  · exact h1

theorem showResetArbiter_lowers (hw : w.resetArbiter = false) : Lowers n m 1 w w.showResetArbiter := by
  refine ⟨h, Nat.le_refl _, Nat.le_refl _, ?_⟩
  simp only [showResetArbiter, setChannels, inHand, toTake, openSlots, busySlots, pendingCues, frame, hw,
    Bool.not_false, Bool.not_true, Bool.toNat_true, Bool.toNat_false]
  have := Bool.toNat_le (!(showResetOrder w.s.arbiter.channels).2.lost.isEmpty)
  omega

theorem takeResetReport_lowers (hw : w.resetLosses ≠ []) : Lowers n m 1 w w.takeResetReport := by
  have h0 : Lowers n m 1 w { w with resetLosses := [] } := by
    refine ⟨h, Nat.le_refl _, Nat.le_refl _, ?_⟩
    have he : w.resetLosses.isEmpty = false := List.isEmpty_eq_false_iff.mpr hw
    simp only [inHand, toTake, openSlots, busySlots, pendingCues, frame, he, List.isEmpty_nil, Bool.not_false,
      Bool.not_true, Bool.toNat_true, Bool.toNat_false]
    omega
  exact h0.andEases (takeLosses_eases h0.sound w.resetLosses .showReset) (by omega)

omit h in
theorem finishNow_same (l : List Ctx) : ∀ s : State,
    ∃ u, l.foldl (fun acc c => acc.finishNow c .cancelled 0) s = { s with host := u } := by
  induction l with
  | nil => intro s; exact ⟨_, rfl⟩
  | cons c l ih => intro s; obtain ⟨u, e⟩ := ih (s.finishNow c .cancelled 0); exact ⟨u, e⟩

theorem showResetStore_lowers (hw : w.resetStore = false) : Lowers n m 1 w w.showResetStore := by
  obtain ⟨u, e⟩ := finishNow_same (sceneRequests w.s.store.loads) w.s
  have hs : w.s.showResetStore = { w.s with
      host := u, store := { w.s.store with scenes := Table.empty, freeBlocks := Config.blocks, loads := [] } } := by
    unfold State.showResetStore; dsimp only; rw [e]
  unfold showResetStore
  rw [hs]
  refine ⟨h, Nat.le_refl _, Nat.le_refl _, ?_⟩
  simp only [inHand, toTake, openSlots, busySlots, pendingCues, frame, hw, Bool.not_false, Bool.not_true, Bool.toNat_true, Bool.toNat_false]
  omega

theorem freeAll_eases (l : List Nat) : Eases n m 0 w (l.foldl (fun acc k => acc.freeSlot k .showReset) w) :=
  .fold (fun acc k => acc.freeSlot k .showReset) (fun _ _ hw => freeSlot_eases hw _ _) l w h

theorem showResetEngine_lowers (hw : w.resetEngine = false) : Lowers n m 1 w w.showResetEngine := by
  have h1 := freeAll_eases (n := n) (m := m) h w.s.engine.inUseSlots
  unfold showResetEngine
  have hr := h1.resetEngine.trans hw
  generalize w.s.engine.inUseSlots.foldl (fun acc k => acc.freeSlot k .showReset) w = v at h1 hr ⊢
  dsimp only
  refine ⟨h1.sound, h1.cues, h1.slots, ?_⟩
  have a := h1.inHand
  have b := h1.toTake
  have e : FrameWork.inHand n { v with resetEngine := true, engineWaits := false, mustEnd := [] } ≤ v.inHand n + 1 := by
    simp only [inHand, openSlots, busySlots, pendingCues, frame, Bool.not_false, Bool.toNat_true, List.length_nil]
    omega
  have f : FrameWork.toTake n m { v with resetEngine := true, engineWaits := false, mustEnd := [] } + 2 =
      v.toTake n m := by
    simp only [toTake, frame, hr, Bool.not_false, Bool.not_true, Bool.toNat_true, Bool.toNat_false]
    omega
  omega

omit h in
theorem dueCount_le {ρ : Type} (f : Nat) (l : List (Staged ρ)) : dueCount f (otherEntries f l) ≤ dueCount f l := by
  rw [dueCount_otherEntries]; exact Nat.zero_le _

/-- What the controller's show reset does, but for the completions. -/
theorem showResetController_is : ∃ v, Eases n m 0 w v ∧ w.showResetController =
    { v with
      agenda := [], atOnce := [], superseded := [], stagedOver := true, resetController := true
      s := { v.s with
        controller := { v.s.controller with
          playbacks := Table.empty, staged := otherEntries w.frame v.s.controller.staged } } } := by
  unfold showResetController
  dsimp only
  have h1 := cancelOwed_eases (n := n) (m := m) h (w.agenda.filterMap ControllerStep.owed)
  have h2 := h1.andThen (cancelOwed_eases h1.sound ((dueEntries w.frame w.s.controller.staged).map Staged.owed))
  have h3 := h2.andThen (.fold cancelPlayback (fun _ _ hw => cancelPlayback_eases hw _) (List.range Config.playbacks) _
    h2.sound)
  have h4 := h3.andThen (.fold (fun acc (x : Nat × ReleaseRecord) => acc.finish x.2.owed .cancelled x.2.moved)
    (fun _ _ hw => finish_eases hw _ _ _) w.superseded _ h3.sound)
  exact ⟨_, h4, rfl⟩

theorem showResetController_lowers (hw : w.resetController = false) : Lowers n m 1 w w.showResetController := by
  obtain ⟨v, h1, e⟩ := showResetController_is (n := n) (m := m) h
  rw [e]
  have hr : v.resetController = false := by
    have := h1.marks; simp only [marks, Prod.mk.injEq, List.cons.injEq] at this; exact this.1.2.2.2.2.1.trans hw
  refine ⟨⟨h1.sound.1, rfl⟩, Nat.zero_le _, h1.slots, ?_⟩
  have a := h1.inHand
  have b := h1.toTake
  have c : (m + 4) * dueCount v.frame (otherEntries w.frame v.s.controller.staged) ≤
      (m + 4) * dueCount v.frame v.s.controller.staged := by
    rw [h1.frame]; exact Nat.mul_le_mul_left _ (dueCount_le _ _)
  have z : (Table.empty : Table Playback).total pendingOf = 0 := rfl
  simp only [inHand, toTake, openSlots, busySlots, pendingCues, frame, hr, Bool.not_false, Bool.not_true, Bool.toNat_true, Bool.toNat_false,
    List.map_nil, List.sum_nil, z] at *
  omega

theorem showResetBands_lowers (hw : w.resetBands = false) : Lowers n m 1 w w.showResetBands := by
  unfold showResetBands
  dsimp only
  have h1 := cancelOwed_eases (n := n) (m := m) h (w.bandWaits.toList ++
    (dueEntries w.frame w.s.bands.staged).map Staged.owed ++ w.bandLoads.map (fun c => { ctx := c, dropped := false }))
  generalize w.cancelOwed _ = v at h1 ⊢
  have hr : v.resetBands = false := by
    have := h1.marks; simp only [marks, Prod.mk.injEq, List.cons.injEq] at this; exact this.1.2.2.2.2.2.1.trans hw
  refine ⟨h1.sound, h1.cues, h1.slots, ?_⟩
  have a := h1.inHand
  have b := h1.toTake
  have c : dueCount v.frame (otherEntries w.frame v.s.bands.staged) ≤ dueCount v.frame v.s.bands.staged := by
    rw [h1.frame]; exact dueCount_le _ _
  simp only [inHand, toTake, openSlots, busySlots, pendingCues, frame, hr, Bool.not_false, Bool.not_true, Bool.toNat_true, Bool.toNat_false] at *
  omega

theorem showResetGroups_lowers (hw : w.resetGroups = false) : Lowers n m 1 w w.showResetGroups := by
  obtain ⟨u, e⟩ := finishNow_same (w.s.groups.hold.map HeldRequest.ctx) w.s
  have hs : w.s.cancelHeld w.s.groups.hold = { w.s with host := u } := by
    rw [← e]; unfold State.cancelHeld; rw [List.foldl_map]
  unfold showResetGroups
  rw [hs]
  dsimp only
  have h0 : Eases n m 0 w { w with s := { w.s with host := u } } :=
    .still h rfl rfl rfl ⟨rfl, rfl⟩ rfl rfl rfl rfl
  have h1 := h0.andThen (cancelOwed_eases h0.sound ((dueEntries w.frame w.s.groups.commits).map Staged.owed))
  generalize FrameWork.cancelOwed _ _ = v at h1 ⊢
  have hr : v.resetGroups = false := by
    have := h1.marks; simp only [marks, Prod.mk.injEq, List.cons.injEq] at this; exact this.1.2.2.2.2.2.2.1.trans hw
  refine ⟨h1.sound, h1.cues, h1.slots, ?_⟩
  have a := h1.inHand
  have b := h1.toTake
  have c : dueCount v.frame (otherEntries w.frame v.s.groups.commits) ≤ dueCount v.frame v.s.groups.commits := by
    rw [h1.frame]; exact dueCount_le _ _
  simp only [inHand, toTake, openSlots, busySlots, pendingCues, frame, hr, Bool.not_false, Bool.not_true, Bool.toNat_true, Bool.toNat_false,
    List.length_nil, Nat.mul_zero] at *
  omega

end

/-! ## Every piece of work lowers the measure: the pieces -/

theorem Lowers.trans {n m c d : Nat} {w x v : FrameWork} (h : Lowers n m c w x) (h' : Lowers n m d x v) :
    Lowers n m (c + d) w v :=
  ⟨h'.sound, Nat.le_trans h'.cues h.cues, Nat.le_trans h'.slots h.slots, by
    have := h.less; have := h'.less; omega⟩

/-- What a step of the controller gives rise to weighs less than the step. -/
theorem controllerStep_lowers {n m : Nat} {w x : FrameWork} (step : ControllerStep)
    (h0 : Lowers n m (stepWeight n step) w x) (hn : x.cues ≤ n) (hm : x.openSlots + x.busySlots ≤ m)
    (hs : ∀ o, step ≠ .awaitReset o) : Lowers n m 1 w (x.controllerStep step) := by
  cases step with
  | stagedPass =>
    show Lowers n m 1 w x.stagedPass
    unfold stagedPass
    split
    · rename_i e rest he
      have h1 := h0.trans (popController h0.sound e rest he)
      have h2 := h1.andEases (k := m + 4) (doFirst_eases h1.sound [.stagedPass] (by simp))
        (by simp [stepWeight])
      exact h2.andEases (applyPlayback_eases h2.sound hm e.owed e.request) (by omega)
    · exact ⟨h0.sound, h0.cues, h0.slots, h0.less⟩
  | sweep p => exact h0.andEases (sweep_eases h0.sound hn p) (by simp [stepWeight] <;> omega)
  | fadeStart p c => exact h0.andEases (fadeStart_eases h0.sound p c) (by simp [stepWeight])
  | wake p c => exact h0.andEases (wakeCue_eases h0.sound p c) (by simp [stepWeight])
  | tryHead p => exact h0.andEases (tryHead_eases h0.sound p) (by simp [stepWeight])
  | goChain p k o => exact h0.andEases (goChain_eases h0.sound p k o) (by simp [stepWeight])
  | releaseRead p g o => exact h0.andEases (releaseRead_eases h0.sound p g o) (by simp [stepWeight])
  | releaseSlot p k o => exact h0.andEases (releaseSlot_eases h0.sound p k o) (by simp [stepWeight])
  | snap p o => exact h0.andEases (applySnap_eases h0.sound p o) (by simp [stepWeight])
  | awaitReset o => exact absurd rfl (hs o)

theorem stepReady_not_await {w : FrameWork} {step : ControllerStep} (h : w.stepReady step = true) (o : Option Owed) :
    step ≠ .awaitReset o := by
  rintro rfl; cases h

theorem inUse_of_mem_ending {w : FrameWork} (h : w.Sound) {k f : Nat} (hk : k ∈ w.s.engine.ending f) :
    ∃ r, w.s.engine.slot k = .inUse r := by
  have := (Table.mem_keysWhere FadeSlot.atReset _ w.s.engine.slots k h.1 rfl).mp hk
  show ∃ r, w.s.engine.slots.get FadeSlot.atReset k = .inUse r
  cases hs : w.s.engine.slots.get FadeSlot.atReset k with
  | free a => rw [hs] at this; cases this
  | inUse r => exact ⟨r, rfl⟩

/-- Every piece of work that may be taken lowers the measure. -/
theorem take_lowers {n m : Nat} {w : FrameWork} (h : w.Sound) (hidle : w.resetEngine = true → w.busySlots = 0)
    (hn : w.cues ≤ n) (hm : w.openSlots + w.busySlots ≤ m) (i : WorkItem) (hi : w.may i) :
    Lowers n m 1 w (w.take i) := by
  cases i with
  | commit =>
    show Lowers n m 1 w w.doCommit
    unfold doCommit
    split
    · exact applyCommit_lowers (popCommits h _ _ ‹_›) _ _
    · rename_i hx; simp only [may, hx] at hi; cases hi
  | composerReleased =>
    show Lowers n m 1 w w.doComposerReleased
    unfold doComposerReleased
    split
    · exact takeReleasedCompose_lowers h _ _ ‹_›
    · rename_i hx; exact absurd hx hi
  | composerStaged =>
    show Lowers n m 1 w w.doComposerStaged
    unfold doComposerStaged
    split
    · exact applyClock_lowers (popClock h _ _ ‹_›) _ _
    · rename_i hx; simp only [may, hx] at hi; cases hi
  | portStaged =>
    show Lowers n m 1 w w.doPortStaged
    unfold doPortStaged
    split
    · have h1 := popPorts (n := n) (m := m) h _ _ ‹_›
      exact ⟨h1.sound, h1.cues, h1.slots, h1.less⟩
    · rename_i hx; simp only [may, hx] at hi; cases hi
  | slotMustEnd k =>
    have h1 := popMustEnd (n := n) (m := m) h k hi.2
    refine h1.andEases (endSlot_eases h1.sound k ?_) (by omega)
    by_cases hr : w.resetEngine = true
    · exact .inl (hidle hr)
    · exact .inr (by simpa using hr)
  | slotEnd k =>
    obtain ⟨r, hr⟩ := inUse_of_mem_ending h hi.2.2
    have hw : w.engineWaits = false := by
      have := hi.1; simp only [engineReady, Bool.and_eq_true, Bool.not_eq_true'] at this; exact this.2
    show Lowers n m 1 w (w.endSlot k)
    cases ha : w.resetArbiter with
    | true =>
      unfold endSlot
      rw [hr]; dsimp only; rw [if_pos ha]
      refine ⟨h, Nat.le_refl _, Nat.le_refl _, ?_⟩
      simp only [inHand, toTake, openSlots, busySlots, pendingCues, frame, hw, Bool.not_false, Bool.not_true,
        Bool.toNat_true, Bool.toNat_false]
      omega
    | false =>
      have h0 : Lowers n m 0 w w := ⟨h, Nat.le_refl _, Nat.le_refl _, Nat.le_refl _⟩
      exact h0.andEases (endSlot_eases_busy h k r hr ha) (by decide)
  | endNotice =>
    show Lowers n m 1 w w.doEndNotice
    unfold doEndNotice
    split
    · have h1 := popNotice (n := n) (m := m) h _ _ ‹_›
      exact h1.andEases (takeNotice_eases h1.sound _) (by omega)
    · rename_i hx; exact absurd hx hi.1
  | loadEndNotice =>
    show Lowers n m 1 w w.doLoadEnd
    unfold doLoadEnd
    split
    · have h1 := popLoadEnd (n := n) (m := m) h _ ‹_›
      exact h1.andEases (takeLoadEnd_eases h1.sound hn _) (by omega)
    · rename_i hx; have := hi.1; rw [hx] at this; cases this
  | playbackReleased =>
    show Lowers n m 1 w w.doPlaybackReleased
    unfold doPlaybackReleased
    split
    · exact takeReleased_lowers h hn hm _ _ ‹_›
    · rename_i hx
      simp only [may, releasedReady, hx, Bool.and_false, Bool.false_eq_true] at hi
  | controllerStep =>
    obtain ⟨step, hs, hr⟩ := hi
    show Lowers n m 1 w w.doControllerStep
    unfold doControllerStep
    split
    · rename_i st rest hx
      simp only [nextStep, hx, List.cons_append, List.head?_cons, Option.some.injEq] at hs
      subst hs
      exact controllerStep_lowers st (popAtOnce h st rest hx) hn hm (stepReady_not_await hr)
    · rename_i hx
      split
      · rename_i st rest hy
        simp only [nextStep, hx, hy, List.nil_append, List.head?_cons, Option.some.injEq] at hs
        subst hs
        exact controllerStep_lowers st (popAgenda h st rest hy) hn hm (stepReady_not_await hr)
      · rename_i hy
        simp only [nextStep, hx, hy, List.nil_append, List.head?_nil] at hs; cases hs
  | bandReleased =>
    show Lowers n m 1 w w.doBandReleased
    unfold doBandReleased
    split
    · exact takeReleasedBand_lowers h _ _ ‹_›
    · rename_i hx; exact absurd hx hi.1
  | bandStaged =>
    show Lowers n m 1 w w.doBandStaged
    unfold doBandStaged
    split
    · rename_i e rest he
      have h1 := popBands (n := n) (m := m) h _ _ he
      rcases applyBand_measure (n := n) (m := m) h1.sound e.owed e.request with ⟨_, hb⟩ | hb
      · rw [hb]; exact ⟨h1.sound, h1.cues, h1.slots, h1.less⟩
      · exact h1.andEases hb (by omega)
    · rename_i hx; have := hi.1; rw [hx] at this; cases this
  | resetArbiter => exact showResetArbiter_lowers h hi.2
  | resetStore => exact showResetStore_lowers h hi.2
  | resetEngine => exact showResetEngine_lowers h hi.2.1
  | resetController => exact showResetController_lowers h hi.2.1
  | resetBands => exact showResetBands_lowers h hi.2
  | resetGroups => exact showResetGroups_lowers h hi.2
  | resetReport => exact takeResetReport_lowers h hi.1
  | loadAnswer =>
    show Lowers n m 1 w w.doAnswer
    unfold doAnswer
    split
    · exact takeAnswer_lowers h _ _ ‹_›
    · rename_i hx; exact absurd hx hi
  | intakeArrival =>
    show Lowers n m 1 w w.doArrival
    unfold doArrival
    split
    · exact takeArrival_lowers h _ _ ‹_›
    · rename_i hx; exact absurd hx hi

end FrameWork

end Sys2Proof.Machine
end

