-- ==== Sys2Proof/Laws/FrameEnd.lean ====
section
/-! SUPPORT. A frame start ends with nothing left: whatever waits, waits for something that may be taken. -/

namespace Sys2Proof.Machine

namespace FrameWork

/-- What the blocks wait for at a frame start. The Transition Engine, the Band Unit and the controller wait only for a
show-reset notice that is on its way; a block that has taken its notice has nothing of this frame left; and while
staged entries of this frame are left, the controller's staged pass goes on. -/
structure Live (w : FrameWork) : Prop where
  engineWaits : w.engineWaits = true → w.resetSent = true ∧ w.resetEngine = false
  bandWaits : w.bandWaits ≠ none → w.resetSent = true ∧ w.resetBands = false
  awaits : ∀ o, .awaitReset o ∈ w.agenda → w.resetSent = true
  once : ∀ c ∈ w.atOnce, Quick c
  arbiter : w.resetArbiter = true → w.resetSent = true
  engine : w.resetEngine = true → w.resetSent = true
  idle : w.resetEngine = true → w.busySlots = 0 ∧ w.mustEnd = []
  bands : w.resetBands = true → dueCount w.frame w.s.bands.staged = 0
  pass : .stagedPass ∈ w.agenda ∨ dueCount w.frame w.s.controller.staged = 0
  handled : w.resetController = true → w.agenda = [] ∧ w.atOnce = [] ∧ w.s.controller.playbacks = Table.empty

/-- The controller is left alone. -/
structure Apart (w v : FrameWork) : Prop where
  agenda : v.agenda = w.agenda
  atOnce : v.atOnce = w.atOnce
  controller : v.s.controller = w.s.controller

namespace Apart

theorem refl (w : FrameWork) : Apart w w := ⟨rfl, rfl, rfl⟩

theorem trans {w v u : FrameWork} (h : Apart w v) (h' : Apart v u) : Apart w u :=
  ⟨h'.agenda.trans h.agenda, h'.atOnce.trans h.atOnce, h'.controller.trans h.controller⟩

theorem fold {β : Type} (f : FrameWork → β → FrameWork) (hf : ∀ w b, Apart w (f w b)) (l : List β) :
    ∀ w, Apart w (l.foldl f w) := by
  induction l with
  | nil => intro w; exact refl w
  | cons b l ih => intro w; exact (hf w b).trans (ih _)

end Apart

theorem freeSlot_apart (w : FrameWork) (k : Nat) (r : EndReason) : Apart w (w.freeSlot k r) := by
  unfold freeSlot
  split
  · exact .refl w
  · rename_i run _
    dsimp only
    cases run.kind <;> exact ⟨rfl, rfl, rfl⟩

theorem takeLosses_apart (w : FrameWork) (l : List (Nat × Nat)) (r : EndReason) : Apart w (w.takeLosses l r) := by
  refine .fold (fun acc (x : Nat × Nat) => acc.loseChannels x.1 x.2 r) (fun w x => ?_) l w
  unfold loseChannels
  split
  · exact .refl w
  · split
    · exact freeSlot_apart _ _ _
    · exact ⟨rfl, rfl, rfl⟩

theorem endSlot_apart (w : FrameWork) (k : Nat) : Apart w (w.endSlot k) := by
  unfold endSlot
  split
  · exact .refl w
  · split
    · exact ⟨rfl, rfl, rfl⟩
    · have key : ∀ t, Apart w ((w.setChannels t).freeSlot k .ended) := fun t =>
        Apart.trans (v := w.setChannels t) ⟨rfl, rfl, rfl⟩ (freeSlot_apart _ _ _)
      exact key _

theorem applyBand_apart (w : FrameWork) (o : Owed) (r : BandRequest) : Apart w (w.applyBand o r) := by
  cases r with
  | start b q =>
    show Apart w (w.applyStartBand o b q)
    unfold applyStartBand
    dsimp only
    split
    · exact ⟨rfl, rfl, rfl⟩
    · exact .refl w
    · split
      · exact ⟨rfl, rfl, rfl⟩
      · have h := fun t l => Apart.trans (v := w.setChannels t) ⟨rfl, rfl, rfl⟩ (takeLosses_apart (w.setChannels t) l .lost)
        exact ⟨(h _ _).agenda, (h _ _).atOnce, (h _ _).controller⟩
  | stop b =>
    show Apart w (w.applyStopBand o b)
    unfold applyStopBand
    split
    · split <;> exact ⟨rfl, rfl, rfl⟩
    · exact ⟨rfl, rfl, rfl⟩
    · exact ⟨rfl, rfl, rfl⟩
  | setRoll b st p off =>
    show Apart w (w.applySetRoll o b st p off)
    unfold applySetRoll
    split <;> exact ⟨rfl, rfl, rfl⟩

/-- A controller that has taken its show reset has no cue that a notice could end. -/
theorem takeNotice_apart (w : FrameWork) (x : EndNotice) (h : w.s.controller.playbacks = Table.empty) :
    Apart w (w.takeNotice x) := by
  have hp : ∀ p, w.playback p = Playback.atReset := by
    intro p
    show w.s.controller.playbacks.get Playback.atReset p = _
    rw [h]; rfl
  unfold takeNotice
  split
  · unfold endCue cueOf
    rw [hp]
    exact .refl w
  · unfold endRelease
    simp only [hp, Playback.atReset]
    simp only [reduceCtorEq, if_false]
    split
    · exact ⟨rfl, rfl, rfl⟩
    · exact .refl w

namespace Live

variable {n m : Nat} {d : Int} {w v : FrameWork}

/-- An operation keeps what the blocks wait for. -/
theorem eases (hl : Live w) (h : Eases n m d w v) (ho : w.resetController = true → Apart w v) : Live v := by
  have hm := h.marks
  simp only [marks, Prod.mk.injEq, List.cons.injEq, and_true] at hm
  obtain ⟨⟨hs, ha, -, he, hc, hb, -⟩, hw⟩ := hm
  obtain ⟨la, hla, hna⟩ := h.agenda
  obtain ⟨lo, hlo, hno⟩ := h.atOnce
  refine ⟨fun a => ?_, fun a => ?_, fun o a => ?_, fun o a => ?_, fun a => ?_, fun a => ?_, fun a => ?_, fun a => ?_,
    ?_, fun a => ?_⟩
  · rw [hs, he]
    rcases h.waits a with b | ⟨b, c⟩
    · exact hl.engineWaits b
    · exact ⟨hl.arbiter b, c⟩
  · rw [hw] at a; rw [hs, hb]; exact hl.bandWaits a
  · rw [hs]
    rw [hla] at a
    rcases List.mem_append.mp a with a | a
    · exact (hna o a).elim hl.arbiter hl.engine
    · exact hl.awaits o a
  · rw [hlo] at a
    rcases List.mem_append.mp a with a | a
    · exact hl.once _ a
    · exact hno _ a
  · rw [hs]; exact hl.arbiter (ha ▸ a)
  · rw [hs]; exact hl.engine (he ▸ a)
  · have := hl.idle (he ▸ a)
    exact h.idle (he ▸ a) this.1 this.2
  · rw [h.frame, h.staged.2]; exact hl.bands (hb ▸ a)
  · rw [h.frame, h.staged.1, hla]
    exact hl.pass.imp (fun x => List.mem_append.mpr (.inr x)) id
  · have c := ho (hc ▸ a)
    have := hl.handled (hc ▸ a)
    rw [c.agenda, c.atOnce, c.controller]; exact this

/-- Nothing that is waited for has changed. -/
theorem same (hl : Live w)
    (hw : v = { w with
      s := v.s, stagedOver := v.stagedOver, notices := v.notices, superseded := v.superseded,
      bandLoads := v.bandLoads, toController := v.toController, toBands := v.toBands, toComposer := v.toComposer,
      answers := v.answers, intake := v.intake })
    (he : v.s.engine = w.s.engine) (hc : v.s.controller = w.s.controller) (hk : v.s.clock.frame = w.s.clock.frame)
    (hb : v.s.bands.staged = w.s.bands.staged) : Live v := by
  have hf : v.frame = w.frame := hk
  have hs : v.busySlots = w.busySlots := congrArg (fun e : TransitionEngine => e.slots.total busyOf) he
  refine ⟨?_, ?_, ?_, ?_, ?_, ?_, ?_, ?_, ?_, ?_⟩
  all_goals try rw [hf]
  all_goals try rw [hc]
  all_goals try rw [hb]
  all_goals try rw [hs]
  all_goals rw [hw]
  · exact hl.engineWaits
  · exact hl.bandWaits
  · exact hl.awaits
  · exact hl.once
  · exact hl.arbiter
  · exact hl.engine
  · exact hl.idle
  · exact hl.bands
  · exact hl.pass
  · exact hl.handled

end Live

/-! ## Each piece of work -/

theorem applyCommit_live {w : FrameWork} (hl : Live w) (o : Owed) (g : Nat) : Live (w.applyCommit o g) := by
  unfold applyCommit
  dsimp only
  obtain ⟨a, b, c, he, -⟩ := foldl_handOut (w.s.groups.members g)
    { w with s := { w.s with groups := { w.s.groups with hold := w.s.groups.without g } } }
  rw [he]
  exact hl.same rfl rfl rfl rfl rfl

theorem applyCompose_live {w : FrameWork} (hl : Live w) (o : Owed) (q : ComposeRequest) :
    Live { w with s := w.s.applyCompose o q } := by
  cases q <;> exact hl.same rfl rfl rfl rfl rfl

theorem applyClock_live {w : FrameWork} (hl : Live w) (o : Owed) (r : ClockRequest) : Live (w.applyClock o r) := by
  cases r with
  | compose q => exact applyCompose_live hl o q
  | setPeriod p => exact hl.same rfl rfl rfl rfl rfl
  | showReset =>
    exact ⟨fun a => ⟨rfl, (hl.engineWaits a).2⟩, fun a => ⟨rfl, (hl.bandWaits a).2⟩, fun _ _ => rfl, hl.once,
      fun _ => rfl, fun _ => rfl, hl.idle, hl.bands, hl.pass, hl.handled⟩

theorem applyBand_live {w : FrameWork} (h : w.Sound) (hl : Live w) (hr : w.resetBands = false) (o : Owed)
    (r : BandRequest) : Live (w.applyBand o r) := by
  rcases applyBand_measure (n := 0) (m := 0) h o r with ⟨ha, e⟩ | e
  · rw [e]
    exact ⟨hl.engineWaits, fun _ => ⟨hl.arbiter ha, hr⟩, hl.awaits, hl.once, hl.arbiter, hl.engine, hl.idle, hl.bands,
      hl.pass, hl.handled⟩
  · exact hl.eases e (fun _ => applyBand_apart _ _ _)

theorem cancelOwed_same (l : List Owed) : ∀ w : FrameWork,
    ∃ u, w.cancelOwed l = { w with s := { w.s with host := u } } := by
  unfold cancelOwed
  induction l with
  | nil => intro w; exact ⟨_, rfl⟩
  | cons o l ih => intro w; obtain ⟨u, e⟩ := ih (w.finish o .cancelled 0); exact ⟨u, e⟩

/-- The slots that the show reset frees are free. -/
theorem freeAll_free (l : List Nat) : ∀ w : FrameWork, ∀ k, (k ∈ l ∨ ∃ a, w.s.engine.slot k = .free a) →
    ∃ a, (l.foldl (fun acc j => acc.freeSlot j .showReset) w).s.engine.slot k = .free a := by
  induction l with
  | nil => intro w k h; exact h.resolve_left (by simp)
  | cons j l ih =>
    intro w k h
    rw [List.foldl_cons]
    refine ih _ k ?_
    have hj : (∃ a, w.s.engine.slot k = .free a) ∨ k = j → ∃ a, (w.freeSlot j .showReset).s.engine.slot k = .free a := by
      intro hk
      unfold freeSlot
      split
      · rename_i a ha
        rcases hk with hk | rfl
        · exact hk
        · exact ⟨a, ha⟩
      · rename_i r _
        have : ∀ s : State, s.engine = (w.setSlot j (.free (w.frame + 1))).s.engine →
            ∃ a, s.engine.slot k = .free a := by
          intro s hs
          rw [hs]
          show ∃ a, (w.s.engine.setSlot j (.free (w.frame + 1))).slot k = .free a
          rw [TransitionEngine.slot_setSlot]
          split
          · exact ⟨_, rfl⟩
          · exact hk.resolve_right ‹_›
        dsimp only
        cases r.kind with
        | cue c sc => exact this _ rfl
        | release => exact this _ rfl
    rcases h with h | h
    · rcases List.mem_cons.mp h with rfl | h
      · exact .inr (hj (.inr rfl))
      · exact .inl h
    · exact .inr (hj (.inl h))

theorem showResetEngine_live {w : FrameWork} (h : w.Sound) (hl : Live w) (hs : w.resetSent = true) :
    Live w.showResetEngine := by
  have e := freeAll_eases (n := 0) (m := 0) h w.s.engine.inUseSlots
  have hl' := hl.eases e (fun _ => Apart.fold (fun acc k => acc.freeSlot k .showReset)
    (fun _ _ => freeSlot_apart _ _ _) _ _)
  have hb : (w.s.engine.inUseSlots.foldl (fun acc k => acc.freeSlot k .showReset) w).busySlots = 0 := by
    refine Table.total_eq_zero busyOf FadeSlot.atReset _ e.sound.1 (fun k => ?_)
    have hk : k ∈ w.s.engine.inUseSlots ∨ ∃ a, w.s.engine.slot k = .free a := by
      cases hr : w.s.engine.slot k with
      | free a => exact .inr ⟨a, rfl⟩
      | inUse r =>
        refine .inl ((Table.mem_keysWhere FadeSlot.atReset _ w.s.engine.slots k h.1 rfl).mpr ?_)
        have : w.s.engine.slots.get FadeSlot.atReset k = .inUse r := hr
        rw [this]
    obtain ⟨a, ha⟩ := freeAll_free _ w k hk
    have : (w.s.engine.inUseSlots.foldl (fun acc k => acc.freeSlot k .showReset) w).s.engine.slots.get
      FadeSlot.atReset k = .free a := ha
    rw [this]; rfl
  have hm := e.marks
  simp only [marks, Prod.mk.injEq, List.cons.injEq, and_true] at hm
  unfold showResetEngine
  generalize w.s.engine.inUseSlots.foldl (fun acc k => acc.freeSlot k .showReset) w = v at hl' hb hm ⊢
  exact ⟨fun a => (by cases a), hl'.bandWaits, hl'.awaits, hl'.once, hl'.arbiter, fun _ => hm.1.1.trans hs,
    fun _ => ⟨hb, rfl⟩, hl'.bands, hl'.pass, hl'.handled⟩

theorem showResetController_live {w : FrameWork} (h : w.Sound) (hl : Live w) (hr : w.resetController = false) :
    Live w.showResetController := by
  obtain ⟨v, e, he⟩ := showResetController_is (n := 0) (m := 0) h
  have hl' := hl.eases e (fun a => by rw [hr] at a; cases a)
  rw [he]
  refine ⟨hl'.engineWaits, hl'.bandWaits, fun _ a => (by cases a), fun _ a => (by cases a), hl'.arbiter, hl'.engine,
    hl'.idle, hl'.bands, .inr ?_, fun _ => ⟨rfl, rfl, rfl⟩⟩
  show dueCount v.frame (otherEntries w.frame _) = 0
  rw [e.frame]; exact dueCount_otherEntries _ _

theorem showResetBands_live {w : FrameWork} (hl : Live w) : Live w.showResetBands := by
  unfold showResetBands
  dsimp only
  obtain ⟨u, e⟩ := cancelOwed_same (w.bandWaits.toList ++ (dueEntries w.frame w.s.bands.staged).map Staged.owed ++
    w.bandLoads.map (fun c => { ctx := c, dropped := false })) w
  rw [e]
  exact ⟨hl.engineWaits, fun a => absurd rfl a, hl.awaits, hl.once, hl.arbiter, hl.engine, hl.idle,
    fun _ => dueCount_otherEntries _ _, hl.pass, hl.handled⟩

theorem showResetGroups_live {w : FrameWork} (hl : Live w) : Live w.showResetGroups := by
  obtain ⟨u, e⟩ := finishNow_same (w.s.groups.hold.map HeldRequest.ctx) w.s
  have hs : w.s.cancelHeld w.s.groups.hold = { w.s with host := u } := by
    rw [← e]; unfold State.cancelHeld; rw [List.foldl_map]
  unfold showResetGroups
  rw [hs]
  dsimp only
  obtain ⟨u', e'⟩ := cancelOwed_same ((dueEntries w.frame w.s.groups.commits).map Staged.owed)
    { w with s := { w.s with host := u } }
  rw [e']
  exact ⟨hl.engineWaits, hl.bandWaits, hl.awaits, hl.once, hl.arbiter, hl.engine, hl.idle, hl.bands, hl.pass, hl.handled⟩

theorem showResetStore_live {w : FrameWork} (hl : Live w) : Live w.showResetStore := by
  obtain ⟨u, e⟩ := finishNow_same (sceneRequests w.s.store.loads) w.s
  have hs : w.s.showResetStore = { w.s with
      host := u, store := { w.s.store with scenes := Table.empty, freeBlocks := Config.blocks, loads := [] } } := by
    unfold State.showResetStore; dsimp only; rw [e]
  unfold showResetStore
  rw [hs]
  exact ⟨hl.engineWaits, hl.bandWaits, hl.awaits, hl.once, hl.arbiter, hl.engine, hl.idle, hl.bands, hl.pass, hl.handled⟩

/-- The staged pass goes on while an entry of this frame is left. -/
theorem stagedPass_live {w : FrameWork} (h : w.Sound) (hl : Live { w with agenda := .stagedPass :: w.agenda })
    (hr : w.resetController = false) : Live w.stagedPass := by
  unfold stagedPass
  split
  · rename_i e rest he
    have hv : Live (FrameWork.doFirst { w with s := { w.s with controller := { w.s.controller with staged := rest } } }
        [.stagedPass]) :=
      ⟨hl.engineWaits, hl.bandWaits, hl.awaits, hl.once, hl.arbiter, hl.engine, hl.idle, hl.bands,
        .inl List.mem_cons_self, fun a => absurd (hr.symm.trans a) (by decide)⟩
    refine hv.eases (applyPlayback_eases (n := 0) (m := w.openSlots + w.busySlots) ?_ ?_ e.owed e.request)
      (fun a => absurd (hr.symm.trans a) (by decide))
    · exact h
    · exact Nat.le_refl _
  · exact ⟨hl.engineWaits, hl.bandWaits, fun o a => hl.awaits o (List.mem_cons_of_mem _ a), hl.once, hl.arbiter,
      hl.engine, hl.idle, hl.bands, .inr (dueCount_of_takeStaged_none _ _ ‹_›),
      fun a => absurd (hr.symm.trans a) (by decide)⟩

theorem controllerStep_live {w : FrameWork} (h : w.Sound) (step : ControllerStep) (hs : step ≠ .stagedPass)
    (hl : Live w) (hr : w.resetController = false) : Live (w.controllerStep step) := by
  have ho : ∀ v : FrameWork, w.resetController = true → Apart w v := fun v a => absurd (hr.symm.trans a) (by decide)
  cases step with
  | stagedPass => exact absurd rfl hs
  | sweep p => exact hl.eases (sweep_eases (n := w.cues) (m := 0) h (Nat.le_refl _) p) (ho _)
  | fadeStart p c => exact hl.eases (fadeStart_eases (n := 0) (m := 0) h p c) (ho _)
  | wake p c => exact hl.eases (wakeCue_eases (n := 0) (m := 0) h p c) (ho _)
  | tryHead p => exact hl.eases (tryHead_eases (n := 0) (m := 0) h p) (ho _)
  | goChain p k o => exact hl.eases (goChain_eases (n := 0) (m := 0) h p k o) (ho _)
  | releaseRead p g o => exact hl.eases (releaseRead_eases (n := 0) (m := 0) h p g o) (ho _)
  | releaseSlot p k o => exact hl.eases (releaseSlot_eases (n := 0) (m := 0) h p k o) (ho _)
  | snap p o => exact hl.eases (applySnap_eases (n := 0) (m := 0) h p o) (ho _)
  | awaitReset o => exact hl

theorem doControllerStep_live {w : FrameWork} (h : w.Sound) (hl : Live w) (hi : w.may .controllerStep) :
    Live w.doControllerStep := by
  obtain ⟨st, hs, -⟩ := hi
  have hr : w.resetController = false := by
    cases hr : w.resetController with
    | false => rfl
    | true =>
      have := hl.handled hr
      simp only [nextStep, this.1, this.2.1, List.append_nil, List.head?_nil] at hs; cases hs
  have absurdly : ∀ {P : Prop}, w.resetController = true → P := fun a => absurd (hr.symm.trans a) (by decide)
  unfold doControllerStep
  split
  · rename_i step rest hx
    have hv : Live { w with atOnce := rest } :=
      ⟨hl.engineWaits, hl.bandWaits, hl.awaits, fun o a => hl.once o (by rw [hx]; exact List.mem_cons_of_mem _ a),
        hl.arbiter, hl.engine, hl.idle, hl.bands, hl.pass, fun a => absurdly a⟩
    by_cases hp : step = .stagedPass
    · subst hp
      refine stagedPass_live (w := { w with atOnce := rest }) h ?_ hr
      exact ⟨hv.engineWaits, hv.bandWaits, fun o a => hv.awaits o (by simpa using a), hv.once, hv.arbiter, hv.engine,
        hv.idle, hv.bands, .inl List.mem_cons_self, fun a => absurdly a⟩
    · exact controllerStep_live (w := { w with atOnce := rest }) h step hp hv hr
  · split
    · rename_i step rest hx
      by_cases hp : step = .stagedPass
      · subst hp
        refine stagedPass_live (w := { w with agenda := rest }) h ?_ hr
        exact ⟨hl.engineWaits, hl.bandWaits, fun o a => hl.awaits o (by rw [hx]; exact a), hl.once, hl.arbiter,
          hl.engine, hl.idle, hl.bands, .inl List.mem_cons_self, fun a => absurdly a⟩
      · refine controllerStep_live (w := { w with agenda := rest }) h step hp ?_ hr
        refine ⟨hl.engineWaits, hl.bandWaits, fun o a => hl.awaits o (by rw [hx]; exact List.mem_cons_of_mem _ a),
          hl.once, hl.arbiter, hl.engine, hl.idle, hl.bands, ?_, fun a => absurdly a⟩
        rcases hl.pass with a | a
        · rw [hx] at a
          rcases List.mem_cons.mp a with rfl | a
          · exact absurd rfl hp
          · exact .inl a
        · exact .inr a
    · exact hl

theorem takeReleased_live {w : FrameWork} (h : w.Sound) (hl : Live w) (o : Owed) (r : PlaybackRequest) :
    Live (w.takeReleased o r) := by
  unfold takeReleased
  split
  · exact hl.same rfl rfl rfl rfl rfl
  · rename_i hr
    have ho : ∀ v : FrameWork, w.resetController = true → Apart w v := fun v a => absurd a hr
    split
    · rename_i p
      have e := applyResume_eases (n := 0) (m := w.openSlots + w.busySlots) h (Nat.le_refl _) p o
      split
      · exact hl.eases (e.trans (doFirst_eases e.sound [.sweep p] (by simp))) (ho _)
      · exact hl.eases e (ho _)
    · exact hl.eases (applyPlayback_eases (n := 0) (m := w.openSlots + w.busySlots) h (Nat.le_refl _) o _) (ho _)

theorem takeLoadEnd_live {w : FrameWork} (h : w.Sound) (hl : Live w) (scene : Nat) : Live (w.takeLoadEnd scene) := by
  refine hl.eases (takeLoadEnd_eases (n := w.cues) (m := 0) h (Nat.le_refl _) scene) (fun a => ⟨?_, rfl, rfl⟩)
  have hp : ∀ p, w.waitersOf scene p = [] := by
    intro p
    unfold waitersOf
    have : w.playback p = Playback.atReset := by
      show w.s.controller.playbacks.get Playback.atReset p = _
      rw [(hl.handled a).2.2]; rfl
    rw [this]; rfl
  have : (List.range Config.playbacks).flatMap (w.waitersOf scene) = [] := by
    rw [List.flatMap_eq_nil_iff]; exact fun p _ => hp p
  show (List.range Config.playbacks).flatMap (w.waitersOf scene) ++ w.agenda = w.agenda
  rw [this]; rfl

/-- Every piece of work keeps what the blocks wait for. -/
theorem take_live {w : FrameWork} (h : w.Sound) (hl : Live w) (i : WorkItem) (hi : w.may i) : Live (w.take i) := by
  cases i with
  | commit =>
    show Live w.doCommit
    unfold doCommit
    split
    · rename_i e rest _
      have hv : Live { w with s := { w.s with groups := { w.s.groups with commits := rest } } } :=
        hl.same rfl rfl rfl rfl rfl
      exact applyCommit_live hv e.owed e.request
    · exact hl
  | composerReleased =>
    show Live w.doComposerReleased
    unfold doComposerReleased
    split
    · unfold takeReleasedCompose
      split
      · exact hl.same rfl rfl rfl rfl rfl
      · rename_i o q rest _ _
        exact applyCompose_live (w := { w with toComposer := rest }) (hl.same rfl rfl rfl rfl rfl) o q
    · exact hl
  | composerStaged =>
    show Live w.doComposerStaged
    unfold doComposerStaged
    split
    · rename_i e rest _
      have hv : Live { w with s := { w.s with clock := { w.s.clock with staged := rest } } } :=
        hl.same rfl rfl rfl rfl rfl
      exact applyClock_live hv e.owed e.request
    · exact hl
  | portStaged =>
    show Live w.doPortStaged
    unfold doPortStaged
    split
    · exact hl.same rfl rfl rfl rfl rfl
    · exact hl
  | slotMustEnd k =>
    have hv : Live { w with mustEnd := w.mustEnd.erase k } :=
      ⟨hl.engineWaits, hl.bandWaits, hl.awaits, hl.once, hl.arbiter, hl.engine,
        fun a => ⟨(hl.idle a).1, by rw [(hl.idle a).2]; rfl⟩, hl.bands, hl.pass, hl.handled⟩
    refine hv.eases (endSlot_eases (n := 0) (m := 0) (w := { w with mustEnd := w.mustEnd.erase k }) h k ?_)
      (fun _ => endSlot_apart _ _)
    by_cases hr : w.resetEngine = true
    · exact .inl (hl.idle hr).1
    · exact .inr (by simpa using hr)
  | slotEnd k => exact hl.eases (endSlot_eases (n := 0) (m := 0) h k (.inr hi.2.1)) (fun _ => endSlot_apart _ _)
  | endNotice =>
    show Live w.doEndNotice
    unfold doEndNotice
    split
    · rename_i x rest _
      have hv : Live { w with notices := rest } := hl.same rfl rfl rfl rfl rfl
      exact hv.eases (takeNotice_eases (n := 0) (m := 0) (w := { w with notices := rest }) h x) (fun a => takeNotice_apart _ x (hl.handled a).2.2)
    · exact hl
  | loadEndNotice =>
    show Live w.doLoadEnd
    unfold doLoadEnd
    split
    · rename_i x _
      have hv : Live { w with s := { w.s with store := { w.s.store with
          notices := w.s.store.notices.eraseP (fun m => decide (m.frame = w.frame)) } } } := hl.same rfl rfl rfl rfl rfl
      exact takeLoadEnd_live (w := { w with s := { w.s with store := { w.s.store with
          notices := w.s.store.notices.eraseP (fun m => decide (m.frame = w.frame)) } } }) h hv x.scene
    · exact hl
  | playbackReleased =>
    show Live w.doPlaybackReleased
    unfold doPlaybackReleased
    split
    · rename_i o q rest _
      have hv : Live { w with toController := rest } := hl.same rfl rfl rfl rfl rfl
      exact takeReleased_live (w := { w with toController := rest }) h hv o q
    · exact hl
  | controllerStep => exact doControllerStep_live h hl hi
  | bandReleased =>
    show Live w.doBandReleased
    unfold doBandReleased
    split
    · rename_i o q rest _
      have hv : Live { w with toBands := rest } := hl.same rfl rfl rfl rfl rfl
      unfold takeReleasedBand
      split
      · exact hv.same rfl rfl rfl rfl rfl
      · rename_i hr
        exact applyBand_live (w := { w with toBands := rest }) h hv (by simpa using hr) o q
    · exact hl
  | bandStaged =>
    show Live w.doBandStaged
    unfold doBandStaged
    split
    · rename_i e rest he
      have hd := dueCount_takeStaged _ _ _ _ he
      have hr : w.resetBands = false := by
        cases hr : w.resetBands with
        | false => rfl
        | true => have := hl.bands hr; omega
      refine applyBand_live (w := { w with s := { w.s with bands := { w.s.bands with staged := rest } } }) h ?_ hr
        e.owed e.request
      exact ⟨hl.engineWaits, hl.bandWaits, hl.awaits, hl.once, hl.arbiter, hl.engine, hl.idle,
        fun a => absurd (hr.symm.trans a) (by decide), hl.pass, hl.handled⟩
    · exact hl
  | resetArbiter =>
    exact ⟨hl.engineWaits, hl.bandWaits, hl.awaits, hl.once, fun _ => hi.1, hl.engine, hl.idle, hl.bands, hl.pass,
      hl.handled⟩
  | resetStore => exact showResetStore_live hl
  | resetEngine => exact showResetEngine_live h hl hi.1
  | resetController => exact showResetController_live h hl hi.2.1
  | resetBands => exact showResetBands_live hl
  | resetGroups => exact showResetGroups_live hl
  | resetReport =>
    have hv : Live { w with resetLosses := [] } :=
      ⟨hl.engineWaits, hl.bandWaits, hl.awaits, hl.once, hl.arbiter, hl.engine, hl.idle, hl.bands, hl.pass, hl.handled⟩
    exact hv.eases (takeLosses_eases (n := 0) (m := 0) (w := { w with resetLosses := [] }) h _ _)
      (fun _ => takeLosses_apart _ _ _)
  | loadAnswer =>
    show Live w.doAnswer
    unfold doAnswer
    split
    · rename_i a rest _
      obtain ⟨u, st, records, l, e, -⟩ := takeAnswer_is { w with answers := rest } a
      rw [e]
      exact hl.same rfl rfl rfl rfl rfl
    · exact hl
  | intakeArrival =>
    show Live w.doArrival
    unfold doArrival
    split
    · rename_i a rest _
      obtain ⟨u, l, e, -⟩ := takeArrival_is { w with intake := rest } a
      rw [e]
      exact hl.same rfl rfl rfl rfl rfl
    · exact hl

/-! ## Nothing left -/

/-- Nothing is left to do at this frame start. -/
structure Finished (w : FrameWork) : Prop where
  controller : dueCount w.frame w.s.controller.staged = 0
  bands : dueCount w.frame w.s.bands.staged = 0
  clock : dueCount w.frame w.s.clock.staged = 0
  ports : dueCount w.frame w.s.ports.staged = 0
  commits : dueCount w.frame w.s.groups.commits = 0
  released : w.toController = [] ∧ w.toBands = [] ∧ w.toComposer = []
  steps : w.agenda = [] ∧ w.atOnce = []
  notices : w.notices = []
  loadEnds : ∀ x ∈ w.s.store.notices, x.frame ≠ w.frame
  slots : w.mustEnd = [] ∧ w.engineWaits = false ∧ w.s.engine.ending w.frame = []
  bandUnit : w.bandWaits = none
  answers : w.answers = []
  intake : w.intake = []
  reset : w.resetSent = true → w.resetArbiter = true ∧ w.resetStore = true ∧ w.resetEngine = true ∧
    w.resetController = true ∧ w.resetBands = true ∧ w.resetGroups = true
  report : w.resetLosses = []

theorem dueCount_of_not_isSome {ρ : Type} {f : Nat} {l : List (Staged ρ)} (h : ¬(takeStaged f l).isSome = true) :
    dueCount f l = 0 := by
  refine dueCount_of_takeStaged_none f l ?_
  cases ht : takeStaged f l with
  | none => rfl
  | some x => rw [ht] at h; exact absurd rfl h

/-- Where nothing may be taken, nothing is left. -/
theorem finished_of_none {w : FrameWork} (h : w.Sound) (hl : Live w) (hn : ∀ i, ¬w.may i) : Finished w := by
  have bool : ∀ {b : Bool}, ¬b = false → b = true := fun {b} hb => by cases b <;> simp_all
  have rA : w.resetSent = true → w.resetArbiter = true := fun a => bool (fun b => hn .resetArbiter ⟨a, b⟩)
  have rS : w.resetSent = true → w.resetStore = true := fun a => bool (fun b => hn .resetStore ⟨a, b⟩)
  have rB : w.resetSent = true → w.resetBands = true := fun a => bool (fun b => hn .resetBands ⟨a, b⟩)
  have rG : w.resetSent = true → w.resetGroups = true := fun a => bool (fun b => hn .resetGroups ⟨a, b⟩)
  have hbw : w.bandWaits = none := by
    cases hb : w.bandWaits with
    | none => rfl
    | some o =>
      have := hl.bandWaits (by rw [hb]; exact nofun)
      rw [rB this.1] at this; exact absurd this.2 (by decide)
  have hew : w.engineWaits = false := by
    cases he : w.engineWaits with
    | false => rfl
    | true =>
      have := hl.engineWaits he
      exact absurd ⟨this.1, this.2, by simp [engineMayReset, he]⟩ (hn .resetEngine)
  have hme : w.mustEnd = [] := by
    cases hm : w.mustEnd with
    | nil => rfl
    | cons k l => exact absurd ⟨hew, by rw [hm]; exact List.mem_cons_self⟩ (hn (.slotMustEnd k))
  have hready : w.engineReady = true := by simp [engineReady, hme, hew]
  have rE : w.resetSent = true → w.resetEngine = true := fun a => bool (fun b => hn .resetEngine ⟨a, b, by
    simp [engineMayReset, hme]⟩)
  have hend : w.s.engine.ending w.frame = [] := by
    rw [List.eq_nil_iff_forall_not_mem]
    intro k hk
    cases hr : w.resetEngine with
    | false => exact hn (.slotEnd k) ⟨hready, hr, hk⟩
    | true =>
      obtain ⟨r, hs⟩ := inUse_of_mem_ending h hk
      have h1 := Table.get_le_total busyOf FadeSlot.atReset w.s.engine.slots k h.1 rfl
      have h2 : w.s.engine.slots.get FadeSlot.atReset k = .inUse r := hs
      have h3 : w.s.engine.slots.total busyOf = 0 := (hl.idle hr).1
      rw [h2, h3] at h1
      exact absurd h1 (Nat.not_succ_le_zero 0)
  -- a controller that waits, waits for a notice that it may take
  have noWait : ∀ o rest, w.agenda ≠ .awaitReset o :: rest := by
    intro o rest ha
    have hs := hl.awaits o (by rw [ha]; exact List.mem_cons_self)
    have hr : w.resetController = false := by
      cases hr : w.resetController with
      | false => rfl
      | true => rw [(hl.handled hr).1] at ha; cases ha
    exact hn .resetController ⟨hs, hr, by simp [handling, ha]⟩
  have haw : w.awaitsReset = false := by
    unfold awaitsReset
    split
    · rename_i o rest ha; exact absurd ha (noWait o rest)
    · rfl
  have hstep : w.nextStep = none := by
    cases hs : w.nextStep with
    | none => rfl
    | some step =>
      refine absurd ⟨step, hs, ?_⟩ (hn .controllerStep)
      cases step with
      | awaitReset o =>
        exfalso
        unfold nextStep at hs
        cases hat : w.atOnce with
        | cons x l =>
          rw [hat] at hs
          simp only [List.cons_append, List.head?_cons, Option.some.injEq] at hs
          rcases hl.once (.awaitReset o) (by rw [hat, hs]; exact List.mem_cons_self) with ⟨_, _, e⟩ | ⟨_, e⟩ <;> cases e
        | nil =>
          rw [hat, List.nil_append] at hs
          cases hag : w.agenda with
          | nil => rw [hag] at hs; cases hs
          | cons x l =>
            rw [hag] at hs
            simp only [List.head?_cons, Option.some.injEq] at hs
            exact noWait o l (by rw [hag, hs])
      | stagedPass => simp [stepReady, hme]
      | fadeStart p c => simp [stepReady, hready, haw]
      | wake p c => simp [stepReady, hready]
      | releaseSlot p k o => simp [stepReady, hready]
      | sweep p => rfl
      | tryHead p => rfl
      | goChain p k o => rfl
      | releaseRead p g o => rfl
      | snap p o => rfl
  have hao : w.atOnce = [] ∧ w.agenda = [] := by
    unfold nextStep at hstep
    rw [List.head?_eq_none_iff, List.append_eq_nil_iff] at hstep
    exact hstep
  have hh : w.handling = false := by simp [handling, hao.1, hao.2]
  have rC : w.resetSent = true → w.resetController = true := fun a => bool (fun b => hn .resetController ⟨a, b, hh⟩)
  refine ⟨?_, ?_, dueCount_of_not_isSome (hn .composerStaged), dueCount_of_not_isSome (hn .portStaged),
    dueCount_of_not_isSome (hn .commit), ⟨?_, ?_, ?_⟩, ⟨hao.2, hao.1⟩, ?_, ?_, ⟨hme, hew, hend⟩, hbw,
    Decidable.byContradiction fun hb => hn .loadAnswer hb,
    Decidable.byContradiction fun hb => hn .intakeArrival hb, fun a => ⟨rA a, rS a, rE a, rC a, rB a, rG a⟩,
    Decidable.byContradiction fun hb => hn .resetReport ⟨hb, hready⟩⟩
  · rcases hl.pass with a | a
    · rw [hao.2] at a; cases a
    · exact a
  · exact dueCount_of_not_isSome (fun a => hn .bandStaged ⟨a, hbw⟩)
  · cases ht : w.toController with
    | nil => rfl
    | cons x l =>
      obtain ⟨o, q⟩ := x
      refine absurd ?_ (hn .playbackReleased)
      show w.releasedReady = true
      unfold releasedReady betweenEntries
      rw [hao.1, hao.2, ht, hme]
      cases q <;> rfl
  · exact Decidable.byContradiction fun hb => hn .bandReleased ⟨hb, hbw⟩
  · exact Decidable.byContradiction fun hb => hn .composerReleased hb
  · exact Decidable.byContradiction fun hb => hn .endNotice ⟨hb, hh⟩
  · intro x hx hf
    refine hn .loadEndNotice ⟨?_, hh⟩
    unfold nextLoadEnd
    rw [List.find?_isSome]
    exact ⟨x, hx, by simpa using hf⟩

/-! ## The run -/

/-- `run` with as many pieces as the measure counts ends with nothing left. -/
theorem run_finished {n m : Nat} : ∀ (fuel : Nat) (order : List Nat) (w : FrameWork), w.Sound → Live w →
    w.cues ≤ n → w.openSlots + w.busySlots ≤ m → w.inHand n + w.toTake n m ≤ fuel → Finished (run fuel order w) := by
  intro fuel
  induction fuel with
  | zero =>
    intro order w h hl hn hm hf
    refine finished_of_none h hl (fun i hi => ?_)
    have := (take_lowers h (fun a => (hl.idle a).1) hn hm i hi).less
    omega
  | succ fuel ih =>
    intro order w h hl hn hm hf
    unfold run
    cases hp : w.pick (order.headD 0) with
    | none =>
      refine finished_of_none h hl (fun i hi => ?_)
      have hi := (mem_enabled w i).mpr hi
      have hlen := List.length_pos_of_mem hi
      unfold pick at hp
      rw [List.getElem?_eq_none_iff] at hp
      have := Nat.mod_lt (order.headD 0) hlen
      omega
    | some i =>
      have hi : w.may i := (mem_enabled w i).mp (List.mem_of_getElem? hp)
      have h1 := take_lowers h (fun a => (hl.idle a).1) hn hm i hi
      refine ih order.tail (w.take i) h1.sound (take_live h hl i hi) (Nat.le_trans h1.cues hn)
        (Nat.le_trans h1.slots hm) ?_
      have := h1.less
      omega

end FrameWork

/-- What a frame start begins with waits for nothing. -/
theorem beginFrame_live (s : State) (f : Nat) : (s.beginFrame f).Live :=
  ⟨fun a => (by cases a), fun a => absurd rfl a, fun o a => absurd a (by simp [State.beginFrame, frameAgenda]),
    fun _ a => (by cases a), fun a => (by cases a), fun a => (by cases a), fun a => (by cases a), fun a => (by cases a),
    .inl List.mem_cons_self, fun a => (by cases a)⟩

theorem beginFrame_sound (s : State) (f : Nat) (h : Safety.canonical s) : (s.beginFrame f).Sound :=
  ⟨h.2.2.1, Table.mapCells_wf _ _ _ h.2.2.2.1⟩

/-- FRAME_START ends with nothing left: its result is the state of some work that is finished. -/
theorem frameStart_finished (s : State) (course : FrameCourse) (h : Safety.canonical s) :
    ∃ w : FrameWork, s.frameStart course = w.s ∧ w.Finished :=
  ⟨_, rfl, FrameWork.run_finished _ course.picks _ (beginFrame_sound s _ h)
    ((beginFrame_live s _).same rfl rfl rfl rfl rfl) (Nat.le_refl _) (Nat.le_refl _) (Nat.le_refl _)⟩

end Sys2Proof.Machine
end

