-- ==== Sys2Proof/Laws/Intake.lean ====
section
/-! SUPPORT. How a fetched record reaches its owner: what every command that brings a record does (R164 to R166). -/

namespace Sys2Proof.Machine

/-- A command that brings a record does with it what the arrival of a fetched record does. -/
theorem exec_of_record (i : Instr) (r : RequestRecord) (s : State) (h : i.record = some r) :
    exec i s = .next (s.recordArrives r) := by
  cases i <;> simp only [Instr.record, Option.some.injEq, reduceCtorEq] at h <;> (subst h; rfl)

/-- An answer to a fetch that is to be discarded brings nothing (R162). -/
theorem State.recordArrives_stale (s : State) (r : RequestRecord) (q : Nat)
    (h : s.host.fetch = some { sq := q, stale := true }) :
    s.recordArrives r = { s with host := s.host.dropFetch q } := by
  simp [State.recordArrives, h]

/-- A fenced record waits while completions of its queue are outstanding (R166). -/
theorem State.recordArrives_fenced (s : State) (r : RequestRecord) (q : Nat)
    (h : s.host.fetch = some { sq := q, stale := false }) (hf : fenceFlag r.body = true)
    (ho : 0 < (s.host.sq q).outstanding) :
    s.recordArrives r = { s with host := ({ s.host with fetch := none } : HostUnit).holdFence q r } := by
  have ho' : 0 < (({ s.host with fetch := none } : HostUnit).sq q).outstanding := ho
  simp only [State.recordArrives, h]
  rw [if_neg (by simp), if_pos ⟨hf, ho'⟩]

/-- Any other record is taken (R164, R166). -/
theorem State.recordArrives_taken (s : State) (r : RequestRecord) (q : Nat)
    (h : s.host.fetch = some { sq := q, stale := false })
    (hf : fenceFlag r.body = true → (s.host.sq q).outstanding = 0) :
    s.recordArrives r = State.takeRecord { s with host := { s.host with fetch := none } } q r := by
  simp only [State.recordArrives, h]
  rw [if_neg (by simp), if_neg]
  rintro ⟨h1, h2⟩
  have h2 : 0 < (s.host.sq q).outstanding := h2
  have := hf h1
  omega

/-- A taken record is completed or routed by what the format checks say of it (R165). -/
theorem State.checkAndRoute_of_check (s : State) (ctx : Ctx) (r : RequestRecord) :
    s.checkAndRoute ctx r =
      match formatCheck s.componentsAt r with
      | .badKind => s.finishNow ctx .badKind r.kind.toNat
      | .badField offset => s.finishNow ctx .badField offset
      | .passed q => s.route ctx r.body.group.toNat q := rfl

end Sys2Proof.Machine
end

