-- ==== Sys2Proof/Laws/Resets.lean ====
section
/-! SUPPORT. What abandoning the loads, a host interface reset and entry into HALTED do, field by field. -/

namespace Sys2Proof.Machine

/-! ## Abandoning the loads (R33, R99) -/

/-- The scene that a load fills, if it fills one. -/
def Load.sceneOf (l : Load) : Option Nat :=
  match l.target with
  | .scene i => some i
  | .band _ => none

/-- The band that a load fills, if it fills one. -/
def Load.bandOf (l : Load) : Option Nat :=
  match l.target with
  | .scene _ => none
  | .band b => some b

/-- What abandoning a list of loads does. -/
structure Abandoned (l : List Load) (s t : State) : Prop where
  arbiter : t.arbiter = s.arbiter
  engine : t.engine = s.engine
  controller : t.controller = s.controller
  clock : t.clock = s.clock
  groups : t.groups = s.groups
  ports : t.ports = s.ports
  supply : t.supply = s.supply
  host : t.host = s.host
  pending : t.pending = s.pending
  loads : t.store.loads = s.store.loads
  stagedBands : t.bands.staged = s.bands.staged
  scene : ∀ i, t.store.scene i = if i ∈ l.filterMap Load.sceneOf then Scene.none else s.store.scene i
  band : ∀ b, t.bands.band b = if b ∈ l.filterMap Load.bandOf then Band.undefined else s.bands.band b
  notices : t.store.notices = s.store.notices ++
    (l.filterMap Load.sceneOf).map (fun i => { scene := i, state := .empty, frame := s.clock.frame + 1 })
  scenesWf : s.store.scenes.wf Scene.none = true → t.store.scenes.wf Scene.none = true
  bandsWf : s.bands.records.wf Band.undefined = true → t.bands.records.wf Band.undefined = true
  blocks : s.store.scenes.wf Scene.none = true →
    t.store.freeBlocks + Safety.heldBlocks t.store = s.store.freeBlocks + Safety.heldBlocks s.store

theorem abandonLoad_scene (s : State) (l : Load) (i : Nat) (h : l.target = .scene i) :
    s.abandonLoad l = State.notifyLoadEnd { s with store := s.store.emptyScene i } s.effectiveFrame i .empty := by
  simp [State.abandonLoad, h]

theorem abandonLoad_band (s : State) (l : Load) (b : Nat) (h : l.target = .band b) :
    s.abandonLoad l = { s with bands := s.bands.setBand b .undefined } := by
  simp [State.abandonLoad, h]

theorem abandonLoads_spec (l : List Load) : ∀ s : State, Abandoned l s (l.foldl State.abandonLoad s) := by
  induction l with
  | nil =>
    intro s
    exact ⟨rfl, rfl, rfl, rfl, rfl, rfl, rfl, rfl, rfl, rfl, rfl, fun _ => by simp, fun _ => by simp, by simp, id, id,
      fun _ => rfl⟩
  | cons x l ih =>
    intro s
    rw [List.foldl_cons]
    have h := ih (s.abandonLoad x)
    cases hx : x.target with
    | scene i =>
      have e := abandonLoad_scene s x i hx
      rw [e] at h ⊢
      have hs : x.sceneOf = some i := by simp [Load.sceneOf, hx]
      have hb : x.bandOf = none := by simp [Load.bandOf, hx]
      have hw : s.store.scenes.wf Scene.none = true → (s.store.emptyScene i).scenes.wf Scene.none = true :=
        fun w => Table.set_wf _ _ _ _ w
      exact
        { arbiter := h.arbiter, engine := h.engine, controller := h.controller, clock := h.clock, groups := h.groups,
          ports := h.ports, supply := h.supply, host := h.host, pending := h.pending, loads := h.loads,
          stagedBands := h.stagedBands
          scene := fun j => by
            rw [h.scene j, List.filterMap_cons, hs]
            show ite _ _ ((s.store.emptyScene i).scene j) = _
            have : (s.store.emptyScene i).scene j = (s.store.setScene i Scene.none).scene j := rfl
            rw [this, SceneStore.scene_setScene]
            by_cases hj : j = i <;> simp [hj]
          band := fun b => by rw [h.band b, List.filterMap_cons, hb]; rfl
          notices := by
            rw [h.notices, List.filterMap_cons, hs]
            simp [State.notifyLoadEnd, State.effectiveFrame, SceneStore.emptyScene]
          scenesWf := fun w => h.scenesWf (hw w)
          bandsWf := h.bandsWf
          blocks := fun w => (h.blocks (hw w)).trans (heldBlocks_emptyScene s.store i w) }
    | band b =>
      have e := abandonLoad_band s x b hx
      rw [e] at h ⊢
      have hs : x.sceneOf = none := by simp [Load.sceneOf, hx]
      have hb : x.bandOf = some b := by simp [Load.bandOf, hx]
      exact
        { arbiter := h.arbiter, engine := h.engine, controller := h.controller, clock := h.clock, groups := h.groups,
          ports := h.ports, supply := h.supply, host := h.host, pending := h.pending, loads := h.loads,
          stagedBands := h.stagedBands
          scene := fun j => by rw [h.scene j, List.filterMap_cons, hs]
          band := fun j => by
            rw [h.band j, List.filterMap_cons, hb]
            show ite _ _ ((s.bands.setBand b Band.undefined).band j) = _
            rw [BandUnit.band_setBand]
            by_cases hj : j = b <;> simp [hj]
          notices := by rw [h.notices, List.filterMap_cons, hs]
          scenesWf := h.scenesWf
          bandsWf := fun w => h.bandsWf (Table.set_wf _ _ _ _ w)
          blocks := h.blocks }

/-! ## The Host Queue Unit's part (R174) -/

@[simp] theorem HostUnit.interfaceReset_state (u : HostUnit) : u.interfaceReset.state = u.state := rfl
@[simp] theorem HostUnit.interfaceReset_haltCode (u : HostUnit) : u.interfaceReset.haltCode = u.haltCode := rfl
@[simp] theorem HostUnit.interfaceReset_haltQueue (u : HostUnit) : u.interfaceReset.haltQueue = u.haltQueue := rfl
@[simp] theorem HostUnit.interfaceReset_enable (u : HostUnit) : u.interfaceReset.enable = u.enable := rfl
@[simp] theorem HostUnit.interfaceReset_qtableLo (u : HostUnit) : u.interfaceReset.qtableLo = u.qtableLo := rfl
@[simp] theorem HostUnit.interfaceReset_qtableHi (u : HostUnit) : u.interfaceReset.qtableHi = u.qtableHi := rfl
@[simp] theorem HostUnit.interfaceReset_intCause (u : HostUnit) : u.interfaceReset.intCause = 0 := rfl
@[simp] theorem HostUnit.interfaceReset_intMask (u : HostUnit) : u.interfaceReset.intMask = u.intMask := rfl
@[simp] theorem HostUnit.interfaceReset_submission (u : HostUnit) : u.interfaceReset.submission = Table.empty := rfl
@[simp] theorem HostUnit.interfaceReset_completion (u : HostUnit) : u.interfaceReset.completion = Table.empty := rfl
@[simp] theorem HostUnit.interfaceReset_lastGranted (u : HostUnit) : u.interfaceReset.lastGranted = 3 := rfl
@[simp] theorem HostUnit.interfaceReset_fetch (u : HostUnit) : u.interfaceReset.fetch = none := rfl
@[simp] theorem HostUnit.interfaceReset_intakePause (u : HostUnit) : u.interfaceReset.intakePause = u.intakePause := rfl
@[simp] theorem HostUnit.interfaceReset_events (u : HostUnit) : u.interfaceReset.events = [] := rfl
@[simp] theorem HostUnit.interfaceReset_writes (u : HostUnit) : u.interfaceReset.writes = [] := rfl
@[simp] theorem HostUnit.interfaceReset_sq (u : HostUnit) (n : Nat) :
    u.interfaceReset.sq n = SubmissionQueue.inactive := rfl
@[simp] theorem HostUnit.interfaceReset_cq (u : HostUnit) (m : Nat) :
    u.interfaceReset.cq m = CompletionQueue.inactive := rfl

/-! ## The whole reset -/

/-- A host interface reset, said once: what its loads' abandonment leaves, with each block's own part over it. -/
theorem hostInterfaceReset_eq (s : State) :
    ∃ t, Abandoned s.store.loads s t ∧
      s.hostInterfaceReset =
        { t with
          store := { t.store with loads := [] }
          controller := s.controller.dropOwed
          bands := { t.bands with staged := s.bands.staged.map Staged.drop }
          clock := { s.clock with staged := s.clock.staged.map Staged.drop, reads := [] }
          groups := { hold := [], commits := s.groups.commits.map Staged.drop }
          ports := { s.ports with staged := s.ports.staged.map Staged.drop }
          supply := { s.supply with rise := s.supply.rise.map Owed.drop, fall := s.supply.fall.map Owed.drop }
          host := s.host.interfaceReset } := by
  have h := abandonLoads_spec s.store.loads s
  refine ⟨_, h, ?_⟩
  unfold State.hostInterfaceReset State.abandonLoads
  dsimp only
  rw [h.controller, h.clock, h.groups, h.ports, h.supply, h.host, h.stagedBands]

/-- Entry into HALTED is a host interface reset with another last touch to the unit (R161). -/
theorem State.halt_eq (s : State) (code : HaltCode) (queue : Nat) :
    s.halt code queue =
      { s.hostInterfaceReset with
        host := { s.hostInterfaceReset.host.raiseCause causeHalted with
          state := .halted
          haltCode := code
          haltQueue := queue } } := by
  unfold State.halt; rfl

/-- The interface turned off is a host interface reset with another last touch to the unit (R159). -/
theorem State.turnOff_eq (s : State) :
    s.turnOff =
      { s.hostInterfaceReset with
        host := { s.hostInterfaceReset.host with state := .off, enable := false } } := by
  unfold State.turnOff; rfl

/-! Each field after the interface is halted or turned off. They are proved of a reset state named by a variable, so
that the two records are not compared. -/

@[simp] theorem State.halt_arbiter (s : State) (code : HaltCode) (queue : Nat) :
    (s.halt code queue).arbiter = s.hostInterfaceReset.arbiter := by
  rw [State.halt_eq]
@[simp] theorem State.halt_store (s : State) (code : HaltCode) (queue : Nat) :
    (s.halt code queue).store = s.hostInterfaceReset.store := by
  rw [State.halt_eq]
@[simp] theorem State.halt_engine (s : State) (code : HaltCode) (queue : Nat) :
    (s.halt code queue).engine = s.hostInterfaceReset.engine := by
  rw [State.halt_eq]
@[simp] theorem State.halt_controller (s : State) (code : HaltCode) (queue : Nat) :
    (s.halt code queue).controller = s.hostInterfaceReset.controller := by
  rw [State.halt_eq]
@[simp] theorem State.halt_bands (s : State) (code : HaltCode) (queue : Nat) :
    (s.halt code queue).bands = s.hostInterfaceReset.bands := by
  rw [State.halt_eq]
@[simp] theorem State.halt_clock (s : State) (code : HaltCode) (queue : Nat) :
    (s.halt code queue).clock = s.hostInterfaceReset.clock := by
  rw [State.halt_eq]
@[simp] theorem State.halt_groups (s : State) (code : HaltCode) (queue : Nat) :
    (s.halt code queue).groups = s.hostInterfaceReset.groups := by
  rw [State.halt_eq]
@[simp] theorem State.halt_ports (s : State) (code : HaltCode) (queue : Nat) :
    (s.halt code queue).ports = s.hostInterfaceReset.ports := by
  rw [State.halt_eq]
@[simp] theorem State.halt_supply (s : State) (code : HaltCode) (queue : Nat) :
    (s.halt code queue).supply = s.hostInterfaceReset.supply := by
  rw [State.halt_eq]
@[simp] theorem State.halt_pending (s : State) (code : HaltCode) (queue : Nat) :
    (s.halt code queue).pending = s.hostInterfaceReset.pending := by
  rw [State.halt_eq]
@[simp] theorem State.turnOff_arbiter (s : State) :
    (s.turnOff).arbiter = s.hostInterfaceReset.arbiter := by
  rw [State.turnOff_eq]
@[simp] theorem State.turnOff_store (s : State) :
    (s.turnOff).store = s.hostInterfaceReset.store := by
  rw [State.turnOff_eq]
@[simp] theorem State.turnOff_engine (s : State) :
    (s.turnOff).engine = s.hostInterfaceReset.engine := by
  rw [State.turnOff_eq]
@[simp] theorem State.turnOff_controller (s : State) :
    (s.turnOff).controller = s.hostInterfaceReset.controller := by
  rw [State.turnOff_eq]
@[simp] theorem State.turnOff_bands (s : State) :
    (s.turnOff).bands = s.hostInterfaceReset.bands := by
  rw [State.turnOff_eq]
@[simp] theorem State.turnOff_clock (s : State) :
    (s.turnOff).clock = s.hostInterfaceReset.clock := by
  rw [State.turnOff_eq]
@[simp] theorem State.turnOff_groups (s : State) :
    (s.turnOff).groups = s.hostInterfaceReset.groups := by
  rw [State.turnOff_eq]
@[simp] theorem State.turnOff_ports (s : State) :
    (s.turnOff).ports = s.hostInterfaceReset.ports := by
  rw [State.turnOff_eq]
@[simp] theorem State.turnOff_supply (s : State) :
    (s.turnOff).supply = s.hostInterfaceReset.supply := by
  rw [State.turnOff_eq]
@[simp] theorem State.turnOff_pending (s : State) :
    (s.turnOff).pending = s.hostInterfaceReset.pending := by
  rw [State.turnOff_eq]

/-- A playback after its reports are dropped (R83). -/
theorem playback_dropOwed (c : PlaybackController) (h : c.playbacks.wf Playback.atReset = true) (p : Nat) :
    c.dropOwed.playback p = (c.playback p).unreport :=
  Table.get_mapCells Playback.atReset (fun _ q => q.unreport) _ p rfl h

end Sys2Proof.Machine
end

