-- ==== Sys2Proof/Tests/Slice0.lean ====
section
/-! SUPPORT. The model's own tests: the well-formedness checks, the worked examples of the spec, and for each statement
that has hypotheses a witness that meets them. -/

namespace Sys2Proof.Tests

set_option Elab.async false

open Machine Safety Claims

/-! ## Builders -/

/-- The 56 bytes after a record's header, from the bytes listed by their offset; the others are 0. -/
def params (l : List (Nat × Byte)) : List Byte := (List.range 56).map (fun i => (l.lookup (i + 8)).getD 0)

/-- A record of tag 0x1234. -/
def record (l : List (Nat × Byte)) (flags : Byte := 0) (group : Byte := 0) : RecordBody :=
  { flags := flags, group := group, reserved3 := 0, tag := 0x1234, reserved6 := 0, params := params l }

/-- A submission queue at its last entry, and the completion queue it is bound to, with one entry set aside. -/
def lane : SubmissionQueue := { SubmissionQueue.inactive with state := .active, size := 4, head := 3, tail := 1 }
def room : CompletionQueue :=
  { CompletionQueue.inactive with active := true, size := 16, tail := 15, head := 15, reserved := 1, nextSequence := 65535 }

/-- RUNNING, with the record of queue 0 just fetched. -/
def ready : State :=
  { State.reset with
    host := { HostUnit.atReset with
      state := .running, enable := true, submission := ⟨[(0, lane)]⟩, completion := ⟨[(0, room)]⟩
      fetch := some { sq := 0, stale := false } } }

/-- RUNNING, with no fetch out. -/
def running : State := { ready with host := { ready.host with fetch := none } }

/-- The context of the record that `ready` has fetched. -/
def ctx : Ctx := { tag := 0x1234, sq := 0, head := 0 }

/-- A completion that its request still owes. -/
def owed : Owed := { ctx := ctx, dropped := false }

/-- The next state of an outcome. -/
def after (o : Host.Outcome State Fault Refusal) : Option State :=
  match o with
  | .next t => some t
  | .fault _ => none
  | .refused _ => none

/-- A frame start with these picks, and with this load data and these arrivals inside it. -/
def course (picks : List Nat) (items : List LoadItem := []) (intake : List IntakeArrival := []) : FrameCourse :=
  { picks := picks, answers := items.map .item, intake := intake }

/-- Status code and detail of the last record written (11.2). -/
def lastPosted (s : State) : Option (Nat × Nat) :=
  s.host.writes.getLast?.map (fun w => (leAt w.bytes 1 1, leAt w.bytes 8 4))

/-- What a command posts from a state. -/
def posts (c : Instr) (s : State) : Option (Nat × Nat) := (after (exec c s)).bind lastPosted

/-! ## Well-formedness -/

theorem test_wf_accepts_a_record : (Instr.nop (record [])).wf = true := by decide +kernel
theorem test_wf_refuses_a_short_record : (Instr.nop { record [] with params := [] }).wf = false := by decide +kernel
theorem test_wf_refuses_a_short_table : (Instr.queueTableRead (some (params []))).wf = false := by decide +kernel
theorem test_wf_refuses_a_register_with_its_own_command :
    (Instr.registerWrite 0x14 4 0).wf = false ∧ (Instr.registerWrite 0x38 4 0).wf = true := by decide +kernel
theorem test_wf_refuses_a_wide_access : (Instr.registerWrite 0x38 8 0).wf = false := by decide +kernel
theorem test_wf_refuses_a_known_kind :
    (Instr.unknownKindRecord 0x01 (record [])).wf = false ∧
    (Instr.unknownKindRecord 0x03 (record [])).wf = true := by decide +kernel
theorem test_wf_refuses_a_record_without_fence :
    (Instr.fencedRecordFetched { kind := 0x01, body := record [] }).wf = false ∧
    (Instr.fencedRecordFetched { kind := 0x01, body := record [] 1 }).wf = true := by decide +kernel
theorem test_wf_refuses_a_load_item_of_five_bytes :
    (Instr.loadItemReceived { load := 0, bytes := [0, 0, 0, 0, 0] }).wf = false ∧ (Instr.loadItemReceived { load := 0, bytes := [0, 0, 0, 0] }).wf = true := by
  decide +kernel

theorem test_wf_refuses_a_frame_start_with_an_item_of_five_bytes :
    (Instr.frameStart (course [] [{ load := 0, bytes := [0, 0, 0, 0, 0] }])).wf = false ∧
    (Instr.frameStart (course [1] [{ load := 0, bytes := [0, 0, 0, 0, 0, 0] }])).wf = true := by decide +kernel

theorem test_wf_refuses_a_frame_start_with_a_record_without_group :
    (Instr.frameStart (course [] [] [.record { kind := Kind.setMaster.code, body := record [] }])).wf = false ∧
    (Instr.frameStart (course [] [] [.grant, .record { kind := Kind.setMaster.code, body := record [] 0 3 }])).wf = true := by
  decide +kernel

/-! ## The worked examples of the spec -/

/-- R37's table. -/
theorem test_times_become_frames :
    [(300, 250), (5, 250), (1, 250), (7, 30), (65535, 400), (0, 250)].map (fun x => framesOf x.1 x.2) =
      [120, 2, 1, 24, 16384, 0] := by decide +kernel

/-- A slot of length 8 that started at frame 0. -/
def fade (c : Curve) : FadeRun :=
  { kind := .release, playback := 0, start := 0, length := 8, curve := c, pausedAt := none, accumulatedPause := 0,
    count := 1 }

/-- 3.5: SCURVE from 1000 to 61000 in 8 frames. -/
theorem test_scurve_levels :
    (List.range 9).map (fun n => ((fade .scurve).level n 1000 61000).toNat) =
      [1000, 3578, 10375, 19984, 31000, 42015, 51625, 58421, 61000] := by decide +kernel

/-- 3.5: SQUARE over the same way, and the falling SCURVE, which truncates toward its from level. -/
theorem test_square_and_falling_levels :
    (List.range 9).map (fun n => ((fade .square).level n 1000 61000).toNat) =
      [1000, 1937, 4750, 9437, 16000, 24437, 34750, 46937, 61000] ∧
    ((fade .scurve).level 1 61000 1000).toNat = 58422 := by decide +kernel

/-- 8.8: three configurations and the smallest period each fits. -/
def strip (pixels components depth : Nat) (rate : Rate) : PortConfig :=
  { PortConfig.atReset with enable := true, pixels := pixels, components := components, depth := depth, rate := rate }
theorem test_smallest_periods :
    [strip 512 4 8 .mbit8, strip 300 3 16 .mbit4, strip 170 3 8 .mbit08].map PortConfig.smallestPeriod =
      [29, 46, 64] := by decide +kernel

/-- The check of 11.6 on the digits 1 to 9, a published value of this CRC. -/
theorem test_check_of_digits :
    crc16 [0x31, 0x32, 0x33, 0x34, 0x35, 0x36, 0x37, 0x38, 0x39] = 0x29B1 := by decide +kernel

/-- 6.9: the level 40000 under the master 49152. -/
theorem test_master_scales : scaledLevel 49152 40000 = 30000 := by decide +kernel


/-! ## Witnesses of the interface, the registers and intake -/

/-- Tables of every kind are listed, and canonical. -/
theorem witness_ColdResetReturnsEveryBlock : canonical ready ∧ ready ≠ State.reset := by
  refine ⟨?_, by decide +kernel⟩; unfold canonical; decide +kernel

theorem witness_EnableAndLinkResetMoveTheInterface :
    (canonical State.reset ∧ State.reset.host.state = .off) ∧ canonical ready ∧ ready.host.state ≠ .off := by
  unfold canonical; decide +kernel

/-- A queue table of 144 bytes from the bytes listed by their offset. -/
def table (l : List (Nat × Byte)) : List Byte := (List.range 144).map (fun i => (l.lookup i).getD 0)

/-- STARTING, with the table at 0x1000. -/
def starting : State :=
  { State.reset with host := { HostUnit.atReset with state := .starting, enable := true, qtableLo := 0x1000 } }

/-- Queue 3 of each kind is active: the submission ring of 1,024 entries ends at 2^64, the completion ring has 4. -/
def legalTable : List Byte :=
  table [(50, 0xFF), (51, 0xFF), (52, 0xFF), (53, 0xFF), (54, 0xFF), (55, 0xFF), (57, 4), (58, 3), (59, 1), (112, 0x10),
    (120, 4), (123, 1), (128, 3)]

/-- One table for each check that fails first. -/
def misalignedTable : List Byte := table [(16, 0x20), (24, 2), (27, 1)]
def badSizeTable : List Byte := table [(8, 1), (11, 1)]
def unboundTable : List Byte := table [(8, 2), (10, 1), (11, 1), (72, 4), (75, 1)]
def noEventTable : List Byte := table [(72, 4), (75, 1), (128, 4)]

theorem test_table_checks :
    tableFault 0x1000 misalignedTable = some (.misaligned, 1) ∧ tableFault 0x1000 badSizeTable = some (.badSize, 0) ∧
    tableFault 0x1000 unboundTable = some (.sqUnbound, 0) ∧ tableFault 0x1000 noEventTable = some (.eventCq, 0) ∧
    tableFault 0x1020 noEventTable = some (.misaligned, 0) := by decide +kernel

theorem witness_QueueTableAccepted :
    starting.host.state = .starting ∧ tablePasses (tableAddress starting) legalTable := by
  refine ⟨rfl, by decide +kernel, fun c hc => ?_⟩
  simp only [List.mem_cons, List.not_mem_nil, or_false] at hc
  rcases hc with rfl | rfl | rfl | rfl <;> (unfold checkFails activeCq; decide +kernel)

/-- RUNNING, with a write to completion queue 0 unanswered. -/
def writing : State :=
  { running with host := { running.host with writes := [{ queue := 0, address := 0, bytes := [] }] } }

theorem witness_HaltsFollowFailedChecksAndWrites :
    canonical starting ∧ starting.host.state = .starting ∧
    tableHalts 0x1020 noEventTable .misaligned 0 ∧ tableHalts 0x1000 misalignedTable .misaligned 1 ∧
    tableHalts 0x1000 badSizeTable .badSize 0 ∧ tableHalts 0x1000 unboundTable .sqUnbound 0 ∧
    tableHalts 0x1000 noEventTable .eventCq 0 := by
  refine ⟨by unfold canonical; decide +kernel, rfl, .inl (by decide), .inr ?_, .inr ?_, .inr ?_, .inr ?_⟩ <;>
    (simp only [earlierChecks, List.mem_cons, List.not_mem_nil, or_false, forall_eq_or_imp, forall_eq, checkFails,
      activeCq, false_implies, implies_true]
     decide +kernel)

theorem witness_CqWriteError :
    canonical writing ∧ writing.host.state = .running ∧ (∃ w ∈ writing.host.writes, w.queue = 0) ∧
    canonical starting ∧ starting.host.state ≠ .running ∧ canonical running ∧
    ∀ w ∈ running.host.writes, w.queue ≠ 0 := by
  unfold canonical; decide +kernel

/-- `running` with queue 1 FAULTED; queue 2 is INACTIVE. -/
def faulted : State :=
  { running with host := running.host.setSq 1 { lane with state := .faulted, tail := 2 } }

theorem witness_TailWritesByQueueState :
    State.reset.host.state ≠ .running ∧ faulted.host.state = .running ∧ (faulted.host.sq 2).state = .inactive ∧
    (faulted.host.sq 1).state = .faulted ∧ (faulted.host.sq 1).size = 4 ∧
    (faulted.host.sq 0).state = .active ∧ (faulted.host.sq 0).size = 4 ∧ (faulted.host.sq 0).head = 3 ∧
    ∀ q < 4, (faulted.host.sq q).fence = none := by
  decide +kernel

/-- A tail equal to the size faults the queue with BAD_TAIL; the event carries the detail 2 (11.2). -/
theorem test_tail_equal_to_size_faults :
    (after (exec (.sqTailWrite 0 4) ready)).map (fun t => ((t.host.sq 0).state, t.host.events.map (·.detail))) =
      some (.faulted, [2]) := by decide +kernel

/-- `running` with four records posted across the end of the ring of completion queue 0. -/
def posted : State :=
  { running with host := running.host.setCq 0 { room with head := 14, tail := 2, posted := 4 } }

theorem witness_HeadWritesReleaseEntries :
    (posted.host.cq 0).active = true ∧ (posted.host.cq 0).head < (posted.host.cq 0).size ∧
    (posted.host.cq 0).posted < (posted.host.cq 0).size ∧ posted.host.state = .running ∧
    (0x0000000E#32).toNat % 65536 = ((posted.host.cq 0).head + 0) % (posted.host.cq 0).size ∧
    (0xFFFF0002#32).toNat % 65536 = ((posted.host.cq 0).head + 4) % (posted.host.cq 0).size ∧
    (∀ k ≤ 4, (0x00000003#32).toNat % 65536 ≠ (14 + k) % 16) ∧ (posted.host.cq 1).active = false ∧
    State.reset.host.state ≠ .running := by
  decide +kernel

theorem test_head_write_releases :
    (after (exec (.cqHeadWrite 0 1) posted)).map (fun t => ((t.host.cq 0).head, (t.host.cq 0).posted)) = some (1, 1) ∧
    (after (exec (.cqHeadWrite 0 3) posted)).map (fun t => t.host.intCause) = some 0b100000 := by decide +kernel

theorem witness_RegisterAccessesAreWholeWords :
    ready.host.haltQueue < 4 ∧ (∀ n < 4, (ready.host.sq n).tail < 65536) ∧ (∀ n < 4, (ready.host.cq n).head < 65536) ∧
    (0x00000001#32).getLsbD 0 = (0xFFFFFFFF#32).getLsbD 0 ∧
    (0x00010002#32).toNat % 65536 = (0x00000002#32).toNat % 65536 ∧
    (0x0000003F#32).setWidth 6 = (0xFFFFFFFF#32).setWidth 6 ∧ (0x3C ≤ 0x3C ∨ 4 ≠ 4) := by decide +kernel

/-- The registers right after cold reset (R171, R174), and IFSTATE of a HALTED interface (11.7). -/
theorem test_register_reads :
    [0x00, 0x04, 0x08, 0x34, 0x38, 0x3C].map (fun o => readRegister State.reset o 4) = [0x24080001, 0, 0, 0, 0, 0] ∧
    readRegister (starting.halt .sqUnbound 3) 0x08 4 = 0x00003403 ∧ readRegister ready 0x04 2 = 0 := by
  decide +kernel

/-- 11.7: the tail of queue 3 and the head of queue 0, INT_CAUSE, INT_MASK and ENABLE, each at its own offset. -/
theorem test_register_reads_back :
    [0x04, 0x20, 0x24, 0x34, 0x38].map (fun o => readRegister { ready with
      host := { ((ready.host.setSq 3 { SubmissionQueue.inactive with tail := 1023 }).setCq 0
        { CompletionQueue.inactive with head := 7 }) with intCause := 0x21, intMask := 0x3F } } o 4) =
      [1, 1023, 7, 0x21, 0x3F] := by decide +kernel

/-! ## Witnesses of intake -/

/-- `running` with queue 2 ready beside 0, both bound to completion queue 0; queue 0 was the last granted. -/
def crowd : State :=
  { running with
    host := { running.host.setSq 2 lane with lastGranted := 0 } }

theorem witness_GrantsAndFetches_grants :
    crowd.host.fetch = none ∧ grantable crowd ((crowd.host.lastGranted + 1 + 1) % 4) ∧
    (∀ e < 1, ¬grantable crowd ((crowd.host.lastGranted + 1 + e) % 4)) ∧
    grantable running ((running.host.lastGranted + 1 + 0) % 4) ∧ ready.host.fetch ≠ none ∧
    ∀ q < 4, ¬grantable State.reset q := by
  unfold grantable; decide +kernel

theorem test_grant_sets_an_entry_aside :
    (after (exec .intakeGrant crowd)).map (fun t => (t.host.fetch, (t.host.cq 0).reserved)) =
      some (some { sq := 2, stale := false }, 2) := by decide +kernel

/-- `ready` with its fetch to be discarded. -/
def stale : State := { ready with host := { ready.host with fetch := some { sq := 0, stale := true } } }

theorem witness_GrantsAndFetches_answers :
    ready.host.fetch = some { sq := 0, stale := false } ∧ (ready.host.sq 0).fence = none ∧
    stale.host.fetch = some { sq := 0, stale := true } := by decide +kernel

/-- The record of a NOP with FENCE set. -/
def fencedNop : RequestRecord := { kind := 0x01, body := record [] 1 }

/-- A fence wait of queue 0 that counts `n` completions, with as many outstanding; `fetched` is the fetch. -/
def fencing (n : Nat) (fetched : Option Fetch) : State :=
  { running with
    host := { running.host.setSq 0 { lane with fence := some { record := fencedNop, count := n }, outstanding := n } with
      fetch := fetched } }

theorem witness_FencesHoldAndReleaseRecords :
    (Instr.fencedRecordFetched fencedNop).record = some fencedNop ∧ fenceFlag fencedNop.body = true ∧
    (fencing 1 (some { sq := 0, stale := false })).host.fetch = some { sq := 0, stale := false } ∧
    0 < ((fencing 1 (some { sq := 0, stale := false })).host.sq 0).outstanding ∧
    ((fencing 0 none).host.sq 0).fence = some { record := fencedNop, count := 0 } ∧
    ((fencing 0 none).host.sq 0).outstanding = 0 ∧ (fencing 0 none).host.state = .running ∧
    (fencing 0 none).host.fetch = none ∧ (fencing 0 none).host.intakePause = false ∧
    ((fencing 1 none).host.sq 0).fence = some { record := fencedNop, count := 1 } := by decide +kernel

theorem test_fence_is_held_and_taken :
    (after (exec (.fencedRecordTaken 0) (fencing 1 none))).bind lastPosted = none ∧
    (after (exec (.fencedRecordTaken 0) (fencing 0 none))).bind lastPosted = some (0, 0) := by decide +kernel

/-- The fence wait of `fencing 0` may be taken; no queue of `faulted` has one. -/
theorem witness_TailWritesByQueueState_fence :
    fenceDue (fencing 0 none) (0 : Fin 4) ∧ ∀ q : Fin 4, ¬fenceDue faulted q := by
  refine ⟨⟨⟨_, rfl, rfl⟩, rfl, rfl, rfl⟩, fun q h => ?_⟩
  obtain ⟨⟨w, hw, -⟩, -⟩ := h
  have : ∀ q : Fin 4, (faulted.host.sq q).fence = none := by decide +kernel
  rw [this q] at hw
  cases hw

/-- R175: a tail that faults the queue finds its fence wait already taken, so that the NOP completes OK. -/
theorem test_bad_tail_takes_the_fence_first :
    (after (exec (.sqTailWrite 0 4) (fencing 0 none))).map (fun t => ((t.host.sq 0).state, lastPosted t)) =
      some (.faulted, some (0, 0)) := by decide +kernel

/-! ## Witnesses of the format checks and of completions -/

/-- COMMIT of group 15 and of group 0, whose parameter is out of range. -/
def commit15 : RecordBody := record [(8, 15)]
def commit0 : RecordBody := record [(8, 0)]

/-- The least byte that offends is 1 for reserved flags; REPORT and a group offend next; then the parameters. -/
theorem test_format_checks_in_order :
    formatCheck (fun _ => 3) { kind := 0x50, body := record [(8, 16), (63, 1)] 6 99 } = .badField 1 ∧
    formatCheck (fun _ => 3) { kind := 0x50, body := record [(8, 16), (63, 1)] 2 99 } = .badField 63 ∧
    formatCheck (fun _ => 3) { kind := 0x50, body := record [(8, 16)] 2 99 } = .badField 1 ∧
    formatCheck (fun _ => 3) { kind := 0x50, body := record [(8, 16)] 0 99 } = .badField 2 ∧
    formatCheck (fun _ => 3) { kind := 0x50, body := record [(8, 16)] } = .badField 8 ∧
    formatCheck (fun _ => 3) { kind := 0x50, body := commit15 } = .passed (.commit 15) ∧
    formatCheck (fun _ => 3) { kind := 0x51, body := commit0 } = .badField 8 := by decide +kernel

theorem witness_FormatChecksInOrder :
    (reservedSet .commit (record [(63, 1)]) 63 ∧ ∀ j < 63, ¬reservedSet .commit (record [(63, 1)]) j) ∧
    (reportFlag (record [] 2) = true ∧ Kind.commit ≠ .runCue) ∧
    (15 < (record [] 0 16).group.toNat ∧ (record [] 0 15).group ≠ 0 ∧ ¬mayCarryGroup .commit ∧ mayCarryGroup .go) ∧
    (∀ p ∈ limits (fun _ => 3) .commit commit15, p.2) ∧
    ((8, 1 ≤ field commit0 8 1 ∧ field commit0 8 1 ≤ 15) ∈ limits (fun _ => 3) .commit commit0 ∧
      ¬(1 ≤ field commit0 8 1 ∧ field commit0 8 1 ≤ 15)) := by
  unfold reservedSet mayCarryGroup limits
  refine ⟨by decide +kernel, by decide +kernel, by decide +kernel, ?_, ?_⟩
  · simp only [List.mem_singleton, forall_eq]; decide +kernel
  · exact ⟨List.mem_singleton.2 rfl, by decide +kernel⟩

theorem witness_no_reserved_byte : ∀ o, ¬reservedSet .commit commit15 o := by
  intro o h
  unfold reservedSet at h
  rcases h with h | h | h | h | ⟨h8, h64, hp, hv⟩
  · exact absurd h.2 (by decide +kernel)
  · exact h.2 rfl
  · exact h.2 rfl
  · exact h.2 rfl
  · have : ∀ o < 64, 8 ≤ o → o ∉ parameterBytes .commit → commit15.params.getD (o - 8) 0 = 0 := by decide +kernel
    exact hv (this o h64 h8 hp)

/-- No kind has the code 0x03; a COMMIT of group 0 fails its check. -/
theorem witness_RefusedRecordsCompleteAtIntake :
    (Instr.unknownKindRecord 0x03 (record [])).record = some { kind := 0x03, body := record [] } ∧
    takes ready 0 (record []) ∧ (0x03 : Byte) ∉ kindCodes ∧
    (Instr.commit commit0).record = some { kind := Kind.commit.code, body := commit0 } ∧ takes ready 0 commit0 ∧
    formatCheck ready.componentsAt { kind := Kind.commit.code, body := commit0 } = .badField 8 := by
  unfold takes; decide +kernel

theorem test_refused_records_complete :
    posts (.unknownKindRecord 0x03 (record [])) ready = some (6, 3) ∧ posts (.commit commit0) ready = some (7, 8) := by
  decide +kernel

theorem witness_CompletionAccounting :
    ({ owed with dropped := true } : Owed).dropped = true ∧ State.reset.host.state ≠ .running ∧ owed.dropped = false ∧
    ready.host.state = .running ∧ 0 < (ready.host.cq (ready.host.sq owed.ctx.sq).boundCq).reserved ∧
    (ready.host.cq (ready.host.sq owed.ctx.sq).boundCq).tail <
      (ready.host.cq (ready.host.sq owed.ctx.sq).boundCq).size := by decide +kernel

/-- The completion record of 11.2, byte by byte, and the sequence that wraps to 1 (R167). -/
theorem test_completion_record :
    (ready.finish owed .noSpace 0x01020304).host.writes =
      [{ queue := 0, address := 240,
         bytes := [1, 12, 0x34, 0x12, 0, 0, 0, 0, 0x04, 0x03, 0x02, 0x01, 0, 0, 0xFF, 0xFF] }] ∧
    ((ready.finish owed .noSpace 0).host.cq 0).nextSequence = 1 ∧ ((ready.finish owed .noSpace 0).host.cq 0).tail = 0 := by
  decide +kernel

/-! ## Witnesses of the requests at intake -/

/-- `ready` and `faulted` with a record of queue 0 fetched. -/
def fetched (s : State) : State := { s with host := { s.host with fetch := some { sq := 0, stale := false } } }

theorem witness_NopAndRestartQueueAnswer :
    (takes ready 0 (record []) ∧ passes ready .nop (record [])) ∧
    ((fencing 1 (some { sq := 0, stale := false })).host.fetch = some { sq := 0, stale := false } ∧
      fenceFlag (record [] 1) = true ∧ 0 < ((fencing 1 (some { sq := 0, stale := false })).host.sq 0).outstanding) ∧
    (takes (fetched faulted) 0 (record [(8, 1)]) ∧ passes (fetched faulted) .restartQueue (record [(8, 1)]) ∧
      ((taken (fetched faulted) 0).host.sq 1).state = .faulted ∧
      ((taken (fetched faulted) 0).host.sq 1).head < ((taken (fetched faulted) 0).host.sq 1).size ∧
      ((taken (fetched faulted) 0).host.sq 1).tail < ((taken (fetched faulted) 0).host.sq 1).size) ∧
    (takes ready 0 (record [(8, 0)]) ∧ passes ready .restartQueue (record [(8, 0)]) ∧
      ((taken ready 0).host.sq 0).state ≠ .faulted) := by
  unfold takes passes; decide +kernel

theorem test_restart_queue_passes_over_records :
    posts (.restartQueue (record [(8, 1)])) (fetched faulted) = some (0, 3) ∧
    posts (.restartQueue (record [(8, 0)])) ready = some (8, 0) ∧ posts (.nop (record [])) ready = some (0, 0) := by
  decide +kernel

theorem witness_FrameRequestsAreStaged :
    (takes ready 0 (record [(8, 15)]) ∧ (record [(8, 15)]).group = 0 ∧ passes ready .go (record [(8, 15)]) ∧
      passes ready .pause (record [(8, 15)]) ∧ passes ready .resume (record [(8, 15)]) ∧
      passes ready .clear (record [(8, 15)])) ∧
    (passes ready .release (record [(8, 15), (9, 1), (10, 0xFF), (11, 0xFF)]) ∧
      passes ready .startBand (record [(8, 7), (9, 7)]) ∧ passes ready .stopBand (record [(8, 7)]) ∧
      passes ready .setRoll (record [(8, 7), (9, 1), (10, 0x01), (11, 0xFF), (12, 1), (14, 0xFF), (15, 1)]) ∧
      passes ready .park (record [(8, 0xFF), (9, 0x0F), (10, 1)]) ∧
      passes ready .unpark (record [(8, 0), (10, 0), (11, 0x10)]) ∧ passes ready .setMaster (record [(8, 1)])) ∧
    passes ready .commit commit15 ∧ passes ready .showReset (record []) := by
  unfold takes passes; decide +kernel

theorem test_groupable_requests_are_staged :
    (groupables (record [(8, 7)])).map (fun e => e.2.1.groupable) = List.replicate 11 true ∧
    (after (exec (.setRoll (record [(8, 7), (9, 1), (10, 0x01), (11, 0xFF), (12, 1), (14, 0xFF), (15, 1)])) ready)).map
      (fun t => t.bands.staged) =
      some [{ frame := 1, owed := owed, request := .setRoll 7 (-255) 1 (some 511) }] := by decide +kernel

/-- `ready` with `n` requests held for group 3. -/
def holding (n : Nat) : State :=
  { ready with
    groups := { ready.groups with hold := List.replicate n { group := 3, ctx := ctx, request := .compose (.setMaster 1) } } }

theorem witness_HeldRequestsJoinAndLeave_hold :
    takes (holding 127) 0 (record [(8, 15)] 0 15) ∧ (record [(8, 15)] 0 15).group ≠ 0 ∧
    passes (holding 127) .go (record [(8, 15)] 0 15) ∧ (holding 127).groups.hold.length < 128 ∧
    takes (holding 128) 0 (record [(8, 15)] 0 15) ∧ passes (holding 128) .go (record [(8, 15)] 0 15) ∧
    128 ≤ (holding 128).groups.hold.length := by
  unfold takes passes; decide +kernel

theorem test_hold_full : posts (.go (record [(8, 15)] 0 15)) (holding 128) = some (15, 128) := by decide +kernel

/-- The arrival of SET_MASTER 32768 with group 3. -/
def joining : IntakeArrival := .record { kind := Kind.setMaster.code, body := record [(9, 128)] 0 3 }

/-- `holding 1` with two COMMITs of group 3 staged for frame 1. -/
def committing : State :=
  { holding 1 with
    groups := { (holding 1).groups with
      commits := [{ frame := 1, owed := owed, request := 3 }, { frame := 1, owed := owed, request := 3 }] }
    host := (holding 1).host.setCq 0 { room with reserved := 4 } }

/-- Status and detail of the records that a frame start with this course posts from `committing`, and what is held after. -/
def committed (c : FrameCourse) : Option (List (Nat × Nat) × Nat) :=
  (after (exec (.frameStart c) committing)).map (fun t =>
    (t.host.writes.map (fun w => (leAt w.bytes 1 1, leAt w.bytes 8 4)), t.groups.hold.length))

/-- R123: the second COMMIT finds the group empty, unless a request has joined between the two; a request that joins before
the first is released by it, and one that joins after both stays held. The held request and the one that joins each complete
with the master before, 65535 or what the first left. -/
theorem test_a_request_joins_between_two_commits :
    committed (course []) = some ([(0, 1), (0, 0), (0, 65535)], 0) ∧
    committed (course [0, 3, 0] [] [joining]) = some ([(0, 1), (0, 1), (0, 65535), (0, 1)], 0) ∧
    committed (course [2, 0] [] [joining]) = some ([(0, 2), (0, 0), (0, 65535), (0, 1)], 0) ∧
    committed (course [0, 0, 2] [] [joining]) = some ([(0, 1), (0, 0), (0, 65535)], 1) :=
  ⟨by decide +kernel, by decide +kernel, by decide +kernel, by decide +kernel⟩

/-- A frame start's work at which a grouped record arrives, a fence wait may be taken or nothing is held back. -/
theorem witness_HeldRequestsJoinAndLeave_arrival :
    (Instr.setMaster (record [(9, 128)] 0 3)).record = some { kind := Kind.setMaster.code, body := record [(9, 128)] 0 3 } ∧
    (record [(9, 128)] 0 3).group ≠ 0 ∧ (committing.beginFrame 1).resetSent = false ∧
    ((committing.beginFrame 1).applyShowReset owed).resetSent = true ∧
    (committing.host.sq 0).fence = none ∧ (record [(9, 128)] 0 0).group = 0 ∧
    (((committing.host.setSq 3 { SubmissionQueue.inactive with
      fence := some { record := { kind := Kind.setMaster.code, body := record [(9, 128)] 0 0 }, count := 0 } }).sq 3).fence.map
        (fun x => x.record.body.group)) = some 0 := by decide +kernel

theorem witness_HeldRequestsJoinAndLeave_abort :
    takes (holding 1) 0 (record [(8, 3)]) ∧ passes (holding 1) .abortGroup (record [(8, 3)]) := by
  unfold takes passes; decide +kernel

/-- `ready` with two entries set aside: the held request's and the ABORT_GROUP's. -/
theorem test_abort_group_completes_both :
    (after (exec (.abortGroup (record [(8, 3)]))
      { holding 1 with host := (holding 1).host.setCq 0 { room with reserved := 2 } })).map
        (fun t => t.host.writes.map (fun w => (leAt w.bytes 1 1, leAt w.bytes 8 4))) = some [(1, 0), (0, 1)] := by
  decide +kernel

/-- `ready` with port 0 accepted at 512 pixels of 4 components, 8 bits and 8 Mbit/s, which fits 29. -/
def wide : State := { ready with ports := ready.ports.setPort 0 { Port.atReset with accepted := strip 512 4 8 .mbit8 } }

theorem witness_PeriodsAndPortsAreCheckedAtIntake_period :
    takes wide 0 (record [(8, 29)]) ∧ passes wide .setFramePeriod (record [(8, 29)]) ∧ everyPortFits wide 29 ∧
    passes wide .setFramePeriod (record [(8, 28)]) ∧ ¬everyPortFits wide 28 ∧ field (record [(8, 28)]) 8 2 = 28 := by
  unfold takes passes everyPortFits fitsPeriod; decide +kernel

theorem test_frame_period_too_long : posts (.setFramePeriod (record [(8, 28)])) wide = some (19, 29) := by decide +kernel

/-- CONFIG_PORT of port 0 with 512 pixels of 4 components, 8 bits, at the rate of this code. -/
def portRecord (rate : Byte) : RecordBody :=
  record [(9, 1), (13, 2), (14, 4), (15, 8), (16, rate), (18, 255)]

/-- `ready` with this accepted period; at 0.8 Mbit/s the configuration needs 237. -/
def accepting (p : Nat) : State := { ready with clock := { ready.clock with acceptedPeriod := p } }

/-- A band of one pixel on port 0, and the same band RUNNING. -/
def onePixel : BandSetup :=
  { port := 0, firstPixel := 0, lead := 0, roll := 1, tail := 0, components := 3, pattern := [[1, 2, 3]], step := 1,
    stepPeriod := 1, originOffset := 0 }
def onePixelRun : BandRun := { originFrame := 0, priority := 0, firstChannel := 0, channelCount := 3, denied := 0 }
def rolling : State := { ready with bands := ready.bands.setBand 7 (.running onePixel onePixelRun) }

theorem witness_PeriodsAndPortsAreCheckedAtIntake_port :
    (takes (accepting 237) 0 (portRecord 0) ∧ passes (accepting 237) .configPort (portRecord 0) ∧
      fitsPeriod (portConfig (portRecord 0)) (accepting 237).clock.acceptedPeriod) ∧
    (takes (accepting 236) 0 (portRecord 0) ∧ passes (accepting 236) .configPort (portRecord 0) ∧
      field (portRecord 0) 9 1 = 1 ∧ ¬fitsPeriod (portConfig (portRecord 0)) (accepting 236).clock.acceptedPeriod) ∧
    (takes rolling 0 (portRecord 3) ∧ passes rolling .configPort (portRecord 3) ∧ field (portRecord 3) 8 1 = 0) := by
  unfold takes passes fitsPeriod; decide +kernel

theorem witness_PeriodsAndPortsAreCheckedAtIntake_band :
    (runningOn rolling 0 7 ∧ ∀ m < 7, ¬runningOn rolling 0 m) ∧ ∀ n, ¬runningOn (accepting 236) 0 n := by
  refine ⟨⟨⟨by decide, onePixel, onePixelRun, by decide +kernel, rfl⟩, ?_⟩, ?_⟩
  · intro m hm ⟨_, d, r, h, _⟩
    have : ∀ m < 7, rolling.bands.band m = .undefined := by decide +kernel
    rw [this m hm] at h; cases h
  · intro n ⟨_, d, r, h, _⟩
    cases h

theorem test_config_port_refusals :
    posts (.configPort (portRecord 3)) rolling = some (8, 7) ∧
    posts (.configPort (portRecord 0)) (accepting 236) = some (19, 237) := by
  decide +kernel

/-- READ_LEVELS of the channels 4094 and 4095. -/
def readLast : RecordBody := record [(8, 0xFE), (9, 0x0F), (10, 2)]

/-- `ready` with these snapshots held. -/
def reading (l : List Snapshot) : State := { ready with clock := { ready.clock with reads := l } }
def snapshot (f : Nat) (area : Option (List Byte)) : Snapshot :=
  { first := 0, count := 1, address := 0, captureFrame := f, ctx := ctx, area := area }

theorem witness_ReadLevelsIsHeldAndEnds :
    (takes (reading [snapshot 1 none]) 0 readLast ∧ passes (reading [snapshot 1 none]) .readLevels readLast ∧
      (reading [snapshot 1 none]).clock.reads.length < 2) ∧
    (takes (reading [snapshot 1 none, snapshot 1 none]) 0 readLast ∧
      passes (reading [snapshot 1 none, snapshot 1 none]) .readLevels readLast) ∧
    ((reading [snapshot 1 (some [5]), snapshot 2 (some [6])]).clock.reads[1]? = some (snapshot 2 (some [6])) ∧
      (snapshot 2 (some [6])).area ≠ none ∧
      ∀ x ∈ (reading [snapshot 1 (some [5]), snapshot 2 (some [6])]).clock.reads.take 1, x.captureFrame ≠ 2) ∧
    ∃ x ∈ (reading [snapshot 2 (some [5]), snapshot 2 (some [6])]).clock.reads.take 1, x.captureFrame = 2 := by
  unfold takes passes; decide +kernel

theorem test_snapshot_ends :
    posts (.readLevelsWriteDone 1) (reading [snapshot 1 (some [5]), snapshot (2 ^ 32 + 7) (some [6])]) = some (0, 7) ∧
    posts (.readLevelsWriteError 0) (reading [snapshot 1 (some [5])]) = some (23, 1) := by decide +kernel

/-- RUN_CUE of scene 255 on playback 15, with label 1. -/
def cueRecord (flags : Byte) : RecordBody := record [(8, 15), (9, 255), (10, 1), (18, 4), (19, 2)] flags

/-- `ready` with `n` cues pending on playback 15. -/
def cued (n : Nat) : State :=
  { ready with
    controller := ready.controller.setPlayback 15
      { Playback.atReset with
        pending := List.replicate n (newCue 0 ctx
          { playback := 15, scene := 255, label := 1, fadeTime := 0, delay := 0, followWait := 0, curve := .linear,
            trigger := .manual, report := false }) } }

theorem witness_RunCueJoinsThePendingList :
    (takes (cued 15) 0 (cueRecord 0) ∧ passes (cued 15) .runCue (cueRecord 0) ∧
      ((cued 15).controller.playback 15).pending.length < 16 ∧ reportFlag (cueRecord 0) = false) ∧
    (takes (cued 15) 0 (cueRecord 2) ∧ passes (cued 15) .runCue (cueRecord 2) ∧ reportFlag (cueRecord 2) = true) ∧
    (passes (cued 16) .runCue (cueRecord 0) ∧ 16 ≤ ((cued 16).controller.playback 15).pending.length) := by
  unfold takes passes; decide +kernel

theorem test_run_cue_answers :
    posts (.runCue (cueRecord 0)) (cued 15) = some (0, 16) ∧ posts (.runCue (cueRecord 2)) (cued 15) = none ∧
    posts (.runCue (cueRecord 0)) (cued 16) = some (14, 16) := by decide +kernel

/-- `ready` with playback 15 of priority 2 paused and owning one channel. -/
def pausedOwner : State :=
  { ready with
    arbiter := { channels := ⟨[(9, { holding := .settled 15 2 100, last := 100 })]⟩ }
    controller := ready.controller.setPlayback 15 { Playback.atReset with priority := 2, paused := some 0 } }

theorem witness_PlaybackConfigurationAndQuery :
    (takes ready 0 (record [(8, 15), (9, 7)]) ∧ passes ready .configPlayback (record [(8, 15), (9, 7)]) ∧
      stateCode ready 15 = 0 ∧ (ready.controller.playback 15).pending = []) ∧
    (passes pausedOwner .configPlayback (record [(8, 15), (9, 7)]) ∧ stateCode pausedOwner 15 ≠ 0) ∧
    (passes (cued 1) .configPlayback (record [(8, 15), (9, 7)]) ∧ ((cued 1).controller.playback 15).pending ≠ []) ∧
    passes ready .queryPlayback (record [(8, 15)]) := by
  unfold takes passes; decide +kernel

/-- The status word (R80, 11.3): PAUSED is 4, priority 2 stands in bits 5 to 3, one owned channel in bits 26 to 14. -/
theorem test_status_word :
    posts (.queryPlayback (record [(8, 15)])) pausedOwner = some (0, 4 + 8 * 2 + 16384) ∧
    posts (.configPlayback (record [(8, 15), (9, 7)])) ready = some (0, 56) := by decide +kernel

/-! ## Witnesses of scenes and bands at intake -/

/-- `ready` with scene 5 in this state, of 17 entries in 2 blocks, and `n` loads queued. -/
def sceneIn (state : SceneState) (useCount n : Nat) : State :=
  { ready with
    store := { ready.store.setScene 5 { state := state, entryCount := 17, blocks := 2, useCount := useCount, entries := [] } with
      freeBlocks := 2046
      loads := List.replicate n
        { id := 0, target := .scene 5, address := 0, itemCount := 17, itemSize := 4, received := 0, fetching := true,
          ctx := ctx } } }

/-- LOAD_SCENE of scene 5 with 1,024 entries, at the last area of host memory. -/
def sceneRecord : RecordBody :=
  record [(8, 5), (11, 4), (17, 0xF0), (18, 0xFF), (19, 0xFF), (20, 0xFF), (21, 0xFF), (22, 0xFF), (23, 0xFF)]

theorem witness_SceneRequestsAreChecked_load :
    (takes (sceneIn .loading 0 1) 0 sceneRecord ∧ passes (sceneIn .loading 0 1) .loadScene sceneRecord ∧
      ((sceneIn .loading 0 1).store.scene 5).state = .loading) ∧
    (passes (sceneIn .ready 1 0) .loadScene sceneRecord ∧ 0 < ((sceneIn .ready 1 0).store.scene 5).useCount) ∧
    (passes (sceneIn .ready 0 4) .loadScene sceneRecord ∧ 4 ≤ (sceneIn .ready 0 4).store.loads.length) ∧
    (passes (sceneIn .ready 0 3) .loadScene sceneRecord ∧ (sceneIn .ready 0 3).store.loads.length < 4 ∧
      blocksNeeded (field sceneRecord 10 2) = 64 ∧
      blocksNeeded (field sceneRecord 10 2) ≤ (sceneIn .ready 0 3).store.freeBlocks + 2) ∧
    ({ sceneIn .ready 0 3 with store := { (sceneIn .ready 0 3).store with freeBlocks := 61 } }.store.freeBlocks + 2 <
      blocksNeeded (field sceneRecord 10 2)) := by
  unfold takes passes; decide +kernel

theorem test_load_scene_answers :
    posts (.loadScene sceneRecord) (sceneIn .ready 1 0) = some (13, 1) ∧
    (after (exec (.loadScene sceneRecord) (sceneIn .ready 0 3))).map (fun t => (t.store.freeBlocks, t.store.loads.length)) =
      some (1984, 4) ∧
    posts (.loadScene sceneRecord)
      { sceneIn .ready 0 3 with store := { (sceneIn .ready 0 3).store with freeBlocks := 61 } } = some (12, 63) := by
  decide +kernel

theorem witness_SceneRequestsAreChecked_delete_and_query :
    takes (sceneIn .loading 0 1) 0 (record [(8, 5)]) ∧
    passes (sceneIn .loading 0 1) .deleteScene (record [(8, 5)]) ∧
    passes ready .deleteScene (record [(8, 5)]) ∧ (ready.store.scene 5).state = .empty ∧
    passes (sceneIn .ready 1 0) .deleteScene (record [(8, 5)]) ∧
    passes (sceneIn .ready 0 0) .deleteScene (record [(8, 5)]) ∧
    passes (sceneIn .ready 0 0) .queryScene (record [(8, 5)]) := by
  unfold takes passes; decide +kernel

/-- QUERY_SCENE's detail (11.3): READY is 2, 17 entries from bit 2, use count from bit 13, free blocks from bit 20. -/
theorem test_query_and_delete_scene :
    posts (.queryScene (record [(8, 5)])) (sceneIn .ready 1 0) = some (0, 2 + 4 * 17 + 8192 + 1048576 * 2046) ∧
    posts (.deleteScene (record [(8, 5)])) (sceneIn .ready 0 0) = some (0, 2) ∧
    posts (.deleteScene (record [(8, 5)])) ready = some (17, 0) := by decide +kernel

/-- LOAD_BAND of band 7 on port 7: a roll of 512 pixels, step -255. -/
def bandRecord : RecordBody :=
  record [(8, 7), (9, 7), (15, 2), (18, 0x01), (19, 0xFF), (20, 1)]

/-- `ready` with band 7 in this state, and `n` loads queued. -/
def bandIn (b : Band) (n : Nat) : State :=
  { sceneIn .loading 0 n with bands := ready.bands.setBand 7 b }

theorem witness_LoadBandIsChecked :
    takes (bandIn (.loading onePixel) 1) 0 bandRecord ∧ passes (bandIn (.loading onePixel) 1) .loadBand bandRecord ∧
    (bandIn (.loading onePixel) 1).bands.band 7 = .loading onePixel ∧
    passes rolling .loadBand bandRecord ∧ rolling.bands.band 7 = .running onePixel onePixelRun ∧
    passes (bandIn (.stopped onePixel) 4) .loadBand bandRecord ∧
    (bandIn (.stopped onePixel) 4).bands.band 7 = .stopped onePixel ∧
    4 ≤ (bandIn (.stopped onePixel) 4).store.loads.length ∧ passes (bandIn .undefined 3) .loadBand bandRecord ∧
    (bandIn .undefined 3).bands.band 7 = .undefined ∧ (bandIn .undefined 3).store.loads.length < 4 := by
  unfold takes passes; decide +kernel

theorem test_load_band_answers :
    posts (.loadBand bandRecord) (bandIn (.loading onePixel) 1) = some (8, 0) ∧
    posts (.loadBand bandRecord) rolling = some (13, 0) ∧
    (after (exec (.loadBand bandRecord) (bandIn .undefined 3))).map
      (fun t => t.store.loads.map (fun l => (l.itemCount, l.itemSize))) =
      some [(17, 4), (17, 4), (17, 4), (512, 6)] := by decide +kernel

/-! ## Witnesses of the supply -/

/-- A feed in slot `k`. -/
def feedIn (k : Nat) (state : FeedState) (good : Bool := false) : Feed :=
  { Feed.atReset with state := state, slot := k, good := good }

/-- `ready` with the feeds 0 to 2 as given. -/
def fed (u : Supply) (a b c : Feed) : State :=
  { ready with supply := { u with feeds := ⟨[(0, a), (1, b), (2, c)]⟩ } }

/-- DOWN with feeds in slots 1, 8 and 0, all OFF. -/
def down : State := fed Supply.atReset (feedIn 1 .off) (feedIn 8 .off) (feedIn 0 .off true)

/-- UP with every sequenced feed ON. -/
def up : State := fed { Supply.atReset with state := .up } (feedIn 1 .on true) (feedIn 8 .on true) (feedIn 0 .off true)

/-- RISING at slot 1, with its interval running; feed 1 of slot 8 waits. -/
def rising : State :=
  fed
    { Supply.atReset with
      state := .rising, currentSlot := 1, riseSet := [0, 1], interval := some { ms := 100, reached := false }
      rise := some owed }
    { feedIn 1 .ramping with deadline := some 1000 } (feedIn 8 .off) (feedIn 0 .off true)

/-- FALLING at slot 8, with its interval running; feed 0 of slot 1 is still ON. -/
def falling : State :=
  fed
    { Supply.atReset with
      state := .falling, currentSlot := 8, interval := some { ms := 100, reached := false }, fall := some owed }
    (feedIn 1 .on true) (feedIn 8 .off true) (feedIn 0 .off true)

theorem witness_FeedAndSupplySettings :
    (takes down 0 (record [(8, 5), (9, 8), (10, 1)]) ∧ passes down .configFeed (record [(8, 5), (9, 8), (10, 1)]) ∧
      down.supply.state = .down) ∧
    (passes up .configFeed (record [(8, 5), (9, 8), (10, 1)]) ∧ up.supply.state = .up) ∧
    (passes up .configSupply (record [(8, 255), (9, 1), (10, 1)]) ∧
      passes rising .configSupply (record [(8, 255), (9, 1), (10, 1)]) ∧ rising.supply.state = .rising) ∧
    (passes down .clearFault (record [(8, 63)]) ∧ passes falling .clearFault (record [(8, 63)]) ∧
      falling.supply.state = .falling) := by
  unfold takes passes; decide +kernel

theorem test_feed_and_supply_answers :
    posts (.configFeed (record [(8, 1), (9, 2), (10, 1)])) down = some (0, 8) ∧
    posts (.configFeed (record [(8, 1), (9, 2), (10, 1)])) up = some (8, 0) ∧
    posts (.configSupply (record [(8, 1), (9, 1), (10, 1)])) rising = some (8, 0) ∧
    posts (.configSupply (record [(8, 1), (9, 1), (10, 1)])) up = some (0, 0) ∧
    posts (.clearFault (record [(8, 63)]))
      (fed Supply.atReset (feedIn 1 .fault) (feedIn 8 .off) (feedIn 0 .fault)) = some (0, 5) := by decide +kernel

theorem witness_QueryFeedsReportsTheSupply :
    takes rising 0 (record []) ∧ passes rising .queryFeeds (record []) := by
  unfold takes passes; decide +kernel

/-- 11.3: RISING is 1, the current slot stands in bits 5 to 2, feed 0 RAMPING in bits 9 and 8. -/
theorem test_query_feeds : posts (.queryFeeds (record [])) rising = some (0, 1 + 4 * 1 + 256 * 1) := by decide +kernel

theorem witness_PowerUpAndDownBeginSequences_up :
    (takes down 0 (record []) ∧ passes down .powerUp (record []) ∧ legalSlots down.supply ∧
      ∃ n < 6, 1 ≤ (down.supply.feed n).slot ∧ (down.supply.feed n).state = .off) ∧
    (passes up .powerUp (record []) ∧ legalSlots up.supply ∧
      (∀ n < 6, 1 ≤ (up.supply.feed n).slot → (up.supply.feed n).state ≠ .off) ∧ everyFeedOn up.supply) ∧
    (passes rising .powerUp (record []) ∧ legalSlots rising.supply) ∧
    faultsOf (fed { Supply.atReset with policy := .all } (feedIn 1 .fault) (feedIn 8 .off) (feedIn 0 .off)).supply ≠ 0 ∧
    ¬everyFeedOn
      (fed { Supply.atReset with state := .up } (feedIn 1 .fault) (feedIn 8 .on) (feedIn 0 .off)).supply := by
  unfold takes passes legalSlots everyFeedOn; decide +kernel

theorem test_power_up :
    ((after (exec (.powerUp (record [])) down)).map
      (fun t => (t.supply.state, t.supply.currentSlot, t.supply.riseSet, (t.supply.feed 0).state))) =
      some (.rising, 1, [0, 1], .ramping) ∧
    posts (.powerUp (record [])) up = some (0, 0) ∧ posts (.powerUp (record [])) rising = some (8, 0) ∧
    posts (.powerUp (record []))
      (fed { Supply.atReset with policy := .all } (feedIn 1 .fault) (feedIn 8 .off) (feedIn 0 .off)) = some (20, 1) := by
  decide +kernel

theorem witness_PowerUpAndDownBeginSequences_down :
    (takes down 0 (record []) ∧ passes down .powerDown (record []) ∧ legalSlots down.supply) ∧
    (passes up .powerDown (record []) ∧ legalSlots up.supply) ∧
    (passes rising .powerDown (record []) ∧ legalSlots rising.supply) ∧
    passes falling .powerDown (record []) ∧ legalSlots falling.supply := by
  unfold takes passes legalSlots; decide +kernel

theorem test_power_down :
    ((after (exec (.powerDown (record [])) up)).map
      (fun t => (t.supply.state, t.supply.currentSlot, (t.supply.feed 0).state, (t.supply.feed 1).state))) =
      some (.falling, 8, .on, .off) ∧
    posts (.powerDown (record [])) down = some (0, 0) ∧ posts (.powerDown (record [])) rising = some (21, 0) := by
  decide +kernel

theorem witness_GoodInputsAndDeadlines :
    legalSlots rising.supply ∧ (rising.supply.feed 0).state = .ramping ∧ (rising.supply.feed 1).state ≠ .ramping ∧
    (rising.supply.feed 1).state ≠ .on ∧ legalSlots up.supply ∧ (up.supply.feed 0).state = .on := by
  unfold legalSlots; decide +kernel

/-- FEED_FAULT's detail (11.2): the cause in the low byte, the sequencer's state above it. -/
theorem test_feed_events :
    ((after (exec (.feedGoodDeasserted 0) up)).map
      (fun t => ((t.supply.feed 0).state, t.host.events.map (·.detail)))) = some (.fault, [0x0202]) ∧
    ((after (exec (.goodTimeout 0) rising)).map
      (fun t => ((t.supply.feed 0).cause, t.host.events.map (·.detail)))) = some (some .timeout, [0x0101]) ∧
    ((after (exec (.feedGoodAsserted 0) rising)).map (fun t => ((t.supply.feed 0).state, t.supply.currentSlot))) =
      some (.on, 1) := by decide +kernel

theorem witness_SlotIntervalsEnd :
    legalSlots rising.supply ∧ rising.supply.interval = some { ms := 100, reached := false } ∧
    rising.supply.state = .rising ∧ legalSlots falling.supply ∧
    falling.supply.interval = some { ms := 100, reached := false } ∧ falling.supply.state = .falling ∧
    down.supply.state ≠ .rising ∧ up.supply.state ≠ .falling := by
  unfold legalSlots; decide +kernel

/-- The good input and the interval's end together complete slot 1, and slot 8 begins; a fall goes on to slot 1. -/
theorem test_intervals_move_on :
    ((after (exec (.feedGoodAsserted 0) rising)).bind (fun t => after (exec .riseIntervalEnd t))).map
      (fun t => (t.supply.currentSlot, (t.supply.feed 1).state)) = some (8, .ramping) ∧
    ((after (exec .fallIntervalEnd falling)).map (fun t => (t.supply.currentSlot, (t.supply.feed 0).state))) =
      some (1, .off) := by decide +kernel

/-! ## Witnesses of frames and latches -/

/-- A canonical state with something in most blocks, and no work for frame 1. -/
def quiet : State :=
  { ready with
    arbiter := { channels := ⟨[(0, { holding := .free 65535, last := 1 }), (1, { holding := .settled 0 0 40000, last := 1 }),
      (2, { holding := .fading 0 0 63 1000 61000, last := 1 }), (4095, { holding := .band 7 0, last := 1 })]⟩ }
    engine := { slots := ⟨[(63, .inUse { fade .scurve with start := 0, count := 1 })]⟩ }
    bands := { records := ⟨[(7, .running { onePixel with pattern := [[7, 8, 9]] }
      { onePixelRun with firstChannel := 4093 })]⟩, staged := [] }
    clock := { ready.clock with
      master := 49152, parks := [{ first := 1, count := 1, level := 5 }], reads := [snapshot 0 none] }
    ports := { records := ⟨[(0, { Port.atReset with state := .held, applied := strip 1 3 8 .mbit8 })]⟩, staged := [] } }

theorem witness_FrameStartAdvancesTheFrame : canonical quiet ∧ noLoadEnds (course []) quiet ∧
    noLoadEnds (course [] [{ load := 0, bytes := [0, 0, 0, 0] }]) quiet :=
  ⟨by unfold canonical; decide +kernel, .inl rfl, .inr rfl⟩

/-- A playback at reset waits; so does one with a MANUAL head, in any frame. -/
theorem waits_at_reset (f : Nat) : waitsAt Playback.atReset f :=
  ⟨fun _ _ h => (by cases h), fun _ _ h => (List.not_mem_nil h).elim⟩

theorem manual_head_waits (p f : Nat) : waitsAt ((cued 1).controller.playback p) f := by
  by_cases h : 15 = p
  · subst h
    refine ⟨fun c rest h => ?_, fun _ c h => (List.not_mem_nil h).elim⟩
    cases h
    exact ⟨nofun, nofun⟩
  · have h0 : (cued 1).controller.playback p = Playback.atReset := by
      simp only [cued, PlaybackController.playback_setPlayback, Ne.symm h, if_false]
      rfl
    rw [h0]
    exact waits_at_reset f

theorem witness_QuietFrameStartOnlyCounts :
    canonical (cued 1) ∧ noLoadEnds (course [7] [] [.grant]) (cued 1) ∧ quietAt (cued 1) ((cued 1).clock.frame + 1) := by
  refine ⟨by unfold canonical; decide +kernel, .inl rfl, fun e h => (List.not_mem_nil h).elim, fun e h => (List.not_mem_nil h).elim,
    fun e h => (List.not_mem_nil h).elim, fun e h => (List.not_mem_nil h).elim, fun e h => (List.not_mem_nil h).elim,
    fun e h => (List.not_mem_nil h).elim, ?_, fun p => manual_head_waits p _⟩
  intro k r h
  cases h

theorem test_quiet_frame_start :
    after (exec (.frameStart (course [3, 1, 2])) quiet) = some { quiet with clock := { quiet.clock with frame := 1 } } := by
  decide +kernel

theorem witness_LatchWritesLastLevels :
    canonical quiet ∧ (quiet.arbiter.channel 0).holding = .free 65535 ∧
    (quiet.arbiter.channel 1).holding = .settled 0 0 40000 ∧
    (quiet.arbiter.channel 2).holding = .fading 0 0 63 1000 61000 ∧
    quiet.engine.slot 63 = .inUse { fade .scurve with start := 0, count := 1 } ∧
    (quiet.arbiter.channel 4095).holding = .band 7 0 ∧
    quiet.bands.band 7 = .running { onePixel with pattern := [[7, 8, 9]] } { onePixelRun with firstChannel := 4093 } := by
  unfold canonical; decide +kernel

/-- `quiet` at frame 1: FREE and SETTLED channels keep their levels, the fade stands at 3578, the band shows its third
component. -/
theorem test_latch_writes_last_levels :
    ((after (exec (.frameStart (course [])) quiet)).bind (fun t => after (exec (.latch false) t))).map
      (fun t => [0, 1, 2, 4095].map (fun c => (t.arbiter.channel c).last.toNat)) = some [65535, 40000, 3578, 9] := by
  decide +kernel

/-- A port with a feed that is OFF, and one with a feed that is ON. -/
def feeding : State :=
  { up with
    ports :=
      { records := ⟨[(0, { Port.atReset with state := .held, applied := { strip 1 3 8 .mbit8 with feed := some 5 } }),
          (1, { Port.atReset with state := .lost, lostAt := some 0, applied := { strip 1 3 16 .mbit8 with feed := some 0 } }),
          (7, { Port.atReset with state := .sending, missCount := 1, applied := { strip 1 3 8 .mbit8 with feed := some 2 } })]⟩
        staged := [] } }

theorem witness_LatchSendsAndCaptures :
    canonical feeding ∧ (feeding.ports.port 2).state = .disabled ∧
    ((feeding.ports.port 1).state ≠ .disabled ∧ feedAllows feeding (feeding.ports.port 1).applied) ∧
    ((quiet.ports.port 0).state = .held ∧ feedAllows quiet (quiet.ports.port 0).applied) ∧
    ((feeding.ports.port 0).state = .held ∧ ¬feedAllows feeding (feeding.ports.port 0).applied) ∧
    ((feeding.ports.port 7).state = .sending ∧ ¬feedAllows feeding (feeding.ports.port 7).applied) := by
  refine ⟨by unfold canonical; decide +kernel, by decide +kernel, ⟨by decide +kernel, fun n h => ?_⟩,
    ⟨by decide +kernel, fun n h => ?_⟩, ⟨by decide +kernel, fun h => ?_⟩, ⟨by decide +kernel, fun h => ?_⟩⟩
  · cases h; decide +kernel
  · cases h
  · exact absurd (h 5 rfl) (by decide +kernel)
  · exact absurd (h 2 rfl) (by decide +kernel)

/-- The latch of `quiet`: floor(65535 × 49152 / 65535) goes out on channel 0, the park level 5 on channel 1; with SAFE_IN
asserted the safe level goes out and SAFE_ENTERED is raised. -/
theorem test_latch_sends :
    ((after (exec (.latch false) quiet)).map (fun t => match (t.ports.port 0).line with
      | .sending w => (w.bytes.take 4, w.bytes.drop 6)
      | _ => ([], []))) = some ([0xA5, 0, 0, 1], [0xC0, 0, 0x02]) ∧
    ((after (exec (.latch true) quiet)).map (fun t => (t.clock.safe, t.host.events.map (·.kind)))) =
      some (true, [.safeEntered]) ∧
    ((after (exec (.latch false) quiet)).map (fun t => t.clock.reads.map (·.area))) = some [some [0x00, 0xC0]] := by
  decide +kernel

/-- Two pixels of three components, reversed, at depth 16 and at depth 8. -/
def wirePort (depth : Nat) : PortConfig := { strip 2 3 depth .mbit8 with reversed := true }

theorem witness_WireFrameLayout :
    (wirePort 16).pixels ≤ 512 ∧ (wirePort 16).components = 3 ∧ (wirePort 16).depth = 16 ∧ (wirePort 8).depth = 8 ∧
    [1, 2, 3, 4, 5, (0x0607 : Level)].length = (wirePort 16).pixels * (wirePort 16).components ∧
    [1, 2, 3, 4, 5, (0x0607 : Level)][(2 - 1 - 0) * 3 + 2]? = some 0x0607 ∧
    (strip 512 4 8 .mbit8).pixels ≤ 512 := by decide +kernel

theorem test_wire_frame :
    (wireFrame (wirePort 16) 0x1FE [1, 2, 3, 4, 5, 0x0607]).bytes.take 4 = [0xA5, 0xFE, 0x08, 0x02] ∧
    (wireFrame (wirePort 16) 0x1FE [1, 2, 3, 4, 5, 0x0607]).bytes.drop 6 = [0, 4, 0, 5, 6, 7, 0, 1, 0, 2, 0, 3] ∧
    (wireFrame (wirePort 8) 0x1FE [1, 2, 3, 4, 5, 0x0607]).bytes.drop 6 = [0, 0, 6, 0, 0, 0] := by decide +kernel

/-! ## Witnesses of the echo -/

/-- The wire frame of frame 9, and a port with echo check on that has sent it. -/
def wire9 : WireFrame := wireFrame (strip 1 3 8 .mbit8) 9 [1, 2, 3]
def echoing (state : PortState) (miss good : Nat) (line : PortLine) : State :=
  { ready with
    ports := ready.ports.setPort 7
      { Port.atReset with
        applied := { strip 1 3 8 .mbit8 with echoCheck := true }
        state := state, missCount := miss, goodCount := good, lostAt := if state = .lost then some 4 else none
        line := line } }

theorem witness_EchoDecidesThePort :
    ((echoing .sending 0 0 (.sending wire9)).ports.port 7).line = .sending wire9 ∧
    (((echoing .sending 0 0 (.window wire9 none)).ports.port 7).line = .window wire9 none ∧
      ((echoing .sending 0 0 (.window wire9 none)).ports.port 7).applied.echoCheck = true) ∧
    ((echoing .lost 0 2 (.window wire9 (some (9, wire9.check)))).ports.port 7).line =
      .window wire9 (some (9, wire9.check)) ∧
    ((echoing .lost 0 2 (.window wire9 (some (9, wire9.check)))).ports.port 7).lostAt ≠ none := by decide +kernel

theorem test_echo_verdicts :
    ((after (exec (.echoWindowClose 7) (echoing .sending 2 0 (.window wire9 none)))).map
      (fun t => ((t.ports.port 7).state, t.host.events.map (fun e => (e.kind, e.frame, e.detail))))) =
      some (.lost, [(.portLost, 9, 2)]) ∧
    ((after (exec (.echoWindowClose 7) (echoing .sending 1 0 (.window wire9 (some (9, 0)))))).map
      (fun t => ((t.ports.port 7).state, (t.ports.port 7).missCount))) = some (.sending, 2) ∧
    ((after (exec (.echoWindowClose 7) (echoing .lost 0 2 (.window wire9 (some (9, wire9.check)))))).map
      (fun t => ((t.ports.port 7).state, t.host.events.map (fun e => (e.kind, e.detail))))) =
      some (.sending, [(.portRegained, 5)]) := by decide +kernel

/-! ## Witnesses of load data and events -/

/-- A scene load of two entries with `received` taken in; the scene holds channel 4095. -/
def loading (received : Nat) : State :=
  { ready with
    store := { ready.store.setScene 5
        { state := .loading, entryCount := 2, blocks := 1, useCount := 0, entries := [(4095, 1)] } with
      freeBlocks := 2047
      nextLoad := 4
      loads := [{ id := 3, target := .scene 5, address := 0, itemCount := 2, itemSize := 4, received := received,
                  fetching := true, ctx := ctx }] } }

theorem witness_SceneLoadData :
    (loading 1).store.loads =
      [{ id := 3, target := .scene 5, address := 0, itemCount := 2, itemSize := 4, received := 1, fetching := true,
         ctx := ctx }] ∧
    4095 < pairOf 0x00 0x10 ∧ (∃ e ∈ ((loading 1).store.scene 5).entries, e.1 = pairOf 0xFF 0x0F) ∧
    pairOf 0xFE 0x0F ≤ 4095 ∧ (∀ e ∈ ((loading 1).store.scene 5).entries, e.1 ≠ pairOf 0xFE 0x0F) ∧
    0 + 1 < 2 ∧ 2 ≤ 1 + 1 := by decide +kernel

theorem test_scene_items :
    posts (.loadItemReceived { load := 3, bytes := [0xFE, 0x0F, 0x34, 0x12] }) (loading 1) = some (0, 2) ∧
    ((after (exec (.loadItemReceived { load := 3, bytes := [0xFE, 0x0F, 0x34, 0x12] }) (loading 1))).map (fun t => (t.store.scene 5).entries)) =
      some [(4095, 1), (4094, 0x1234)] ∧
    posts (.loadItemReceived { load := 3, bytes := [0xFF, 0x0F, 0, 0] }) (loading 1) = some (7, 1) ∧
    posts .loadHostReadError (loading 1) = some (22, 1) := by decide +kernel

/-- R26, R33: data of a load that is over changes nothing, whatever load is at the head by then. -/
theorem test_late_data_is_discarded :
    after (exec (.loadItemReceived { load := 2, bytes := [0xFE, 0x0F, 0x34, 0x12] }) (loading 1)) = some (loading 1) ∧
    after (exec .loadHostReadError ready) = some ready := by decide +kernel

/-- A load of the one colour of band 7. -/
def loadingBand : State :=
  { bandIn (.loading { onePixel with pattern := [] }) 0 with
    store := { ready.store with
      nextLoad := 4
      loads := [{ id := 3, target := .band 7, address := 0, itemCount := 1, itemSize := 6, received := 0,
                  fetching := true, ctx := ctx }] } }

theorem witness_BandLoadData :
    loadingBand.bands.band 7 = .loading { onePixel with pattern := [] } ∧
    [1, 2, 3, 4, 5, (6 : Byte)].length = 2 * onePixel.components ∧
    (∀ m < 3, [0x0201, 0x0403, (0x0605 : Level)][m]? =
      some (BitVec.ofNat 16 (pairOf ([1, 2, 3, 4, 5, (6 : Byte)].getD (2 * m) 0)
        ([1, 2, 3, 4, 5, (6 : Byte)].getD (2 * m + 1) 0)))) ∧
    ready.store.loads.head? = none ∧ loadingBand.store.loads.head?.map Load.id = some 3 := by decide +kernel

/-- Inside frame start 1: before the resets, and after the Band Unit's and after the store's. -/
theorem witness_BandLoadData_inside_a_frame_start :
    let w := loadingBand.beginFrame 1
    1 ≤ w.s.clock.frame ∧ w.resetStore = false ∧ w.resetBands = false ∧ w.showResetBands.resetBands = true ∧
    bandAtHead w.showResetBands.s ∧ w.showResetBands.resetStore = false ∧ w.showResetStore.resetStore = true := by
  refine ⟨by decide +kernel, rfl, rfl, rfl, ⟨_, 7, rfl, rfl⟩, rfl, rfl⟩

theorem test_band_items :
    posts (.loadItemReceived { load := 3, bytes := [1, 2, 3, 4, 5, 6] }) loadingBand = some (0, 1) ∧
    ((after (exec (.loadItemReceived { load := 3, bytes := [1, 2, 3, 4, 5, 6] }) loadingBand)).map (fun t => t.bands.band 7)) =
      some (.stopped { onePixel with pattern := [[0x0201, 0x0403, 0x0605]] }) ∧
    ((after (exec .loadHostReadError loadingBand)).map (fun t => t.bands.band 7)) = some .undefined := by decide +kernel

/-- `writing` with an event waiting. -/
def eventful : State :=
  { writing with
    host := { writing.host with events := [{ kind := .queueFault, object := 3, frame := 0x01020304, detail := 2 }] } }

theorem witness_EventsArePostedAndWritesAccepted :
    eventful.host.events = { kind := .queueFault, object := 3, frame := 0x01020304, detail := 2 } :: [] ∧
    eventful.host.cq eventful.host.eventQueue = room ∧ eventful.host.state = .running ∧
    room.posted + room.reserved < room.size - 1 ∧ room.tail < room.size ∧
    15 - 1 ≤ ({ room with posted := 14 } : CompletionQueue).posted ∧
    eventful.host.writes = [] ++ { queue := 0, address := 0, bytes := [] } :: [] ∧ ready.host.events = [] ∧
    ∀ w ∈ ready.host.writes, w.queue ≠ 0 := by decide +kernel

/-- The event record of 11.2, byte by byte. -/
theorem test_event_record :
    ((after (exec .eventPost eventful)).map (fun t => t.host.writes.getLast?.map (fun w => w.bytes))) =
      some (some [2, 6, 3, 0, 4, 3, 2, 1, 2, 0, 0, 0, 0, 0, 0xFF, 0xFF]) ∧
    ((after (exec (.recordWriteAccepted 0) eventful)).map (fun t => (t.host.writes, t.host.intCause))) =
      some ([], 1) := by decide +kernel

/-! ## Witnesses of the arbiter, the slots and the applied requests -/

/-- Four channels, one in each mode; playback 2 fades channel 5 under slot 10. -/
def held : Table Channel :=
  ⟨[(4, { holding := .settled 1 5 40, last := 40 }), (5, { holding := .fading 2 3 10 0 900, last := 450 }),
    (6, { holding := .band 4 3, last := 77 })]⟩

theorem witness_BatchesClaimEachChannel : (([(4, 1), (5, 2), (9, 3)] : List (Nat × Level)).map Prod.fst).Nodup := by
  decide +kernel

theorem witness_OrdersMoveAndLetGo : held.wf Channel.dark = true := by decide +kernel

/-- Playback 6 of priority 3 claims all four: channel 4 is denied, 5 and 6 are taken at equal priority, 9 is FREE. -/
theorem test_fade_batch :
    fadeBatch held 6 3 11 [(4, 1), (5, 2), (6, 3), (9, 4)] =
      (⟨[(4, { holding := .settled 1 5 40, last := 40 }), (5, { holding := .fading 6 3 11 450 2, last := 450 }),
        (6, { holding := .fading 6 3 11 77 3, last := 77 }), (9, { holding := .fading 6 3 11 0 4, last := 0 })]⟩,
       { granted := 3, denied := 1, lost := [(10, 1)] }) := by decide +kernel

/-- The orders on the same table. -/
theorem test_orders :
    ((settleOrder held 10).1.get Channel.dark 5, (stopOrder held 4).1.get Channel.dark 6,
      (clearOrder held 2).1.get Channel.dark 5, (snapOrder held 1).1.get Channel.dark 4) =
      ({ holding := .settled 2 3 900, last := 450 }, { holding := .free 77, last := 77 },
       { holding := .settled 2 3 450, last := 450 }, { holding := .free 0, last := 40 }) ∧
    (clearOrder held 2).2 = { granted := 1, denied := 0, lost := [(10, 1)] } := by decide +kernel

/-- A running slot, the same slot paused, and one of length 0. -/
theorem witness_FadeLevelsAreExactAndMonotonic :
    (fade .scurve).pausedAt = none ∧ ({ fade .scurve with pausedAt := some 3 } : FadeRun).pausedAt = some 3 ∧
    (1000 : Level) ≤ 61000 ∧ (fade .square).elapsed 9 = (fade .square).length ∧ (fade .square).elapsed 0 = 0 ∧
    1 ≤ (fade .square).length ∧ (fade .square).curve ≠ .snapStart ∧ (fade .square).start + 0 ≤ 7 ∧ 7 < 0 + 8 + 0 := by
  decide +kernel

/-- The band of 5.7, before and after the SET_ROLL of frame 110. -/
def chase : BandSetup :=
  { port := 2, firstPixel := 10, lead := 2, roll := 5, tail := 1, components := 3,
    pattern := (List.range 8).map (fun i => [BitVec.ofNat 16 i, 0, 0]), step := 2, stepPeriod := 3, originOffset := 0 }
def chaseRun : BandRun := { originFrame := 100, priority := 3, firstChannel := 1230, channelCount := 24, denied := 3 }
def retimed : BandSetup := { chase with step := -1, stepPeriod := 2, originOffset := 1 }

/-- 5.7: the offsets of both tables, and the pixels at offset 4. -/
theorem test_roll_offsets :
    (List.range 10).map (fun i => rollOffset chase 100 (100 + i)) = [0, 0, 0, 2, 2, 2, 4, 4, 4, 1] ∧
    (List.range 7).map (fun i => rollOffset retimed 110 (110 + i)) = [1, 1, 0, 0, 4, 4, 3] ∧
    (List.range 8).map (fun i => bandValue chase chaseRun 106 (1230 + 3 * i)) = [0, 1, 6, 2, 3, 4, 5, 7] := by
  decide +kernel

theorem witness_RollingMovesThePattern :
    2 < chase.components ∧ 1 ≤ chase.stepPeriod ∧ 1 ≤ chase.roll ∧ (7 < chase.lead ∨ chase.lead + chase.roll ≤ 7) ∧
    (chase.lead ≤ 6 ∧ 6 < chase.lead + chase.roll) ∧ ((2 : Int) - 0 - chase.step) % chase.roll = 0 ∧
    ((1 : Int) - 4 - chase.step) % chase.roll = 0 ∧ chaseRun.originFrame ≤ 100 ∧
    ({ chase with roll := 0 } : BandSetup).roll = 0 := by decide +kernel

/-- The work of a frame start at `ready`, over this table, these slots and these playbacks. -/
def work (channels : Table Channel) (slots : Table FadeSlot) (playbacks : Table Playback) : FrameWork :=
  { { ready with
      arbiter := { channels := channels }
      engine := { slots := slots }
      controller := { ready.controller with playbacks := playbacks } }.beginFrame 500 with
    agenda := [] }

/-- Slot 10 of `held`: a CUE slot of playback 2 with one channel. -/
def slotTen : FadeRun :=
  { kind := .cue 1 5, playback := 2, start := 400, length := 100, curve := .linear, pausedAt := none,
    accumulatedPause := 0, count := 1 }

/-- The slot request of a cue of playback 6 with these targets. -/
def request (pairs : List (Nat × Level)) : FrameWork.SlotRequest :=
  { kind := .cue 2 5, playback := 6, priority := 3, isPaused := true, pairs := pairs, length := 0, curve := .linear }

/-- Slots 0 to 9 are busy or not yet available, and 11 is the lowest that may be allocated; then none is. -/
def elevenFree : Table FadeSlot :=
  ⟨(List.range 10).map (fun k => (k, FadeSlot.free 501)) ++ [(10, .inUse slotTen)]⟩
def noneFree : Table FadeSlot := ⟨(List.range 64).map (fun k => (k, FadeSlot.free 501))⟩

theorem test_slot_requests :
    (match (work held elevenFree Table.empty).requestSlot (request [(4, 1), (5, 2)]) with
      | (w, .started k g d) => (k, g, d, w.mustEnd, w.notices.map (fun n => (n.slot, n.reason)))
      | _ => (0, 0, 0, [], [])) = (11, 1, 1, [11], [(10, .lost)]) ∧
    (match (work held elevenFree Table.empty).requestSlot (request [(4, 1)]) with
      | (w, .noChannels d) => (d, w.s.engine.slot 11)
      | _ => (0, .free 0)) = (1, .free 501) ∧
    (match (work held noneFree Table.empty).requestSlot (request [(4, 1)]) with
      | (_, .noSlot) => true
      | _ => false) = true := by decide +kernel

theorem witness_SlotRequestsAreAnswered :
    (work held elevenFree Table.empty).resetEngine = false ∧ (work held elevenFree Table.empty).resetArbiter = false ∧
    ((request [(4, 1), (5, 2)]).pairs.map Prod.fst).Nodup ∧ mayAllocate (work held elevenFree Table.empty) 11 ∧
    (∀ j < 11, ¬mayAllocate (work held elevenFree Table.empty) j) ∧
    ∀ k < 64, ¬mayAllocate (work held noneFree Table.empty) k := by
  refine ⟨rfl, rfl, by decide +kernel, ⟨0, by decide +kernel, by decide +kernel⟩, fun j hj => ?_, fun k hk => ?_⟩
  · have : ∀ j < 11, (work held elevenFree Table.empty).s.engine.slot j = .free 501 ∨
        (work held elevenFree Table.empty).s.engine.slot j = .inUse slotTen := by decide +kernel
    rintro ⟨a, ha, hle⟩
    rcases this j hj with h | h <;> rw [h] at ha <;> cases ha
    exact absurd hle (by decide +kernel)
  · have : ∀ k < 64, (work held noneFree Table.empty).s.engine.slot k = .free 501 := by decide +kernel
    rintro ⟨a, ha, hle⟩
    rw [this k hk] at ha; cases ha
    exact absurd hle (by decide +kernel)

/-- No channel of `held` names slot 11. -/
theorem witness_slot_eleven_is_named_by_no_channel :
    ∀ c, ((work held elevenFree Table.empty).s.arbiter.channel c).holding.slot ≠ some 11 := by
  intro c
  show (held.get Channel.dark c).holding.slot ≠ some 11
  by_cases h4 : 4 = c
  · subst h4; decide
  · by_cases h5 : 5 = c
    · subst h5; decide
    · by_cases h6 : 6 = c
      · subst h6; decide
      · simp [held, Table.get, Table.lookup, h4, h5, h6, Channel.dark, Holding.slot]

theorem witness_SlotsReachTheirEnd :
    (work held elevenFree Table.empty).resetArbiter = false ∧
    (work held elevenFree Table.empty).s.engine.slot 10 = .inUse slotTen ∧
    (work held elevenFree Table.empty).s.engine.slot 0 = .free 501 := by decide +kernel

/-- R10, R48: the show-reset order changes the three channels of `held` and takes one from slot 10, which the report frees,
unless the engine's own notice has freed it before (R52). -/
theorem test_show_reset_report :
    (showResetOrder held).2 = { granted := 3, denied := 0, lost := [(10, 1)] } ∧
    (work held elevenFree Table.empty).showResetArbiter.takeResetReport.s.engine.slot 10 = .free 501 ∧
    (work held elevenFree Table.empty).showResetArbiter.takeResetReport.notices.map (fun n => (n.slot, n.reason)) =
      [(10, .showReset)] ∧
    (work held elevenFree Table.empty).showResetArbiter.showResetEngine.takeResetReport.notices.map
      (fun n => (n.slot, n.reason)) = [(10, .showReset)] := by decide +kernel

theorem witness_ShowResetClearsTheShow_report :
    (work held elevenFree Table.empty).showResetArbiter.resetLosses = [(10, 1)] ∧
    (work held elevenFree Table.empty).showResetArbiter.resetLosses.Pairwise (fun a b => a.1 < b.1) := by decide +kernel

/-- The three cues of 4.11, as they stand in the pending list. -/
def cue (label scene fadeTime delay wait : Nat) (trigger : Trigger) (due : Option Nat) : Cue :=
  { newCue label ctx
      { playback := 1, scene := scene, label := label, fadeTime := fadeTime, delay := delay, followWait := wait,
        curve := .linear, trigger := trigger, report := true } with due := due }
def show1 : List Cue := [cue 1 10 20 0 0 .manual none, cue 2 11 10 0 8 .follow none, cue 3 12 0 5 0 .withPrevious none]

/-- Playback 1 of 4.11 with these cues pending and these in flight. -/
def playing (pending inFlight : List Cue) (paused : Option Nat := none) : Table Playback :=
  ⟨[(1, { Playback.atReset with
    priority := 2, defaultRelease := 100, pending := pending, inFlight := inFlight, paused := paused })]⟩

theorem witness_GoTriggersTheHead :
    25 ≤ (work held elevenFree (playing show1 [])).period ∧
    ((work held elevenFree (playing show1 [] (some 4))).s.controller.playback 1).paused ≠ none ∧
    ((work held elevenFree (playing show1 [])).s.controller.playback 1).pending = show1 ∧
    ((work held elevenFree (playing show1 [])).s.controller.playback 1).paused = none ∧
    4 ≤ ((work held elevenFree (playing show1 (List.replicate 4 (cue 9 0 0 0 0 .manual none)))).s.controller.playback
      1).inFlight.length := by decide +kernel

theorem witness_heads_that_may_go :
    headMayGo (work held elevenFree (playing [cue 3 12 0 5 0 .withPrevious (some 500)] [])) 1
      (cue 3 12 0 5 0 .withPrevious (some 500)) ∧
    ¬headMayGo (work held elevenFree (playing [cue 3 12 0 5 0 .withPrevious (some 501)] [])) 1
      (cue 3 12 0 5 0 .withPrevious (some 501)) := by
  unfold headMayGo
  refine ⟨⟨by decide +kernel, ⟨500, rfl, by decide +kernel⟩, by decide +kernel⟩, ?_⟩
  rintro ⟨_, ⟨d, hd, hle⟩, _⟩
  cases hd
  exact absurd hle (by decide +kernel)

/-- 4.11, frame start 102: GO triggers cue 1 with length 8, and the FOLLOW cue behind it has no due frame; frame start
115: a WITH cue that becomes head is due at once. -/
theorem test_go_and_chain :
    (((work held elevenFree (playing show1 [])).applyGo 1 owed).playback 1).inFlight.map
      (fun c => (c.label, c.length, c.due)) = [(1, 8, some 500)] ∧
    (((work held elevenFree (playing show1 [])).applyGo 1 owed).playback 1).pending.map (fun c => (c.label, c.due)) =
      [(2, none), (3, none)] ∧
    (((work held elevenFree (playing show1.tail [])).applyGo 1 owed).playback 1).pending.map
      (fun c => (c.label, c.due)) = [(3, some 500)] := by decide +kernel

/-- Playback 1 of 4.11 as it stands at frame start 120: paused at 117, cue 2 FADING under slot 0, cue 3 DELAYED. -/
def paused117 : FrameWork :=
  { work held
      ⟨[(0, .inUse { slotTen with playback := 1, start := 115, length := 4, pausedAt := some 117, count := 2 })]⟩
      (playing [] [{ cue 2 11 10 0 8 .follow none with state := .fading },
        { cue 3 12 0 5 0 .withPrevious (some 117) with state := .delayed }] (some 117)) with
    s := { (work held
      ⟨[(0, .inUse { slotTen with playback := 1, start := 115, length := 4, pausedAt := some 117, count := 2 })]⟩
      (playing [] [{ cue 2 11 10 0 8 .follow none with state := .fading },
        { cue 3 12 0 5 0 .withPrevious (some 117) with state := .delayed }] (some 117))).s with
      clock := { ready.clock with frame := 120 } } }

theorem witness_PauseAndResumeShiftThePlayback :
    canonical paused117.s ∧ (paused117.s.controller.playback 1).paused = some 117 ∧
    canonical (work held elevenFree (playing show1 [])).s ∧
    ((work held elevenFree (playing show1 [])).s.controller.playback 1).paused = none := by
  unfold canonical; decide +kernel

/-- 4.11, frame start 120: cue 3 is due at 120, slot 0's accumulated pause is 3, and RESUME completes OK with 3. -/
theorem test_resume_shifts :
    ((paused117.applyResume 1 owed).playback 1).inFlight.map (fun c => c.due) = [none, some 120] ∧
    (match (paused117.applyResume 1 owed).s.engine.slot 0 with
      | .inUse r => (r.pausedAt, r.accumulatedPause, r.endFrame)
      | .free _ => (none, 0, 0)) = (none, 3, 122) ∧
    lastPosted (paused117.applyResume 1 owed).s = some (0, 3) := by decide +kernel

theorem witness_ClearAndSnapLetGo :
    canonical (work held elevenFree (playing show1 [])).s ∧
    (work held elevenFree (playing show1 [])).resetArbiter = false ∧
    (work held elevenFree (playing show1 [])).notices = [] := by
  unfold canonical; decide +kernel

/-- CLEAR of a playback with three cues pending and one DELAYED ends four cues. -/
theorem test_clear_counts :
    lastPosted ((work held elevenFree (playing (show1.map (fun c => { c with report := false }))
      [{ cue 4 0 0 0 0 .manual none with state := .delayed, report := false }])).applyClear 1 owed).s =
      some (0, 4) := by decide +kernel

/-- Cue 1 of scene 5, as it stands in flight in this state. -/
def flown (state : CueState) : Cue := { cue 1 5 20 0 0 .manual (some 500) with state := state }

/-- The work of frame 500 with that cue in flight on playback 1, and scene 5 in this state. -/
def reaching (state : CueState) (scene : SceneState) : FrameWork :=
  { work held elevenFree (playing [] [flown state]) with
    s := { (work held elevenFree (playing [] [flown state])).s with
      store := ready.store.setScene 5
        { state := scene, entryCount := 1, blocks := 1, useCount := 0, entries := [(9, 900)] } } }

theorem witness_FadeStartsReadTheScene :
    isCue (reaching .delayed .ready) 1 1 (flown .delayed) ∧ (flown .delayed).state = .delayed ∧
    isCue (reaching .waitScene .loading) 1 1 (flown .waitScene) ∧ (flown .waitScene).state = .waitScene ∧
    ((reaching .delayed .ready).s.store.scene (flown .delayed).scene).state = .ready ∧
    ((reaching .waitScene .loading).s.store.scene (flown .waitScene).scene).state = .loading ∧
    ((reaching .delayed .empty).s.store.scene (flown .delayed).scene).state = .empty ∧
    isCue (reaching .fading .ready) 1 1 (flown .fading) ∧ (∀ c, ¬isCue (reaching .fading .ready) 1 2 c) ∧
    ((work held elevenFree (playing [] [] (some 4))).s.controller.playback 1).paused ≠ none ∧
    ((reaching .delayed .ready).s.controller.playback 1).paused = none := by
  refine ⟨by unfold isCue; decide +kernel, rfl, by unfold isCue; decide +kernel, rfl, by decide +kernel,
    by decide +kernel, by decide +kernel, by unfold isCue; decide +kernel, fun c h => ?_, by decide +kernel,
    by decide +kernel⟩
  have : ((reaching .fading .ready).s.controller.playback 1).inFlight.find? (fun d => d.id = 2) = none := by decide +kernel
  rw [isCue, this] at h
  cases h

/-- R63 to R65: by the state of the scene the cue fades under slot 11, waits for the scene, or ends NO_SCENE; with no
slot left it ends NO_SLOT. -/
theorem test_fade_start :
    (((reaching .delayed .ready).fadeStart 1 1).playback 1).inFlight.map (fun c => (c.state, c.slot, c.due)) =
      [(.fading, some 11, none)] ∧
    (((reaching .delayed .loading).fadeStart 1 1).playback 1).inFlight.map (fun c => (c.state, c.due)) =
      [(.waitScene, none)] ∧
    lastPosted ((reaching .delayed .empty).fadeStart 1 1).s = some (10, 1) ∧
    lastPosted
      ({ reaching .delayed .ready with
        s := { (reaching .delayed .ready).s with engine := { slots := noneFree } } }.fadeStart 1 1).s = some (11, 1) := by
  decide +kernel

/-- Cue 1 of scene 5 is DELAYED until frame 1, and the load of scene 5 waits for its last item. -/
def loadAtFadeStart : State :=
  { running with
    store := (loading 1).store
    controller := { running.controller with playbacks := playing [] [{ flown .delayed with due := some 1, length := 8 }] } }

/-- The last item of that load. -/
def lastItem : LoadItem := { load := 3, bytes := [0xFE, 0x0F, 0x34, 0x12] }

/-- State and slot of the cues of playback 1, and the slot's start frame, after this frame start. -/
def atFadeStart (c : FrameCourse) : Option (List (CueState × Option Nat) × Option Nat) :=
  (after (exec (.frameStart c) loadAtFadeStart)).map (fun t =>
    ((t.controller.playback 1).inFlight.map (fun d => (d.state, d.slot)),
      match t.engine.slot 0 with
      | .inUse r => some r.start
      | .free _ => none))

/-- R81: without the load's end the sweep leaves the cue in WAIT_SCENE; where the load ends inside the frame start, after
the sweep or before it, the fade starts at that frame. -/
theorem test_load_ends_inside_a_frame_start :
    atFadeStart (course []) = some ([(.waitScene, none)], none) ∧
    atFadeStart (course [] [lastItem]) = some ([(.fading, some 0)], some 1) ∧
    atFadeStart (course [1] [lastItem]) = some ([(.fading, some 0)], some 1) :=
  ⟨by decide +kernel, by decide +kernel, by decide +kernel⟩

/-- `loadingBand` with a SET_ROLL of the band staged for frame 1. -/
def rollOfLoading : State :=
  { loadingBand with
    bands := { loadingBand.bands with
      staged := [{ frame := 1, owed := owed, request := .setRoll 7 1 1 none }] }
    host := { loadingBand.host with completion := ⟨[(0, { room with reserved := 2 })]⟩ } }

/-- The status codes of the records that a frame start with this course posts (11.2). -/
def codesOf (c : FrameCourse) : Option (List Nat) :=
  (after (exec (.frameStart c) rollOfLoading)).map (fun t => t.host.writes.map (fun w => leAt w.bytes 1 1))

/-- R97: taken before the load's end, SET_ROLL finds LOADING and completes NOT_READY; taken after it, it is applied. -/
theorem test_band_load_ends_inside_a_frame_start :
    codesOf (course [1, 1] [{ load := 3, bytes := [1, 2, 3, 4, 5, 6] }]) = some [18, 0] ∧
    codesOf (course [2] [{ load := 3, bytes := [1, 2, 3, 4, 5, 6] }]) = some [0, 0] := by decide +kernel

/-- Playback 1 with a FOLLOW head that follows nothing, and a new period staged with the next frame. -/
def following : State :=
  { running with
    controller := { running.controller with playbacks := playing [cue 2 11 10 0 8 .follow none] [] }
    clock := { running.clock with staged := [{ frame := 1, owed := owed, request := .setPeriod 100 }] } }

theorem witness_CuesEndAndHeadsFollow :
    25 ≤ (reaching .fading .ready).period ∧ isCue (reaching .fading .ready) 1 1 (flown .fading) ∧
    canonical following ∧ (following.beginFrame 1).period = 100 ∧
    following.clock.staged = [] ++ { frame := 1, owed := owed, request := .setPeriod 100 } :: [] ∧
    (following.controller.playback 1).pending = [cue 2 11 10 0 8 .follow none] ∧
    (following.controller.playback 1).lastTrigger = .absent ∧
    ((cued 1).controller.playback 15).pending.map (fun c => (c.trigger, c.due)) = [(.manual, none)] := by
  unfold isCue canonical; decide +kernel

/-- R60: the FOLLOW head of `following` is due 1 + 8 frames after frame 1; R66: the notice ends the cue OK. -/
theorem test_heads_and_ends :
    ((following.beginFrame 1).playback 1).pending.map (fun c => c.due) = [some 10] ∧
    lastPosted ((reaching .fading .ready).takeNotice
      { slot := 11, playback := 1, kind := .cue 1 5, reason := .ended }).s = some (0, 1) ∧
    (((reaching .fading .ready).takeNotice
      { slot := 11, playback := 1, kind := .cue 1 5, reason := .lost }).playback 1).inFlight = [] := by decide +kernel

/-- A RELEASE of playback 1 stands in slot 3 with two channels moved; one of slot 2 has been replaced. -/
def releasing : FrameWork :=
  { work held elevenFree
      ⟨[(1, { Playback.atReset with releaseSlot := some 3, releaseRecord := some { owed := owed, moved := 2 } })]⟩ with
    superseded := [(2, { owed := owed, moved := 1 })] }

theorem witness_ReleasesRunAndEnd :
    25 ≤ releasing.period ∧ ownedBy releasing.s 1 ≠ 0 ∧ ownedBy releasing.s 3 = 0 ∧
    (releasing.s.controller.playback 1).releaseSlot = some 3 ∧
    (releasing.s.controller.playback 1).releaseRecord = some { owed := owed, moved := 2 } ∧
    (releasing.s.controller.playback 1).releaseSlot ≠ some 2 ∧
    releasing.superseded = [] ++ (2, { owed := owed, moved := 1 }) :: [] := by decide +kernel

/-- R77, R79: the second RELEASE takes slot 11 and moves channel 4; the first waits for its notice, and each completes
with its own moved count. -/
theorem test_release :
    ((releasing.releaseSlot 1 10 owed).playback 1).releaseSlot = some 11 ∧
    (releasing.releaseSlot 1 10 owed).superseded.map (fun x => x.1) = [2, 3] ∧
    lastPosted (releasing.takeNotice { slot := 3, playback := 1, kind := .release, reason := .ended }).s = some (0, 2) ∧
    lastPosted (releasing.takeNotice { slot := 2, playback := 1, kind := .release, reason := .released }).s =
      some (2, 1) := by decide +kernel

/-- The band of 5.7 STOPPED on its port, whose channels 1236 to 1238 playback 6 holds at priority 5. -/
def chaseWork (b : Band) (components pixels : Nat) : FrameWork :=
  { ready with
    arbiter := { channels := ⟨(List.range 3).map (fun i => (1236 + i, { holding := .settled 6 5 9, last := 9 }))⟩ }
    bands := ready.bands.setBand 4 b
    ports := ready.ports.setPort 2 { Port.atReset with applied := { strip pixels components 8 .mbit8 with first := 1200 } }
    clock := { ready.clock with frame := 99 } }.beginFrame 100

theorem witness_StartBandClaimsItsRange :
    (chaseWork (.stopped chase) 3 40).resetArbiter = false ∧
    (chaseWork (.loading chase) 3 40).s.bands.band 4 = .loading chase ∧
    (chaseWork (.running chase chaseRun) 3 40).s.bands.band 4 = .running chase chaseRun ∧
    (chaseWork (.stopped chase) 3 40).s.bands.band 4 = .stopped chase ∧
    ((chaseWork (.stopped chase) 4 40).s.ports.port chase.port).applied.components ≠ chase.components ∧
    ((chaseWork (.stopped chase) 3 17).s.ports.port chase.port).applied.pixels < chase.firstPixel + (2 + 5 + 1) ∧
    chase.firstPixel + (2 + 5 + 1) ≤ ((chaseWork (.stopped chase) 3 18).s.ports.port chase.port).applied.pixels := by
  decide +kernel

/-- 5.7, frame start 100: 21 claims granted and 3 denied; the refusals report what the port has. -/
theorem test_start_band :
    lastPosted ((chaseWork (.stopped chase) 3 40).applyStartBand owed 4 3).s = some (0, 21 + 65536 * 3) ∧
    lastPosted ((chaseWork (.stopped chase) 3 17).applyStartBand owed 4 3).s = some (7, 17) ∧
    ((chaseWork (.stopped chase) 3 40).applyStartBand owed 4 3).s.bands.band 4 = .running chase chaseRun := by
  decide +kernel

theorem witness_StopBandAndSetRollKeepTheOffset :
    (chaseWork .undefined 3 40).resetArbiter = false ∧ (chaseWork .undefined 3 40).s.bands.band 4 = .undefined ∧
    (chaseWork (.stopped chase) 3 40).s.bands.band 4 = .stopped chase ∧
    (chaseWork (.running chase chaseRun) 3 40).s.bands.band 4 = .running chase chaseRun ∧
    (chaseWork .undefined 3 40).s.clock.frame - 1 < chaseRun.originFrame ∧
    { chaseRun with originFrame := 99 }.originFrame ≤ (chaseWork .undefined 3 40).s.clock.frame - 1 := by decide +kernel

/-- 5.7, frame starts 110 and 117: SET_ROLL keeps offset 1, STOP_BAND keeps offset 3. -/
theorem test_set_roll_and_stop :
    rolledAt (.running chase chaseRun) 110 (-1) 2 none = some (.running retimed { chaseRun with originFrame := 110 }, 1) ∧
    stoppedAt retimed { chaseRun with originFrame := 110 } 117 = .stopped { retimed with originOffset := 3 } := by
  decide +kernel

/-- `running` with this staged for the composer, two ranges parked, and a MANUAL cue pending. -/
def composing (l : List ClockRequest) : State :=
  { running with
    controller := (cued 1).controller
    clock := { running.clock with
      parks := [{ first := 10, count := 5, level := 7 }, { first := 30, count := 5, level := 9 }]
      staged := l.map (fun q => { frame := 1, owed := owed, request := q }) } }

theorem witness_calm (l : List ClockRequest) : calmAt (composing l) ((composing l).clock.frame + 1) := by
  refine ⟨fun n h => (List.not_mem_nil h).elim, fun k r h => ?_, fun p => manual_head_waits p _⟩
  cases h

/-- A PARK, an UNPARK of the same run and a new master. -/
def threeRequests : List ClockRequest := [.compose (.park 15 15 1), .compose (.unpark 15 15), .compose (.setMaster 9)]

theorem witness_ComposerRequestsAreApplied :
    noLoadEnds (course [2]) (composing threeRequests) ∧ (course [2]).intake = [] ∧ canonical (composing threeRequests) ∧ ninthLaw (composing threeRequests) ∧
    (∀ r ∈ (composing threeRequests).clock.parks, 1 ≤ r.count) ∧
    calmAt (composing threeRequests) ((composing threeRequests).clock.frame + 1) ∧
    stamped 1 (composing threeRequests).controller.staged = [] ∧ stamped 1 (composing threeRequests).bands.staged = [] ∧
    stamped 1 (composing threeRequests).groups.commits = [] ∧ stamped 1 (composing threeRequests).ports.staged = [] ∧
    ∀ e ∈ stamped 1 (composing threeRequests).clock.staged, e.request ≠ .showReset ∧
      ∀ first count level, e.request = .compose (.park first count level) → 1 ≤ count := by
  refine ⟨.inl rfl, rfl, by unfold canonical; decide +kernel, ⟨Nat.le_of_ble_eq_true rfl, ?_⟩, by decide +kernel, witness_calm _, rfl, rfl,
    rfl, rfl, ?_⟩
  · refine List.Pairwise.cons (fun b hb => ?_) (List.Pairwise.cons (fun b hb => (List.not_mem_nil hb).elim) .nil)
    simp only [List.mem_singleton] at hb
    subst hb
    refine ⟨by decide, fun c h => ?_⟩
    simp only [ParkRange.covers, decide_eq_true_eq] at h
    omega
  · intro e he
    simp only [stamped, composing, threeRequests, List.map_cons, List.map_nil, decide_true, List.filter_cons_of_pos,
      List.filter_nil, List.mem_cons, List.not_mem_nil, or_false] at he
    rcases he with rfl | rfl | rfl
    · exact ⟨nofun, fun f c l h => by cases h; decide⟩
    · exact ⟨nofun, nofun⟩
    · exact ⟨nofun, nofun⟩

/-- Each clause on the ranges 10 to 14 and 30 to 34: channel 14 is shared, 15 to 29 lie between them. -/
theorem witness_park_clauses :
    shares 14 1 { first := 10, count := 5, level := 7 } ∧ ¬shares 15 15 { first := 10, count := 5, level := 7 } ∧
    ¬shares 15 15 { first := 30, count := 5, level := 9 } := by
  refine ⟨⟨14, by decide, by decide, by decide⟩, ?_, ?_⟩ <;> (rintro ⟨c, h1, h2, h3⟩; simp only at h2 h3; omega)

theorem test_park_and_unpark :
    posts (.frameStart (course [])) (composing [.compose (.park 12 20 1)]) = some (16, 10) ∧
    posts (.frameStart (course [2])) (composing [.compose (.park 15 15 1)]) = some (0, 3) ∧
    posts (.frameStart (course [1])) (composing [.compose (.unpark 30 4)]) = some (17, 0) ∧
    posts (.frameStart (course [])) (composing [.setPeriod 40]) = some (0, 250) := by decide +kernel

/-- `running` with two CONFIG_PORTs staged for a LOST port. -/
def configuring : State :=
  { running with
    ports :=
      { records := ⟨[(2, { Port.atReset with state := .lost, lostAt := some 0 })]⟩
        staged := [{ frame := 1, owed := owed, request := { port := 2, config := strip 1 3 8 .mbit8 } },
          { frame := 1, owed := { owed with dropped := true }, request := { port := 2, config := PortConfig.atReset } }] } }

theorem witness_ConfigPortAndCommitAreApplied :
    noLoadEnds (course [4]) configuring ∧ (course [4]).intake = [] ∧ canonical configuring ∧ calmAt configuring (configuring.clock.frame + 1) ∧
    (stamped 1 configuring.ports.staged).length = 2 ∧
    stamped 1 configuring.controller.staged = [] ∧ stamped 1 configuring.bands.staged = [] ∧
    stamped 1 configuring.groups.commits = [] ∧ stamped 1 configuring.clock.staged = [] := by
  refine ⟨.inl rfl, rfl, by unfold canonical; decide +kernel, ⟨fun n h => (List.not_mem_nil h).elim, fun k r h => ?_,
    fun p => waits_at_reset _⟩, rfl, rfl, rfl, rfl, rfl⟩
  cases h

theorem test_config_port_is_applied :
    posts (.frameStart (course [4])) configuring = some (0, 3) ∧
    ((after (exec (.frameStart (course [])) configuring)).map (fun t => (t.ports.port 2).state)) = some .disabled := by
  decide +kernel

/-! ## What a frame start finds: one thing of each kind -/

/-- `running` with these requests staged for frame 1, these load-end notices of frame 1, and a MANUAL cue pending. -/
def finding (c : List PlaybackRequest) (b : List BandRequest) (g scenes : List Nat) : State :=
  { running with
    controller := { (cued 1).controller with staged := c.map (fun r => { frame := 1, owed := owed, request := r }) }
    bands := { running.bands with staged := b.map (fun r => { frame := 1, owed := owed, request := r }) }
    groups := { running.groups with commits := g.map (fun r => { frame := 1, owed := owed, request := r }) }
    store := { running.store with notices := scenes.map (fun i => { scene := i, state := .empty, frame := 1 }) } }

theorem finding_canonical (c : List PlaybackRequest) (b : List BandRequest) (g scenes : List Nat) :
    canonical (finding c b g scenes) := by
  have h : canonical (finding [] [] [] []) := by unfold canonical; decide +kernel
  exact h

theorem finding_has_no_slot (c : List PlaybackRequest) (b : List BandRequest) (g scenes : List Nat) (k : Nat) :
    k ∈ ([] : List Nat) ↔ ∃ r, (finding c b g scenes).engine.slot k = .inUse r ∧ r.pausedAt = none ∧
      r.start + r.length + r.accumulatedPause = (finding c b g scenes).clock.frame + 1 :=
  ⟨fun h => (List.not_mem_nil h).elim, fun ⟨_, h, _⟩ => by cases h⟩

theorem witness_one_playback_request (r : PlaybackRequest) :
    canonical (finding [r] [] [] []) ∧
    finds (finding [r] [] [] []) [{ frame := 1, owed := owed, request := r }] [] [] [] [] :=
  ⟨finding_canonical _ _ _ _, rfl, rfl, rfl, rfl, rfl, rfl, finding_has_no_slot _ _ _ _, fun p => manual_head_waits p _⟩

theorem witness_one_band_request (r : BandRequest) :
    canonical (finding [] [r] [] []) ∧
    finds (finding [] [r] [] []) [] [{ frame := 1, owed := owed, request := r }] [] [] [] :=
  ⟨finding_canonical _ _ _ _, rfl, rfl, rfl, rfl, rfl, rfl, finding_has_no_slot _ _ _ _, fun p => manual_head_waits p _⟩

theorem witness_GoTriggersTheHead_at_its_frame :
    canonical (finding [.go 15] [] [] []) ∧
    finds (finding [.go 15] [] [] []) [{ frame := 1, owed := owed, request := .go 15 }] [] [] [] [] :=
  witness_one_playback_request _

theorem witness_PauseAndResumeShiftThePlayback_at_their_frame :
    finds (finding [.pause 0] [] [] []) [{ frame := 1, owed := owed, request := .pause 0 }] [] [] [] [] ∧
    finds (finding [.resume 15] [] [] []) [{ frame := 1, owed := owed, request := .resume 15 }] [] [] [] [] :=
  ⟨(witness_one_playback_request _).2, (witness_one_playback_request _).2⟩

theorem witness_ClearAndSnapLetGo_at_its_frame :
    canonical (finding [.clear 15] [] [] []) ∧
    finds (finding [.clear 15] [] [] []) [{ frame := 1, owed := owed, request := .clear 15 }] [] [] [] [] :=
  witness_one_playback_request _

theorem witness_ReleasesRunAndEnd_at_its_frame :
    canonical (finding [.release 15 (some 65535)] [] [] []) ∧
    finds (finding [.release 15 (some 65535)] [] [] [])
      [{ frame := 1, owed := owed, request := .release 15 (some 65535) }] [] [] [] [] :=
  witness_one_playback_request _

theorem witness_StartBandClaimsItsRange_at_its_frame :
    canonical (finding [] [.start 7 7] [] []) ∧
    finds (finding [] [.start 7 7] [] []) [] [{ frame := 1, owed := owed, request := .start 7 7 }] [] [] [] :=
  witness_one_band_request _

theorem witness_StopBandAndSetRollKeepTheOffset_at_their_frame :
    finds (finding [] [.stop 0] [] []) [] [{ frame := 1, owed := owed, request := .stop 0 }] [] [] [] ∧
    finds (finding [] [.setRoll 7 (-255) 1 (some 0)] [] []) []
      [{ frame := 1, owed := owed, request := .setRoll 7 (-255) 1 (some 0) }] [] [] [] :=
  ⟨(witness_one_band_request _).2, (witness_one_band_request _).2⟩

theorem witness_FadeStartsReadTheScene_load_end :
    canonical (finding [] [] [] [255]) ∧
    finds (finding [] [] [] [255]) [] [] [] [{ scene := 255, state := .empty, frame := 1 }] [] :=
  ⟨finding_canonical _ _ _ _, rfl, rfl, rfl, rfl, rfl, rfl, finding_has_no_slot _ _ _ _, fun p => manual_head_waits p _⟩

theorem witness_ConfigPortAndCommitAreApplied_commit :
    canonical (finding [] [] [15] []) ∧
    finds (finding [] [] [15] []) [] [] [{ frame := 1, owed := owed, request := 15 }] [] [] :=
  ⟨finding_canonical _ _ _ _, rfl, rfl, rfl, rfl, rfl, rfl, finding_has_no_slot _ _ _ _, fun p => manual_head_waits p _⟩

/-- Before and after each owner's show-reset notice, and before and after the staged pass. -/
theorem witness_ConfigPortAndCommitAreApplied_released :
    let w := work held elevenFree Table.empty
    (w.resetController, w.resetBands, w.resetSent, w.stagedOver) = (false, false, false, false) ∧
    (w.showResetController.resetController, w.showResetBands.resetBands, (w.applyShowReset owed).resetSent,
      ({ w with agenda := [.stagedPass] }.stagedPass).stagedOver) = (true, true, true, true) := by
  decide +kernel

/-- Slot 10 of playback 2 ends at frame 1 in `endingAtOne`; a cue of playback 15 waits for its GO. -/
def endingAtOne : State :=
  { finding [] [] [] [] with engine := { slots := ⟨[(10, .inUse { slotTen with start := 0, length := 1 })]⟩ } }

theorem witness_SlotsReachTheirEnd_at_their_frame :
    canonical endingAtOne ∧
    endingAtOne.engine.slot 10 = .inUse { slotTen with start := 0, length := 1 } ∧
    (∀ e ∈ stamped 1 endingAtOne.controller.staged, e.request ≠ .pause 2) ∧
    (∀ h ∈ endingAtOne.groups.hold, h.request ≠ .playback (.pause 2)) ∧ noPauseJoins (course [] [] [joining]) endingAtOne 2 ∧
    finds endingAtOne [] [] [] [] [10] := by
  refine ⟨by unfold canonical; decide +kernel, rfl, fun e h => (List.not_mem_nil h).elim,
    fun e h => (List.not_mem_nil h).elim, ⟨fun r h e => ?_, fun q x h => ?_⟩, rfl, rfl, rfl, rfl, rfl, rfl, fun k => ?_,
    fun p => manual_head_waits p _⟩
  · cases List.mem_singleton.mp h
    exact absurd e (by decide)
  · have h0 : (endingAtOne.host.sq q).fence = none := by
      by_cases hq : 0 = q
      · subst hq; rfl
      · simp [endingAtOne, finding, running, ready, HostUnit.sq, Table.get, Table.lookup, hq, SubmissionQueue.inactive]
    rw [h0] at h; cases h
  by_cases h : 10 = k
  · subst h
    exact ⟨fun _ => ⟨_, rfl, rfl, rfl⟩, fun _ => List.mem_singleton.mpr rfl⟩
  · refine ⟨fun hk => absurd (List.mem_singleton.mp hk).symm h, fun ⟨r, hr, _⟩ => ?_⟩
    simp [endingAtOne, TransitionEngine.slot, Table.get, Table.lookup, h, FadeSlot.atReset] at hr

/-- R47: the slot of length 1 that started at frame 0 ends at frame start 1 and may be allocated from frame 2 on. -/
theorem test_slot_ends_at_its_frame :
    [[], [3, 1, 2]].map (fun order => (after (exec (.frameStart (course order)) endingAtOne)).map (fun t => t.engine.slot 10)) =
      [some (.free 2), some (.free 2)] := by decide +kernel

/-! ## The show reset -/

/-- A show with a cue FADING under slot 10, a scene LOADING and a RUNNING band; a SHOW_RESET is staged behind a new
master. -/
def resetting : State :=
  { running with
    arbiter := { channels := held }
    store := { (loading 1).store with freeBlocks := 2047 }
    engine := { slots := ⟨[(10, .inUse slotTen)]⟩ }
    bands := running.bands.setBand 4 (.running onePixel onePixelRun)
    clock := { running.clock with
      parks := [{ first := 1, count := 1, level := 5 }]
      staged := [{ frame := 1, owed := owed, request := .compose (.setMaster 9) },
        { frame := 1, owed := owed, request := .showReset }] }
    host := { running.host with intakePause := true } }

theorem witness_ShowResetClearsTheShow :
    canonical resetting ∧
    resetting.clock.staged = [{ frame := 1, owed := owed, request := .compose (.setMaster 9) }] ++
      { frame := 1, owed := owed, request := .showReset } :: [] := by
  unfold canonical; decide +kernel

/-- R116: the show is dark whatever the order of the blocks' work, and intake goes on. -/
theorem test_show_reset :
    [[], [1, 2, 3], [4, 0, 2, 1]].map (fun order => (after (exec (.frameStart (course order)) resetting)).map (fun t =>
        ((t.arbiter.channel 5).holding, t.engine.slot 10, t.store.loads.length, t.clock.master.toNat, t.host.intakePause))) =
      List.replicate 3 (some (.free 0, .free 2, 0, 65535, false)) := by decide +kernel

/-- A GO of playback 1 and a SHOW_RESET are staged for frame 1; the cue that the GO triggers asks for scene 10, which is READY. -/
def goAtReset : State :=
  { running with
    store := { running.store with freeBlocks := 2047 }.setScene 10
      { state := .ready, entryCount := 1, blocks := 1, useCount := 0, entries := [(4, 1)] }
    controller := { running.controller with
      playbacks := playing [cue 1 10 20 0 0 .manual none] []
      staged := [{ frame := 1, owed := owed, request := .go 1 }] }
    clock := { running.clock with staged := [{ frame := 1, owed := owed, request := .showReset }] }
    host := { running.host with completion := ⟨[(0, { room with reserved := 3 })]⟩, intakePause := true } }

/-- R82: the engine takes its notice before the GO, the store takes its own after the refused slot request, and the sweep
comes after both. SHOW_RESET and GO complete OK, and the cue CANCELLED. -/
theorem test_refused_slot_request_ends_cancelled :
    (after (exec (.frameStart (course [0, 3, 0, 0, 2])) goAtReset)).map
      (fun t => t.host.writes.map (fun w => leAt w.bytes 1 1)) = some [0, 0, 1] := by decide +kernel

/-! ## Witnesses of what every step keeps -/

theorem witness_StepTakesTheFrontCommand : State.reset.pending = [] ∧ (State.reset.withPending [.frameStart (course [])]).pending ≠ [] := by
  decide +kernel

theorem witness_InterruptAndTableRegisterWrites : State.reset.host.state = .off ∧ ready.host.state ≠ .off := by decide

/-- RUNNING with a record being fetched, a request held for group 15, and a command waiting. -/
def busy : State :=
  { ready with
    pending := [.nop (record [])]
    groups := { ready.groups with hold := [{ ctx := ctx, group := 15, request := .compose (.setMaster 1) }] } }

theorem witness_StepKeepsTheHostLaws :
    canonical busy ∧ seventhLaw busy ∧ eighthLaw busy ∧ twelfthLaw busy ∧ quietOutsideRunning busy ∧
    registersFit busy ∧ ∃ t, step busy = .next t := by
  refine ⟨by unfold canonical; decide +kernel, fun m => ?_, by unfold eighthLaw; decide +kernel, List.Pairwise.nil,
    ⟨fun h => (h rfl).elim, ⟨fun _ => by decide, fun _ => rfl⟩⟩,
    ⟨by decide +kernel, fun n => ?_, fun m => ?_⟩, _, rfl⟩
  · rcases m with _ | m
    · decide +kernel
    · exact Nat.le_refl 0
  · rcases n with _ | n
    · decide +kernel
    · exact Nat.zero_lt_succ _
  · rcases m with _ | m
    · decide +kernel
    · exact Nat.zero_lt_succ _

theorem witness_StepKeepsTheStoreLaws :
    canonical busy ∧ fourthLaw busy ∧ fifthLaw busy ∧ ninthLaw busy ∧ legalPeriods busy ∧ ∃ t, step busy = .next t := by
  refine ⟨by unfold canonical; decide +kernel, by unfold fourthLaw; decide +kernel,
    fun p => ⟨Nat.zero_le 16, Nat.zero_le 4⟩, ⟨Nat.zero_le 32, List.Pairwise.nil⟩, ⟨by decide, by decide, ?_⟩, _, rfl⟩
  intro e he
  exact (List.not_mem_nil he).elim

/-- `rising` with the end of its slot interval waiting. -/
def intervalDue : State := { rising with pending := [.riseIntervalEnd] }

theorem witness_StepKeepsTheSequencerLaw :
    canonical intervalDue ∧ sequencerLaw intervalDue ∧ intervalDue.supply.state = .rising ∧
    ∃ t, step intervalDue = .next t := by
  refine ⟨by unfold canonical; decide +kernel, ?_, rfl, _, rfl⟩
  unfold sequencerLaw eleventhLaw resting
  refine ⟨⟨?_, ?_⟩, ?_, ?_, ?_, ?_, ?_, ?_, ?_⟩ <;> decide +kernel

/-- Channel 9 is FADING under slot 10 toward its target in scene 5; scene 6 and band 7 are being loaded, and the item
that ends the scene's load waits. -/
def shown : State :=
  { running with
    pending := [.loadItemReceived { load := 3, bytes := [0xFE, 0x0F, 0x34, 0x12] }]
    arbiter := { channels := ⟨[(9, { holding := .fading 2 3 10 0 900, last := 450 })]⟩ }
    engine := { slots := ⟨[(10, .inUse slotTen)]⟩ }
    store :=
      { scenes := ⟨[(5, { state := .ready, entryCount := 1, blocks := 1, useCount := 1, entries := [(9, 900)] }),
          (6, { state := .loading, entryCount := 2, blocks := 1, useCount := 0, entries := [(4095, 1)] })]⟩
        freeBlocks := 2046
        notices := []
        nextLoad := 5
        loads := [
          { id := 3, target := .scene 6, address := 0, itemCount := 2, itemSize := 4, received := 1, fetching := true,
            ctx := ctx },
          { id := 4, target := .band 7, address := 0, itemCount := 1, itemSize := 6, received := 0, fetching := false,
            ctx := ctx }] }
    bands := running.bands.setBand 7 (.loading { onePixel with pattern := [] }) }

theorem shown_slot (k : Nat) (h : 10 ≠ k) : shown.engine.slot k = .free 0 := by
  simp [shown, TransitionEngine.slot, Table.get, Table.lookup, h, FadeSlot.atReset]

theorem shown_channel (c : Nat) (h : 9 ≠ c) : shown.arbiter.channel c = Channel.dark := by
  simp [shown, Arbiter.channel, Table.get, Table.lookup, h]

theorem shown_scene (i : Nat) (h5 : 5 ≠ i) (h6 : 6 ≠ i) : shown.store.scene i = Scene.none := by
  simp [shown, SceneStore.scene, Table.get, Table.lookup, h5, h6]

theorem shown_band (n : Nat) (h : 7 ≠ n) : shown.bands.band n = .undefined := by
  show (running.bands.setBand 7 _).band n = _
  rw [BandUnit.band_setBand, if_neg (Ne.symm h)]
  rfl

theorem witness_StepKeepsTheShowLaws : canonical shown ∧ showLaws shown ∧ ∃ t, step shown = .next t := by
  refine ⟨by unfold canonical; decide +kernel, ⟨fun k => ?_, fun i => ?_, fun k r hr => ?_, fun i => ?_, ?_⟩, _, rfl⟩
  · by_cases h : 10 = k
    · subst h
      exact ⟨fun _ => ⟨9, by decide⟩, fun _ => ⟨_, rfl⟩⟩
    · rw [shown_slot k h]
      refine ⟨fun ⟨_, h⟩ => (by cases h), fun ⟨c, hc⟩ => ?_⟩
      by_cases h9 : 9 = c
      · subst h9; exact absurd (Option.some.inj hc) h
      · rw [shown_channel c h9] at hc; cases hc
  · by_cases h5 : 5 = i
    · subst h5; decide +kernel
    · by_cases h6 : 6 = i
      · subst h6; decide +kernel
      · rw [shown_scene i h5 h6]
        refine ⟨?_, fun h => absurd rfl h⟩
        simp [shown, servesScene, slotTen, h5, Scene.none]
  · by_cases h : 10 = k
    · subst h; cases hr; decide +kernel
    · rw [shown_slot k h] at hr; cases hr
  · by_cases h5 : 5 = i
    · subst h5; decide +kernel
    · by_cases h6 : 6 = i
      · subst h6; decide +kernel
      · rw [shown_scene i h5 h6]; decide +kernel
  · refine ⟨by decide, by decide, fun j l h => ?_, fun i => ?_, fun n => ?_, ?_, by decide, by decide⟩
    · rcases j with _ | _ | j
      · cases h; decide
      · cases h; decide
      · cases h
    · by_cases h5 : 5 = i
      · subst h5; decide +kernel
      · by_cases h6 : 6 = i
        · subst h6; decide +kernel
        · rw [shown_scene i h5 h6]
          simp [shown, Scene.none, h6]
    · by_cases h7 : 7 = n
      · subst h7; exact ⟨fun _ => ⟨_, List.mem_cons_of_mem _ (List.mem_cons_self ..), rfl⟩, fun _ => ⟨_, rfl⟩⟩
      · rw [shown_band n h7]
        simp [shown, h7]
    · intro l hl
      simp only [shown, List.mem_cons, List.not_mem_nil, or_false] at hl
      rcases hl with rfl | rfl
      · exact ⟨fun i h => by cases h; decide +kernel, nofun⟩
      · refine ⟨nofun, fun n d h hd => ?_⟩
        cases h
        cases hd
        rfl

/-- R28: the last item of scene 6 leaves it READY and band 7's load at the head. -/
theorem test_step_ends_a_load :
    (after (step shown)).map (fun t => ((t.store.scene 6).state, t.store.loads.map (fun l => (l.id, l.fetching)))) =
      some (.ready, [(4, true)]) := by decide +kernel

/-! ## Resets and the interface -/

/-- R174, R99: COLD_RESET from RUNNING is the state of reset, with the lines FDn_GOOD as the supplies drive them. -/
theorem test_cold_reset_keeps_the_lines :
    (after (exec .coldReset rising)).map (fun t => (t.host, t.supply.state, (t.supply.feed 0).good)) =
      some (HostUnit.atReset, .down, (rising.supply.feed 0).good) := by decide +kernel

/-- R159, R175: LINK_RESET from RUNNING turns the interface off and leaves the show as it is. -/
theorem test_link_reset_leaves_the_show :
    (after (exec .linkReset rising)).map (fun t => (t.host.state, t.host.enable, t.supply.state)) =
      some (.off, false, rising.supply.state) := by decide +kernel

/-- R171: writing 1 clears a bit of INT_CAUSE, writing 0 leaves it. -/
theorem test_int_cause_clears_ones :
    (after (exec (.intCauseWrite 0xFFFFFF05) { ready with host := { ready.host with intCause := 0x2D } })).map
      (fun t => t.host.intCause) = some 0x28 := by decide +kernel

end Sys2Proof.Tests
end

section
/-! PROOFS. What FRAME_START does when one playback request is staged for it: the run of the frame start is a path of
`Claims.Piece`s that ends with nothing left, and its first piece applies the request. -/

namespace Sys2Proof.Transitions

open Machine Safety Claims

/-! ## Staged lists -/

/-- What `takeStaged` takes is the first entry that is due. -/
theorem firstDue_of_takeStaged {ρ : Type} {f : Nat} {l : List (Staged ρ)} {e : Staged ρ} {rest : List (Staged ρ)}
    (h : takeStaged f l = some (e, rest)) : firstDue f l e rest := by
  induction l generalizing rest with
  | nil => cases h
  | cons x l ih =>
    unfold takeStaged at h
    split at h
    next hx => cases h; exact ⟨[], l, rfl, rfl, hx, nofun⟩
    next hx =>
      obtain ⟨⟨_, rest'⟩, hr, heq⟩ := Option.map_eq_some_iff.mp h
      cases heq
      obtain ⟨before, after, rfl, rfl, he, hb⟩ := ih hr
      exact ⟨x :: before, after, rfl, rfl, he, List.forall_mem_cons.mpr ⟨hx, hb⟩⟩

theorem not_due_of_dueCount {ρ : Type} {f : Nat} {l : List (Staged ρ)} (h : FrameWork.dueCount f l = 0) :
    ∀ e ∈ l, e.frame ≠ f := by
  simpa [FrameWork.dueCount, List.countP_eq_zero] using h

theorem not_due_of_takeStaged_none {ρ : Type} {f : Nat} {l : List (Staged ρ)} (h : takeStaged f l = none) :
    ∀ e ∈ l, e.frame ≠ f :=
  not_due_of_dueCount (FrameWork.dueCount_of_takeStaged_none f l h)

theorem filter_not_due {ρ : Type} {f : Nat} {l : List (Staged ρ)} (h : stamped f l = []) :
    l.filter (fun e => e.frame ≠ f) = l := by
  simpa [stamped] using h

theorem takeStaged_of_stamped_nil {ρ : Type} {f : Nat} {l : List (Staged ρ)} (h : stamped f l = []) :
    takeStaged f l = none := by
  induction l with
  | nil => rfl
  | cons x l ih =>
    obtain ⟨hx, hl⟩ : x.frame ≠ f ∧ stamped f l = [] := by simpa [stamped] using h
    simp [takeStaged, hx, ih hl]

/-- One entry that alone is due is taken, and the rest is what is not due. -/
theorem takeStaged_of_stamped_one {ρ : Type} {f : Nat} {l : List (Staged ρ)} {e : Staged ρ} (h : stamped f l = [e]) :
    takeStaged f l = some (e, l.filter (fun e => e.frame ≠ f)) := by
  induction l with
  | nil => cases h
  | cons x l ih =>
    by_cases hx : x.frame = f
    · obtain ⟨rfl, hl⟩ : x = e ∧ stamped f l = [] := by simpa [stamped, hx] using h
      simpa [takeStaged, hx] using (filter_not_due hl).symm
    · have hl : stamped f l = [e] := by simpa [stamped, hx] using h
      simp [takeStaged, hx, ih hl]

/-! ## The slots that end (R39, R47) -/

theorem endsAt_iff {r : FadeRun} {f : Nat} :
    r.endsAt f = true ↔ r.pausedAt = none ∧ r.start + r.length + r.accumulatedPause = f := decide_eq_true_iff

theorem mem_ending {e : TransitionEngine} (h : e.slots.wf FadeSlot.atReset = true) {f k : Nat} :
    k ∈ e.ending f ↔
      ∃ r, e.slot k = .inUse r ∧ r.pausedAt = none ∧ r.start + r.length + r.accumulatedPause = f := by
  rw [TransitionEngine.ending, Table.mem_keysWhere FadeSlot.atReset _ e.slots k h rfl]
  change (match e.slot k with
    | .inUse r => r.endsAt f
    | .free _ => false) = true ↔ _
  cases e.slot k with
  | free a => simp
  | inUse r => simp only [endsAt_iff, FadeSlot.inUse.injEq, exists_eq_left']

/-! ## Every piece of work is a `Piece` -/

/-- The staged pass takes its next entry and stays where it is. -/
theorem doControllerStep_staged {w : FrameWork} {later : List ControllerStep} {e : Staged PlaybackRequest}
    {rest : List (Staged PlaybackRequest)} (ho : w.atOnce = []) (ha : w.agenda = .stagedPass :: later)
    (ht : takeStaged w.s.clock.frame w.s.controller.staged = some (e, rest)) :
    w.doControllerStep =
      FrameWork.applyPlayback { w with s := { w.s with controller := { w.s.controller with staged := rest } } } e.owed
        e.request := by
  simp [FrameWork.doControllerStep, FrameWork.controllerStep, FrameWork.stagedPass, FrameWork.doFirst, FrameWork.frame,
    ho, ha, ht]

/-- The staged pass ends where no entry is due. -/
theorem doControllerStep_passOver {w : FrameWork} {later : List ControllerStep} (ho : w.atOnce = [])
    (ha : w.agenda = .stagedPass :: later) (ht : takeStaged w.s.clock.frame w.s.controller.staged = none) :
    w.doControllerStep = { w with agenda := later, stagedOver := true } := by
  simp [FrameWork.doControllerStep, FrameWork.controllerStep, FrameWork.stagedPass, FrameWork.frame, ho, ha, ht]

theorem controllerStep_eq_stepDone {c : ControllerStep} (hc : c ≠ .stagedPass) (w : FrameWork) :
    w.controllerStep c = stepDone w c := by
  cases c with
  | stagedPass => exact absurd rfl hc
  | _ => rfl

/-- The controller's next step: the staged pass takes an entry or is over, any other step is done. -/
theorem piece_controllerStep {w : FrameWork} (hl : w.Live) (hi : w.may .controllerStep) :
    Piece w .controllerStep w.doControllerStep := by
  obtain ⟨step, hstep, hready⟩ := hi
  cases ho : w.atOnce with
  | cons c later =>
    have hc : c ≠ .stagedPass := by
      rcases hl.once c (by simp [ho]) with ⟨_, _, rfl⟩ | ⟨_, rfl⟩ <;> nofun
    simp only [FrameWork.doControllerStep, ho, controllerStep_eq_stepDone hc]
    exact .stepAtOnce c later ho hc
  | nil =>
    cases ha : w.agenda with
    | nil => simp [FrameWork.nextStep, ho, ha] at hstep
    | cons c later =>
      by_cases hc : c = .stagedPass
      · subst hc
        cases ht : takeStaged w.s.clock.frame w.s.controller.staged with
        | some x =>
          rw [doControllerStep_staged ho ha ht]
          exact .playback x.1 x.2 later (firstDue_of_takeStaged ht) ho ha
        | none =>
          rw [doControllerStep_passOver ho ha ht]
          exact .passOver later (not_due_of_takeStaged_none ht) ho ha
      · simp only [FrameWork.doControllerStep, ho, ha, controllerStep_eq_stepDone hc]
        have hstep := Piece.step c later ho ha hc
        rwa [ho] at hstep

/-- The load-end notice taken is the first one stamped with the frame. -/
theorem piece_loadEnd {w : FrameWork} (hi : w.nextLoadEnd.isSome = true) : Piece w .loadEndNotice w.doLoadEnd := by
  obtain ⟨n, hn⟩ := Option.isSome_iff_exists.mp hi
  obtain ⟨hf, before, after, hs, hb⟩ := List.find?_eq_some_iff_append.mp hn
  have hf : n.frame = w.frame := of_decide_eq_true hf
  have hb : ∀ x ∈ before, x.frame ≠ w.frame := by simpa using hb
  have hrest : w.s.store.notices.eraseP (fun m => decide (m.frame = w.frame)) = before ++ after := by
    rw [hs, List.eraseP_append_right _ (by simpa using hb), List.eraseP_cons_of_pos (by simpa using hf)]
  have hdo := Piece.loadEnd n before after hs hf hb
  rw [← hrest] at hdo
  simpa only [FrameWork.doLoadEnd, hn] using hdo

/-- Whatever may be taken is taken as the page of its kind says. -/
theorem piece_take {w : FrameWork} (h : w.Sound) (hl : w.Live) (i : WorkItem) (hi : w.may i) : Piece w i (w.take i) := by
  cases i with
  | commit =>
    obtain ⟨x, hx⟩ := Option.isSome_iff_exists.mp hi
    simpa only [FrameWork.take, FrameWork.doCommit, hx] using .commit x.1 x.2 (firstDue_of_takeStaged hx)
  | composerStaged =>
    obtain ⟨x, hx⟩ := Option.isSome_iff_exists.mp hi
    simpa only [FrameWork.take, FrameWork.doComposerStaged, hx] using .composer x.1 x.2 (firstDue_of_takeStaged hx)
  | portStaged =>
    obtain ⟨x, hx⟩ := Option.isSome_iff_exists.mp hi
    simpa only [FrameWork.take, FrameWork.doPortStaged, hx] using .port x.1 x.2 (firstDue_of_takeStaged hx)
  | bandStaged =>
    obtain ⟨x, hx⟩ := Option.isSome_iff_exists.mp hi.1
    simpa only [FrameWork.take, FrameWork.doBandStaged, hx] using .band x.1 x.2 (firstDue_of_takeStaged hx)
  | composerReleased =>
    obtain ⟨⟨o, q⟩, rest, hx⟩ := List.exists_cons_of_ne_nil hi
    simpa only [FrameWork.take, FrameWork.doComposerReleased, hx] using .composerReleased o q rest hx
  | bandReleased =>
    obtain ⟨⟨o, q⟩, rest, hx⟩ := List.exists_cons_of_ne_nil hi.1
    simpa only [FrameWork.take, FrameWork.doBandReleased, hx] using .bandReleased o q rest hx
  | playbackReleased =>
    cases hx : w.toController with
    | nil => simp [FrameWork.may, FrameWork.releasedReady, hx] at hi
    | cons x rest => simpa only [FrameWork.take, FrameWork.doPlaybackReleased, hx] using .playbackReleased x.1 x.2 rest hx
  | endNotice =>
    obtain ⟨n, rest, hx⟩ := List.exists_cons_of_ne_nil hi.1
    simpa only [FrameWork.take, FrameWork.doEndNotice, hx] using .endNotice n rest hx
  | loadAnswer =>
    obtain ⟨a, rest, hx⟩ := List.exists_cons_of_ne_nil hi
    simpa only [FrameWork.take, FrameWork.doAnswer, hx] using .answer a rest hx
  | intakeArrival =>
    obtain ⟨a, rest, hx⟩ := List.exists_cons_of_ne_nil hi
    simpa only [FrameWork.take, FrameWork.doArrival, hx] using .arrival a rest hx
  | slotMustEnd k => exact .slotMustEnd k hi.2
  | slotEnd k =>
    obtain ⟨-, -, hk⟩ := hi
    obtain ⟨r, hr, hp, he⟩ := (mem_ending h.1).mp hk
    exact .slotEnd k r hr hp he
  | loadEndNotice => exact piece_loadEnd hi.1
  | controllerStep => exact piece_controllerStep hl hi
  | resetArbiter => exact .resetArbiter
  | resetStore => exact .resetStore
  | resetEngine => exact .resetEngine
  | resetController => exact .resetController
  | resetBands => exact .resetBands
  | resetGroups => exact .resetGroups
  | resetReport => exact .resetReport hi.1

/-! ## The run -/

theorem nothingLeft_of_finished {w : FrameWork} (h : w.Sound) (hf : w.Finished) : nothingLeft w := by
  obtain ⟨hController, hBands, hComposer⟩ := hf.released
  obtain ⟨hAgenda, hOnce⟩ := hf.steps
  obtain ⟨hMust, hWaits, hEnding⟩ := hf.slots
  have hSlots : ∀ k r, w.s.engine.slot k = .inUse r → r.pausedAt = none →
      r.start + r.length + r.accumulatedPause ≠ w.s.clock.frame := by
    intro k r hr hp he
    have hk : k ∈ w.s.engine.ending w.frame := (mem_ending h.1).mpr ⟨r, hr, hp, he⟩
    simp [hEnding] at hk
  exact ⟨not_due_of_dueCount hf.controller, not_due_of_dueCount hf.bands, not_due_of_dueCount hf.clock,
    not_due_of_dueCount hf.ports, not_due_of_dueCount hf.commits, hController, hBands, hComposer, hf.answers, hf.intake,
    hAgenda, hOnce, hf.notices, hf.report, hf.loadEnds, hMust, hWaits, hf.bandUnit, hSlots, hf.reset⟩

theorem works_of_none {w : FrameWork} (h : w.Sound) (hl : w.Live) (hn : ∀ i, ¬w.may i) : Works w w :=
  .finished w (nothingLeft_of_finished h (FrameWork.finished_of_none h hl hn))

theorem pick_none {w : FrameWork} {n : Nat} (hp : w.pick n = none) (i : WorkItem) : ¬w.may i := by
  intro hi
  have hpos := List.length_pos_of_mem ((FrameWork.mem_enabled w i).mpr hi)
  have hlt := Nat.mod_lt n hpos
  have := List.getElem?_eq_none_iff.mp hp
  omega

/-- `run` with as many pieces as the measure counts is a path of pieces that ends with nothing left. -/
theorem works_run {n m : Nat} (fuel : Nat) (picks : List Nat) (w : FrameWork) (h : w.Sound) (hl : w.Live)
    (hn : w.cues ≤ n) (hm : w.openSlots + w.busySlots ≤ m) (hf : w.inHand n + w.toTake n m ≤ fuel) :
    Works w (FrameWork.run fuel picks w) := by
  induction fuel generalizing picks w with
  | zero =>
    refine works_of_none h hl fun i hi => ?_
    have := (FrameWork.take_lowers h (fun a => (hl.idle a).1) hn hm i hi).less
    omega
  | succ fuel ih =>
    unfold FrameWork.run
    cases hp : w.pick (picks.headD 0) with
    | none => exact works_of_none h hl (pick_none hp)
    | some i =>
      have henabled : i ∈ w.enabled := List.mem_of_getElem? hp
      have hi := (FrameWork.mem_enabled w i).mp henabled
      have hlow := FrameWork.take_lowers h (fun a => (hl.idle a).1) hn hm i hi
      have hless := hlow.less
      exact .piece w _ _ i henabled (piece_take h hl i hi)
        (ih picks.tail (w.take i) hlow.sound (FrameWork.take_live h hl i hi) (Nat.le_trans hlow.cues hn)
          (Nat.le_trans hlow.slots hm) (by omega))

/-- Where one piece alone may be taken first, the run is a path from what that piece leaves. -/
theorem works_run_of_only {w : FrameWork} {i : WorkItem} (h : w.Sound) (hl : w.Live) (picks : List Nat) (hi : w.may i)
    (honly : ∀ j, w.may j → j = i) : Works (w.take i) (FrameWork.run w.left picks w) := by
  have hlow := FrameWork.take_lowers h (fun a => (hl.idle a).1) (Nat.le_refl _) (Nat.le_refl _) i hi
  have hless := hlow.less
  obtain ⟨fuel, hfuel⟩ : ∃ fuel, w.left = fuel + 1 := Nat.exists_eq_succ_of_ne_zero (by unfold FrameWork.left; omega)
  have hpick : w.pick (picks.headD 0) = some i := by
    cases hp : w.pick (picks.headD 0) with
    | none => exact absurd hi (pick_none hp i)
    | some j => rw [honly j ((FrameWork.mem_enabled w j).mp (List.mem_of_getElem? hp))]
  rw [hfuel, FrameWork.run, hpick]
  exact works_run fuel picks.tail (w.take i) hlow.sound (FrameWork.take_live h hl i hi) hlow.cues hlow.slots
    (by unfold FrameWork.left at hfuel; omega)

/-! ## One playback request alone -/

/-- The work that a frame start with no data and no arrival inside it begins with. -/
theorem frameStart_undisturbed (order : List Nat) (s : State) :
    s.frameStart (undisturbed order) =
      (FrameWork.run (s.beginFrame (s.clock.frame + 1)).left order (s.beginFrame (s.clock.frame + 1))).s := rfl

/-- Where a playback request alone is staged, the staged pass is all that may be taken first. -/
theorem only_stagedPass_of_finds {s : State} {e : Staged PlaybackRequest} (hc : canonical s)
    (hf : finds s [e] [] [] [] []) (i : WorkItem) (hi : (s.beginFrame (s.clock.frame + 1)).may i) :
    i = .controllerStep := by
  obtain ⟨-, -, hwf, -⟩ := hc
  obtain ⟨-, hbands, hgroups, hclock, hports, hnotices, hslots, -⟩ := hf
  have hload : s.store.notices.find? (fun n => decide (n.frame = s.clock.frame + 1)) = none := by
    simpa [List.filter_eq_nil_iff] using hnotices
  have none_due {ρ : Type} {l : List (Staged ρ)} (h : stamped (s.clock.frame + 1) l = [])
      (hd : (takeStaged (s.clock.frame + 1) l).isSome = true) : False := by
    rw [takeStaged_of_stamped_nil h] at hd; cases hd
  cases i with
  | controllerStep => rfl
  | commit => exact (none_due hgroups hi).elim
  | composerStaged => exact (none_due hclock hi).elim
  | portStaged => exact (none_due hports hi).elim
  | bandStaged => exact (none_due hbands hi.1).elim
  | slotEnd k =>
    have hk : k ∈ s.engine.ending (s.clock.frame + 1) := hi.2.2
    exact absurd ((hslots k).mpr ((mem_ending hwf).mp hk)) List.not_mem_nil
  | loadEndNotice =>
    have hn : (s.store.notices.find? (fun n => decide (n.frame = s.clock.frame + 1))).isSome = true := hi.1
    rw [hload] at hn
    cases hn
  | slotMustEnd k => cases hi.2
  | composerReleased | loadAnswer | intakeArrival => exact absurd rfl hi
  | bandReleased | endNotice | resetReport => exact absurd rfl hi.1
  | playbackReleased => cases hi
  | resetArbiter | resetStore | resetEngine | resetController | resetBands | resetGroups => cases hi.1

/-- What is stamped with the frame is one playback request: taking it off the lists leaves the others as they are. -/
theorem begun_of_finds {s : State} {e : Staged PlaybackRequest} (hf : finds s [e] [] [] [] []) :
    begun s frameAgenda false =
      { s.beginFrame (s.clock.frame + 1) with
        s := { (s.beginFrame (s.clock.frame + 1)).s with
          controller := { (s.beginFrame (s.clock.frame + 1)).s.controller with
            staged := s.controller.staged.filter (fun e => e.frame ≠ s.clock.frame + 1) } } } := by
  obtain ⟨-, hbands, hgroups, -, -, hnotices, -, -⟩ := hf
  have hnotices : s.store.notices.filter (fun x => x.frame ≠ s.clock.frame + 1) = s.store.notices := by
    simpa using hnotices
  unfold begun
  rw [filter_not_due hbands, filter_not_due hgroups, hnotices]
  rfl

/-- FRAME_START applies the playback request that alone is staged for the frame, and does what follows from it. -/
theorem frameStart_applies (order : List Nat) {s : State} {e : Staged PlaybackRequest} (hc : canonical s)
    (hf : finds s [e] [] [] [] []) :
    frameStartDoes order s ((begun s frameAgenda false).applyPlayback e.owed e.request) := by
  have hworks := works_run_of_only (beginFrame_sound s _ hc) (beginFrame_live s _) order
    (i := .controllerStep) ⟨.stagedPass, rfl, Bool.or_true _⟩ (only_stagedPass_of_finds hc hf)
  refine ⟨_, rfl, ?_⟩
  rw [begun_of_finds hf]
  have htake := doControllerStep_staged (w := s.beginFrame (s.clock.frame + 1)) rfl rfl
    (takeStaged_of_stamped_one hf.1)
  exact htake ▸ hworks

end Sys2Proof.Transitions
end

section
/-! PROOFS. Triggering the head, GO, PAUSE and RESUME, the end of a cue, and due frames. -/

namespace Sys2Proof.Transitions

open Machine Safety Claims

/-! ## Times (R37) -/

/-- The quotient rounded up, at a period that is not 0. -/
theorem framesOf_eq_framesIn (time : Nat) {period : Nat} (h : 25 ≤ period) :
    framesOf time period = framesIn time period := by
  have hlt := Nat.mod_lt (time * 100) (by omega : 0 < period)
  have hsum : 100 * time + period - 1 = period * (time * 100 / period) + (time * 100 % period + (period - 1)) := by
    have := Nat.div_add_mod (time * 100) period
    omega
  rw [framesOf, framesIn, hsum, Nat.mul_add_div (by omega)]
  congr 1
  split
  next hr => exact Nat.div_eq_of_lt (by omega)
  next hr => exact Nat.div_eq_of_lt_le (by omega) (by omega)

/-! ## Triggering (R59 to R62) -/

theorem becomeHead_eq (f : Nat) (d : Cue) :
    FrameWork.becomeHead f d = { d with due := if d.trigger = .withPrevious then some f else none } := by
  unfold FrameWork.becomeHead
  cases d.trigger <;> rfl

/-- The head is triggered as R62 says, and the steps `next` stand behind its fade start. -/
theorem triggerHead_doAtOnce {w : FrameWork} {p : Nat} {c : Cue} {rest : List Cue} (hw : 25 ≤ w.period)
    (hq : (w.s.controller.playback p).pending = c :: rest) (next : List ControllerStep) :
    (w.triggerHead p).doAtOnce next = triggers w p c rest next := by
  have hq' : (w.playback p).pending = c :: rest := hq
  simp only [FrameWork.triggerHead, hq', FrameWork.triggered, framesOf_eq_framesIn _ hw]
  cases rest with
  | nil => rfl
  | cons d more => simp only [becomeHead_eq]; rfl

theorem triggerHead_eq {w : FrameWork} {p : Nat} {c : Cue} {rest : List Cue} (hw : 25 ≤ w.period)
    (hq : (w.s.controller.playback p).pending = c :: rest) : w.triggerHead p = triggers w p c rest [] := by
  rw [← triggerHead_doAtOnce hw hq]
  simp [FrameWork.doAtOnce]

/-- GO and its chain put the chain's next step before the rest of the agenda. -/
theorem triggerHead_doFirst {w : FrameWork} {p : Nat} {c : Cue} {rest : List Cue} (hw : 25 ≤ w.period)
    (hq : (w.s.controller.playback p).pending = c :: rest) (step : ControllerStep) :
    (w.triggerHead p).doFirst [step] = { triggers w p c rest [] with agenda := step :: w.agenda } := by
  rw [triggerHead_eq hw hq]
  rfl

theorem headDue_nil {w : FrameWork} {q : Playback} (h : q.pending = []) : w.headDue q = false := by
  simp [FrameWork.headDue, h]

theorem headDue_iff {w : FrameWork} {p : Nat} {c : Cue} {rest : List Cue}
    (hq : (w.s.controller.playback p).pending = c :: rest) : w.headDue (w.playback p) = true ↔ headMayGo w p c := by
  have hq' : (w.playback p).pending = c :: rest := hq
  unfold FrameWork.headDue headMayGo
  rw [hq']
  cases hd : c.due with
  | none => simp [hd]
  | some d =>
    simp only [hd, decide_eq_true_eq, Option.some.injEq, exists_eq_left']
    rfl

theorem goChain_of_not_due {w : FrameWork} {p n : Nat} {o : Owed} (h : ¬w.headDue (w.playback p) = true) :
    w.goChain p n o = w.finish o .ok n := if_neg h

theorem tryHead_of_not_due {w : FrameWork} {p : Nat} (h : ¬w.headDue (w.playback p) = true) : w.tryHead p = w := if_neg h

/-! ## GO (R72) -/

theorem applyGo_paused {w : FrameWork} {p : Nat} {o : Owed} (h : (w.s.controller.playback p).paused ≠ none) :
    w.applyGo p o = w.finish o .paused 0 := if_pos (Option.isSome_iff_ne_none.mpr h)

theorem applyGo_running {w : FrameWork} {p : Nat} {o : Owed} (h : (w.s.controller.playback p).paused = none) :
    w.applyGo p o =
      if (w.s.controller.playback p).pending = [] then w.finish o .empty 0
      else if 4 ≤ (w.s.controller.playback p).inFlight.length then w.finish o .busy 0
      else (w.triggerHead p).doFirst [.goChain p 1 o] := by
  have h' : (w.playback p).paused = none := h
  simp only [FrameWork.applyGo, h', Option.isSome_none, Bool.false_eq_true, if_false]
  rfl

/-- Settles O46: the first part is `frameStart_applies`; the others follow the checks of GO, of its chain and of the
automatic trigger. -/
theorem goTriggersTheHead : Obligations.GoTriggersTheHead := by
  refine ⟨fun order s e p hc hf he => ?_, fun w p n o hw => ⟨applyGo_paused, fun hq => ?_, fun c rest hq => ?_⟩⟩
  · have happlied := frameStart_applies order hc hf
    rwa [he] at happlied
  · have hdue : ¬w.headDue (w.playback p) = true := by simp [headDue_nil (w := w) (q := w.playback p) hq]
    exact ⟨fun hp => by rw [applyGo_running hp, if_pos hq], goChain_of_not_due hdue, tryHead_of_not_due hdue⟩
  · have hne : (w.s.controller.playback p).pending ≠ [] := by simp [hq]
    refine ⟨fun hp hfull => ?busy, fun hp hroom => ?triggered, fun hgo => ?mayGo, fun hstay => ?mayNotGo⟩
    case busy => rw [applyGo_running hp, if_neg hne, if_pos hfull]
    case triggered => rw [applyGo_running hp, if_neg hne, if_neg (Nat.not_le.mpr hroom), triggerHead_doFirst hw hq]
    case mayGo =>
      have hdue := (headDue_iff hq).mpr hgo
      exact ⟨(if_pos hdue).trans (triggerHead_doFirst hw hq _), (if_pos hdue).trans (triggerHead_doAtOnce hw hq _)⟩
    case mayNotGo =>
      have hdue := mt (headDue_iff hq).mp hstay
      exact ⟨goChain_of_not_due hdue, tryHead_of_not_due hdue⟩

/-! ## PAUSE and RESUME (R40, R41, R68, R73, R74) -/

/-- What an order to the slots of a playback does to slot `k`. -/
theorem slot_mapPlayback {e : TransitionEngine} (h : e.slots.wf FadeSlot.atReset = true) (p : Nat)
    (g : FadeRun → FadeRun) (k : Nat) :
    (e.mapPlayback p g).slot k =
      match e.slot k with
      | .inUse r => .inUse (if r.playback = p then g r else r)
      | .free a => .free a :=
  Table.get_mapCells FadeSlot.atReset _ e.slots k rfl h

theorem slot_pauseOrder {e : TransitionEngine} (h : e.slots.wf FadeSlot.atReset = true) (p f k : Nat) :
    (e.pauseOrder p f).slot k =
      match e.slot k with
      | .inUse r => .inUse (if r.playback = p ∧ r.pausedAt = none then { r with pausedAt := some f } else r)
      | .free a => .free a := by
  rw [TransitionEngine.pauseOrder, slot_mapPlayback h]
  cases e.slot k with
  | free a => rfl
  | inUse r => by_cases hp : r.playback = p <;> simp only [hp, true_and, false_and, if_true, if_false]

theorem slot_resumeOrder {e : TransitionEngine} (h : e.slots.wf FadeSlot.atReset = true) (p f k : Nat) :
    (e.resumeOrder p f).slot k =
      match e.slot k with
      | .inUse r =>
        .inUse (if r.playback = p then
          { r with
            pausedAt := none
            accumulatedPause := r.accumulatedPause +
              (match r.pausedAt with
                | some g => f - g
                | none => 0) }
          else r)
      | .free a => .free a := by
  rw [TransitionEngine.resumeOrder, slot_mapPlayback h]
  cases e.slot k with
  | free a => rfl
  | inUse r =>
    obtain ⟨kind, playback, start, length, curve, pausedAt, accumulatedPause, count⟩ := r
    cases pausedAt <;> rfl

/-- After a resume order no slot of the playback is paused (R41). -/
theorem running_of_resumeOrder {e : TransitionEngine} (h : e.slots.wf FadeSlot.atReset = true) {p f k : Nat}
    {r : FadeRun} (hr : (e.resumeOrder p f).slot k = .inUse r) (hp : r.playback = p) : r.pausedAt = none := by
  rw [slot_resumeOrder h] at hr
  cases hs : e.slot k with
  | free a => rw [hs] at hr; cases hr
  | inUse r0 =>
    rw [hs] at hr
    by_cases h0 : r0.playback = p
    · simp only [h0, if_true, FadeSlot.inUse.injEq] at hr
      subst hr
      rfl
    · simp only [h0, if_false, FadeSlot.inUse.injEq] at hr
      exact absurd (hr ▸ hp) h0

theorem resumeOrder_wf {e : TransitionEngine} (h : e.slots.wf FadeSlot.atReset = true) (p f : Nat) :
    (e.resumeOrder p f).slots.wf FadeSlot.atReset = true := Table.mapCells_wf _ _ _ h

/-- The slots of a playback that reach their end, where none of them is paused. -/
theorem mem_endingOf {e : TransitionEngine} (h : e.slots.wf FadeSlot.atReset = true) {p f : Nat}
    (hrun : ∀ k r, e.slot k = .inUse r → r.playback = p → r.pausedAt = none) (k : Nat) :
    k ∈ e.endingOf p f ↔
      ∃ r, e.slot k = .inUse r ∧ r.playback = p ∧ r.start + r.length + r.accumulatedPause = f := by
  rw [TransitionEngine.endingOf, Table.mem_keysWhere FadeSlot.atReset _ e.slots k h rfl]
  change (match e.slot k with
    | .inUse r => decide (r.playback = p) && r.endsAt f
    | .free _ => false) = true ↔ _
  cases hs : e.slot k with
  | free a => simp
  | inUse r =>
    simp only [Bool.and_eq_true, decide_eq_true_eq, endsAt_iff, FadeSlot.inUse.injEq, exists_eq_left']
    exact ⟨fun ⟨hp, _, he⟩ => ⟨hp, he⟩, fun ⟨hp, he⟩ => ⟨hp, hrun k r hs hp, he⟩⟩

theorem nodup_keys_of_rising {α : Type} {cells : List (Nat × α)} {lo : Option Nat}
    (h : Table.risingFrom lo cells = true) : (cells.map Prod.fst).Nodup := by
  induction cells generalizing lo with
  | nil => exact List.nodup_nil
  | cons c rest ih =>
    obtain ⟨k, v⟩ := c
    have hrest : Table.risingFrom (some k) rest = true := Table.risingFrom_of_none h
    refine List.nodup_cons.mpr ⟨fun hk => ?_, ih hrest⟩
    obtain ⟨c, hc, hck⟩ := List.mem_map.mp hk
    exact absurd (Table.lt_of_risingFrom rest k hrest c hc) (by omega)

theorem nodup_keysWhere {α : Type} [DecidableEq α] {d : α} {t : Table α} (h : t.wf d = true) (p : α → Bool) :
    (t.keysWhere p).Nodup :=
  (nodup_keys_of_rising ((Table.wf_iff d t).mp h).1).sublist (List.filter_sublist.map Prod.fst)

/-- The playback record after a RESUME that ends a pause of `n` frames (R68, R74). -/
theorem shiftPlayback_eq (n : Nat) (q : Playback) :
    FrameWork.shiftPlayback n q =
      { q with
        paused := none
        pending := match q.pending with
          | [] => []
          | c :: rest => moved n c :: rest
        inFlight := q.inFlight.map (fun c => if c.state = .delayed then moved n c else c) } := rfl

theorem applyPause_paused {w : FrameWork} {p : Nat} {o : Owed} (h : (w.s.controller.playback p).paused ≠ none) :
    w.applyPause p o = w.finish o .ok 0 := if_pos (Option.isSome_iff_ne_none.mpr h)

theorem applyPause_running {w : FrameWork} {p : Nat} {o : Owed} (h : (w.s.controller.playback p).paused = none) :
    w.applyPause p o =
      FrameWork.finish { w with
        s := { w.s with
          engine := w.s.engine.pauseOrder p w.s.clock.frame
          controller := w.s.controller.setPlayback p
            { w.s.controller.playback p with paused := some w.s.clock.frame } } } o .ok 1 :=
  if_neg (by simp [FrameWork.playback, h])

theorem applyResume_running {w : FrameWork} {p : Nat} {o : Owed} (h : (w.s.controller.playback p).paused = none) :
    w.applyResume p o = w.finish o .ok 0 := by
  have h' : (w.playback p).paused = none := h
  simp only [FrameWork.applyResume, h']

theorem applyResume_paused {w : FrameWork} {p f : Nat} {o : Owed} (h : (w.s.controller.playback p).paused = some f) :
    w.applyResume p o =
      FrameWork.finish { w with
        s := { w.s with
          engine := w.s.engine.resumeOrder p w.s.clock.frame
          controller := w.s.controller.setPlayback p
            (FrameWork.shiftPlayback (w.s.clock.frame - f) (w.s.controller.playback p)) }
        mustEnd := w.mustEnd ++ (w.s.engine.resumeOrder p w.s.clock.frame).endingOf p w.s.clock.frame } o .ok
        (w.s.clock.frame - f) := by
  have h' : (w.playback p).paused = some f := h
  simp only [FrameWork.applyResume, h']
  rfl

/-- Settles O47: the first part is `frameStart_applies`; the others are what the two orders do to each slot, and which
slots a resume order brings to their end. -/
theorem pauseAndResumeShiftThePlayback : Obligations.PauseAndResumeShiftThePlayback := by
  refine ⟨fun order s e p hc hf => ?applied, fun w p o hc => ?_⟩
  case applied =>
    have happlied := frameStart_applies order hc hf
    exact ⟨fun he => by rwa [he] at happlied, fun he => by rwa [he] at happlied⟩
  obtain ⟨-, -, hwf, -⟩ := hc
  refine ⟨fun f hp => ⟨applyPause_paused (by simp [hp]), ?resume⟩, fun hp => ⟨applyResume_running hp, ?pause⟩⟩
  case resume =>
    have hrun := fun k r => running_of_resumeOrder (f := w.s.clock.frame) (k := k) (r := r) hwf (p := p)
    have hwf' := resumeOrder_wf hwf p w.s.clock.frame
    exact ⟨_, _, applyResume_paused hp, rfl, slot_resumeOrder hwf p _, nodup_keysWhere hwf' _, mem_endingOf hwf' hrun⟩
  case pause => exact ⟨_, applyPause_running hp, rfl, slot_pauseOrder hwf p _⟩

/-! ## The end of a cue (R57, R60, R66, R67) -/

theorem followDue_eq {w : FrameWork} (hw : 25 ≤ w.period) (q : Playback) (l : List Cue) :
    w.followDue q l = followers w q l := by
  cases l with
  | nil => rfl
  | cons c rest =>
    simp only [FrameWork.followDue, followers, FrameWork.clockOf, framesOf_eq_framesIn _ hw]
    cases q.paused <;> rfl

theorem endCue_of_isCue {w : FrameWork} {p id : Nat} {c : Cue} (hw : 25 ≤ w.period) (hc : isCue w p id c)
    (status : Status) : w.endCue p id status = cueEnds w p c status := by
  have hcue : w.cueOf p id = some c := hc
  have hid : c.id = id := by simpa using List.find?_some hc
  subst hid
  simp only [FrameWork.endCue, hcue, followDue_eq hw, decide_eq_true_eq]
  rfl

theorem endCue_of_not_isCue {w : FrameWork} {p id : Nat} (h : ∀ c, ¬isCue w p id c) (status : Status) :
    w.endCue p id status = w := by
  have hcue : w.cueOf p id = none := Option.eq_none_iff_forall_ne_some.mpr h
  simp only [FrameWork.endCue, hcue]

/-- An end notice of a CUE slot ends its cue by the notice's reason (R66). -/
theorem takeNotice_cue {w : FrameWork} {n : EndNotice} {id scene : Nat} (h : n.kind = .cue id scene) :
    w.takeNotice n = w.endCue n.playback id
      (match n.reason with
        | .ended => .ok
        | .lost => .superseded
        | .released | .cleared | .snapped | .showReset => .cancelled) := by
  simp only [FrameWork.takeNotice, h]
  cases n.reason <;> rfl

/-! ## The period of a frame (R100) -/

/-- What one staged entry makes of the period of frame `f`. -/
def periodAfter (f acc : Nat) (e : Staged ClockRequest) : Nat :=
  match e.request with
  | .setPeriod p => if e.frame = f then p else acc
  | _ => acc

theorem beginFrame_period (s : State) (f : Nat) :
    (s.beginFrame f).period = s.clock.staged.foldl (periodAfter f) s.clock.period := rfl

theorem periodAfter_setPeriod {f acc x : Nat} {e : Staged ClockRequest} (he : e.frame = f)
    (hx : e.request = .setPeriod x) : periodAfter f acc e = x := by
  simp [periodAfter, hx, he]

theorem periodAfter_other {f acc : Nat} {e : Staged ClockRequest}
    (h : e.frame = f → ∀ x, e.request ≠ .setPeriod x) : periodAfter f acc e = acc := by
  unfold periodAfter
  split
  next x hx => exact if_neg fun he => h he x hx
  next => rfl

/-- Entries that set no period for frame `f` leave it. -/
theorem foldl_periodAfter {f acc : Nat} {l : List (Staged ClockRequest)}
    (h : ∀ e ∈ l, e.frame = f → ∀ x, e.request ≠ .setPeriod x) : l.foldl (periodAfter f) acc = acc := by
  induction l with
  | nil => rfl
  | cons e l ih =>
    obtain ⟨he, hl⟩ := List.forall_mem_cons.mp h
    rw [List.foldl_cons, periodAfter_other he, ih hl]

/-! ## The due frame of a head (R59, R60, R68) -/

theorem beginFrame_playback {s : State} (hc : canonical s) (f p : Nat) :
    (s.beginFrame f).s.controller.playback p = (s.controller.playback p).setHead f (s.beginFrame f).period := by
  obtain ⟨-, -, -, hwf, -⟩ := hc
  exact Table.get_mapCells Playback.atReset _ s.controller.playbacks p rfl hwf

theorem setHead_follow {q : Playback} {c : Cue} {rest : List Cue} {f period : Nat} (hp : 25 ≤ period)
    (hq : q.pending = c :: rest) (ht : c.trigger = .follow) (hd : c.due = none)
    (hl : ∀ id, q.lastTrigger ≠ .inFlight id) :
    q.setHead f period =
      { q with
        pending :=
          { c with
            due := some ((match q.paused with
              | some at_ => at_
              | none => f) + 1 + framesIn c.followWait period) } :: rest } := by
  unfold Playback.setHead
  cases hlt : q.lastTrigger with
  | inFlight id => exact absurd hlt (hl id)
  | absent | ended =>
    simp only [hq, ht, hd, and_self, if_true, framesOf_eq_framesIn _ hp]
    cases q.paused <;> rfl

theorem setHead_other {q : Playback} {f period : Nat}
    (h : ∀ c rest, q.pending = c :: rest →
      c.trigger ≠ .follow ∨ c.due ≠ none ∨ ∃ id, q.lastTrigger = .inFlight id) :
    q.setHead f period = q := by
  unfold Playback.setHead
  split
  next => rfl
  next => rfl
  next _ c rest hq hlast =>
    rcases h c rest hq with ht | hd | ⟨id, hid⟩
    · exact if_neg fun hboth => ht hboth.1
    · exact if_neg fun hboth => hd hboth.2
    · exact absurd hid (hlast id)

/-- Settles O49: what the end of a cue does, and, at a frame start, the period in force and the due frame of each
head. -/
theorem cuesEndAndHeadsFollow : Obligations.CuesEndAndHeadsFollow := by
  refine ⟨fun w p id status hw => ⟨fun c hc => endCue_of_isCue hw hc status, fun h => endCue_of_not_isCue h status, ?_⟩,
    fun s f p hc hperiod => ⟨foldl_periodAfter, ?lastPeriod, ?follows, ?keeps⟩⟩
  · rintro n rfl ⟨scene, hkind⟩
    exact takeNotice_cue hkind
  case lastPeriod =>
    intro before e after x hs he hx hafter
    rw [beginFrame_period, hs, List.foldl_append, List.foldl_cons, periodAfter_setPeriod he hx, foldl_periodAfter hafter]
  case follows =>
    intro c rest hq ht hd hl
    exact (beginFrame_playback hc f p).trans (setHead_follow hperiod hq ht hd hl)
  case keeps =>
    intro h
    exact (beginFrame_playback hc f p).trans (setHead_other h)

end Sys2Proof.Transitions
end

section
/-! PROOFS. Fade levels: the elapsed count, the curves' fractions, and the level between two levels. -/

namespace Sys2Proof.Transitions

open Machine Safety Claims

/-! ## The elapsed count (R39) -/

theorem elapsed_running {r : FadeRun} (h : r.pausedAt = none) (n : Nat) :
    r.elapsed n = min (n - r.start - r.accumulatedPause) r.length := by
  simp only [FadeRun.elapsed, h, clampTo]
  omega

theorem elapsed_paused {r : FadeRun} {p : Nat} (h : r.pausedAt = some p) (n : Nat) :
    r.elapsed n = min (p - 1 - r.start - r.accumulatedPause) r.length := by
  simp only [FadeRun.elapsed, h, clampTo]
  omega

theorem elapsed_le (r : FadeRun) (n : Nat) : r.elapsed n ≤ r.length := by
  cases h : r.pausedAt with
  | none => rw [elapsed_running h]; exact Nat.min_le_right _ _
  | some p => rw [elapsed_paused h]; exact Nat.min_le_right _ _

theorem elapsed_mono (r : FadeRun) {m n : Nat} (hmn : m ≤ n) : r.elapsed m ≤ r.elapsed n := by
  cases h : r.pausedAt with
  | none => rw [elapsed_running h, elapsed_running h]; omega
  | some p => exact Nat.le_of_eq ((elapsed_paused h m).trans (elapsed_paused h n).symm)

/-! ## The curves (R43) -/

/-- The model's fraction is that of the statement, where the count is within the length. -/
theorem fraction_eq_shape (c : Curve) {k T : Nat} (hk : k ≤ T) : c.fraction k T = shape c k T := by
  unfold Curve.fraction
  cases T with
  | zero => rfl
  | succ T =>
    rw [if_neg (Nat.succ_ne_zero T)]
    cases c with
    | linear | snapStart => rfl
    | square => simp only [shape, Nat.pow_two]
    | scurve => simp only [shape, Nat.pow_succ, Nat.pow_zero, Nat.one_mul]
    | snapEnd =>
      rcases Nat.lt_or_eq_of_le hk with hlt | rfl
      · simp [shape, hlt, Nat.ne_of_lt hlt]
      · simp [shape]

/-- The denominator does not depend on the count. -/
theorem shape_den_eq (c : Curve) (j k T : Nat) : (shape c j T).2 = (shape c k T).2 := by
  cases T <;> cases c <;> rfl

theorem shape_den_pos (c : Curve) (k T : Nat) : 0 < (shape c k T).2 := by
  cases T with
  | zero => exact Nat.one_pos
  | succ T => cases c <;> simp [shape]

/-- The numerator of SCURVE rises with the count. -/
theorem scurve_mono {j k T : Nat} (hjk : j ≤ k) (hk : k ≤ T) : j * j * (3 * T - 2 * j) ≤ k * k * (3 * T - 2 * k) := by
  obtain ⟨d, rfl⟩ := Nat.exists_eq_add_of_le hjk
  obtain ⟨e, rfl⟩ := Nat.exists_eq_add_of_le hk
  have hj : 3 * (j + d + e) - 2 * j = j + 3 * d + 3 * e := by omega
  have hjd : 3 * (j + d + e) - 2 * (j + d) = j + d + 3 * e := by omega
  have hexpand : (j + d) * (j + d) * (j + d + 3 * e) =
      j * j * (j + 3 * d + 3 * e) + d * (3 * j * d + 6 * j * e + d * d + 3 * d * e) := by grind
  rw [hj, hjd, hexpand]
  exact Nat.le_add_right _ _

/-- As the count rises, the fraction rises (R44). -/
theorem shape_num_mono (c : Curve) {j k T : Nat} (hjk : j ≤ k) (hk : k ≤ T) : (shape c j T).1 ≤ (shape c k T).1 := by
  cases T with
  | zero => exact Nat.le_refl 1
  | succ T =>
    cases c with
    | linear => exact hjk
    | square => exact Nat.mul_le_mul hjk hjk
    | scurve => exact scurve_mono hjk hk
    | snapStart => exact Nat.le_refl 1
    | snapEnd =>
      simp only [shape]
      split <;> split <;> omega

/-- At the full length the fraction is 1. -/
theorem shape_full (c : Curve) (T : Nat) : (shape c T T).1 = (shape c T T).2 := by
  cases T with
  | zero => rfl
  | succ T =>
    cases c with
    | linear | square | snapStart => rfl
    | scurve =>
      simp only [shape]
      rw [show 3 * (T + 1) - 2 * (T + 1) = T + 1 by omega]
    | snapEnd => simp [shape]

theorem shape_num_le_den (c : Curve) {k T : Nat} (hk : k ≤ T) : (shape c k T).1 ≤ (shape c k T).2 :=
  calc (shape c k T).1 ≤ (shape c T T).1 := shape_num_mono c hk (Nat.le_refl T)
    _ = (shape c T T).2 := shape_full c T
    _ = (shape c k T).2 := shape_den_eq c T k T

/-- At count 0 the fraction is 0, but for SNAP_START. -/
theorem shape_zero {c : Curve} (hc : c ≠ .snapStart) {T : Nat} (hT : 1 ≤ T) : (shape c 0 T).1 = 0 := by
  obtain ⟨T, rfl⟩ := Nat.exists_eq_add_of_le' hT
  cases c with
  | linear => rfl
  | square | scurve => simp [shape]
  | snapStart => exact absurd rfl hc
  | snapEnd => simp [shape]

theorem shape_snapStart (k T : Nat) : shape .snapStart k T = (1, 1) := by
  cases T <;> rfl

/-! ## The level between two levels (R43) -/

/-- The way gone never exceeds the way. -/
theorem wayGone_le {N D : Nat} (h : N ≤ D) (x : Nat) : x * N / D ≤ x :=
  Nat.div_le_of_le_mul (by rw [Nat.mul_comm D x]; exact Nat.mul_le_mul_left x h)

theorem toNat_ofInt_level {z : Int} {n : Nat} (hz : z = n) (hn : n < 2 ^ 16) : (BitVec.ofInt 16 z).toNat = n := by
  subst hz
  rw [BitVec.ofInt_natCast, BitVec.toNat_ofNat, Nat.mod_eq_of_lt hn]

theorem levelBetween_up {a b : Level} (hab : a ≤ b) {N D : Nat} (h : N ≤ D) :
    (levelBetween a b N D).toNat = a.toNat + (b.toNat - a.toNat) * N / D := by
  have hab : a.toNat ≤ b.toNat := hab
  have hgone := wayGone_le h (b.toNat - a.toNat)
  refine toNat_ofInt_level ?_ (by have := b.isLt; omega)
  rw [← Int.ofNat_sub hab, ← Int.natCast_mul, ← Int.ofNat_tdiv, ← Int.natCast_add]

theorem levelBetween_down {a b : Level} (hba : b ≤ a) {N D : Nat} (h : N ≤ D) :
    (levelBetween a b N D).toNat = a.toNat - (a.toNat - b.toNat) * N / D := by
  have hba : b.toNat ≤ a.toNat := hba
  have hgone := wayGone_le h (a.toNat - b.toNat)
  refine toNat_ofInt_level ?_ (Nat.lt_of_le_of_lt (Nat.sub_le ..) a.isLt)
  have hway : ((b.toNat : Int) - a.toNat) * N = -(((a.toNat - b.toNat) * N : Nat) : Int) := by
    rw [Int.natCast_mul, Int.ofNat_sub hba, ← Int.neg_mul, Int.neg_sub]
  rw [hway, Int.neg_tdiv, ← Int.ofNat_tdiv, Int.ofNat_sub (by omega)]
  rfl

/-! ## The level of a FADING channel (R43, R44) -/

theorem level_eq (r : FadeRun) (n : Nat) (a b : Level) :
    r.level n a b =
      levelBetween a b (shape r.curve (r.elapsed n) r.length).1 (shape r.curve (r.elapsed n) r.length).2 := by
  simp only [FadeRun.level, fraction_eq_shape r.curve (elapsed_le r n)]

theorem level_up (r : FadeRun) (n : Nat) {a b : Level} (hab : a ≤ b) :
    (r.level n a b).toNat =
      a.toNat + (b.toNat - a.toNat) * (shape r.curve (r.elapsed n) r.length).1 /
        (shape r.curve (r.elapsed n) r.length).2 := by
  rw [level_eq, levelBetween_up hab (shape_num_le_den _ (elapsed_le r n))]

theorem level_down (r : FadeRun) (n : Nat) {a b : Level} (hba : b ≤ a) :
    (r.level n a b).toNat =
      a.toNat - (a.toNat - b.toNat) * (shape r.curve (r.elapsed n) r.length).1 /
        (shape r.curve (r.elapsed n) r.length).2 := by
  rw [level_eq, levelBetween_down hba (shape_num_le_den _ (elapsed_le r n))]

/-- Where the fraction is 1 the level is the to level. -/
theorem levelBetween_whole (a b : Level) {N D : Nat} (h : N = D) (hD : 0 < D) : levelBetween a b N D = b := by
  subst h
  refine BitVec.eq_of_toNat_eq ?_
  rcases BitVec.le_total a b with hab | hba
  · have hab' : a.toNat ≤ b.toNat := hab
    rw [levelBetween_up hab (Nat.le_refl N), Nat.mul_div_cancel _ hD]; omega
  · have hba' : b.toNat ≤ a.toNat := hba
    rw [levelBetween_down hba (Nat.le_refl N), Nat.mul_div_cancel _ hD]; omega

/-- Where the fraction is 0 the level is the from level. -/
theorem levelBetween_none (a b : Level) (D : Nat) : levelBetween a b 0 D = a := by
  refine BitVec.eq_of_toNat_eq ?_
  rcases BitVec.le_total a b with hab | hba
  · simp [levelBetween_up hab (Nat.zero_le D)]
  · simp [levelBetween_down hba (Nat.zero_le D)]

/-- The way gone never falls from one frame to a later one (R44). -/
theorem wayGone_mono (r : FadeRun) {m n : Nat} (hmn : m ≤ n) (x : Nat) :
    x * (shape r.curve (r.elapsed m) r.length).1 / (shape r.curve (r.elapsed m) r.length).2 ≤
      x * (shape r.curve (r.elapsed n) r.length).1 / (shape r.curve (r.elapsed n) r.length).2 := by
  rw [shape_den_eq r.curve (r.elapsed m) (r.elapsed n)]
  exact Nat.div_le_div_right (Nat.mul_le_mul_left x (shape_num_mono _ (elapsed_mono r hmn) (elapsed_le r n)))

theorem wayGone_le_way (r : FadeRun) (n x : Nat) :
    x * (shape r.curve (r.elapsed n) r.length).1 / (shape r.curve (r.elapsed n) r.length).2 ≤ x :=
  wayGone_le (shape_num_le_den _ (elapsed_le r n)) x

theorem level_rises (r : FadeRun) {m n : Nat} (hmn : m ≤ n) {a b : Level} (hab : a ≤ b) :
    a ≤ r.level m a b ∧ r.level m a b ≤ r.level n a b ∧ r.level n a b ≤ b := by
  have hab' : a.toNat ≤ b.toNat := hab
  have hmono := wayGone_mono r hmn (b.toNat - a.toNat)
  have hle := wayGone_le_way r n (b.toNat - a.toNat)
  simp only [BitVec.le_def, level_up r m hab, level_up r n hab]
  exact ⟨Nat.le_add_right _ _, Nat.add_le_add_left hmono _, by omega⟩

theorem level_falls (r : FadeRun) {m n : Nat} (hmn : m ≤ n) {a b : Level} (hba : b ≤ a) :
    b ≤ r.level n a b ∧ r.level n a b ≤ r.level m a b ∧ r.level m a b ≤ a := by
  have hba' : b.toNat ≤ a.toNat := hba
  have hmono := wayGone_mono r hmn (a.toNat - b.toNat)
  have hle := wayGone_le_way r n (a.toNat - b.toNat)
  simp only [BitVec.le_def, level_down r m hba, level_down r n hba]
  exact ⟨by omega, Nat.sub_le_sub_left hmono _, Nat.sub_le _ _⟩

/-- Settles O42, from the elapsed count, the curves' fractions and the level at a fraction. -/
theorem fadeLevelsAreExactAndMonotonic : Obligations.FadeLevelsAreExactAndMonotonic := by
  intro r n a b
  refine ⟨fun h => elapsed_running h n, fun p h => elapsed_paused h n, fun h hlen => ⟨?rises, ?full⟩, level_up r n,
    level_down r n, fun h => ?atEnd, fun h hlen hc => ?atStart, fun hc => ?snapStart,
    fun m hmn => ⟨level_rises r hmn, level_falls r hmn⟩⟩
  case rises => rw [elapsed_running h, elapsed_running h]; omega
  case full => rw [elapsed_running h]; omega
  case atEnd =>
    rw [level_eq, h]
    exact levelBetween_whole a b (shape_full _ _) (shape_den_pos _ _ _)
  case atStart => rw [level_eq, h, shape_zero hc hlen, levelBetween_none]
  case snapStart =>
    rw [level_eq, hc, shape_snapStart]
    exact levelBetween_whole a b rfl Nat.one_pos

end Sys2Proof.Transitions
end

section
/-! PROOFS. Requests at intake and their completions: a record that is taken and passes its checks reaches its owner,
which stages it or answers it; what handing over a completion does. -/

namespace Sys2Proof.Playbacks

open Machine Safety Claims

/-! ## Completions (R83, R159, R167, R174) -/

theorem statusCode_eq (status : Status) : statusCode status = status.code := by cases status <;> rfl

theorem byteOf_zero (v : Nat) : byteOf v 0 = BitVec.ofNat 8 v := by simp [byteOf]

theorem leBytes_two (v : Nat) : leBytes v 2 = [BitVec.ofNat 8 v, BitVec.ofNat 8 (v / 2 ^ 8)] := by
  simp [leBytes, byteOf, List.range_succ]

theorem leBytes_four (v : Nat) :
    leBytes v 4 =
      [BitVec.ofNat 8 v, BitVec.ofNat 8 (v / 2 ^ 8), BitVec.ofNat 8 (v / 2 ^ 16), BitVec.ofNat 8 (v / 2 ^ 24)] := by
  simp [leBytes, byteOf, List.range_succ]

theorem leBytes_toNat (x : BitVec 16) : leBytes x.toNat 2 = [x.setWidth 8, (x >>> 8).setWidth 8] := by
  simp [leBytes_two, ← BitVec.ofNat_toNat, Nat.shiftRight_eq_div_pow]

/-- The bytes of a completion record, one by one (11.2). -/
theorem completionRecord_eq (c : Ctx) (status : Status) (detail sequence : Nat) :
    completionRecord c status detail sequence =
      [1, BitVec.ofNat 8 (statusCode status), c.tag.setWidth 8, (c.tag >>> 8).setWidth 8, BitVec.ofNat 8 c.sq, 0,
        BitVec.ofNat 8 c.head, BitVec.ofNat 8 (c.head / 2 ^ 8), BitVec.ofNat 8 detail, BitVec.ofNat 8 (detail / 2 ^ 8),
        BitVec.ofNat 8 (detail / 2 ^ 16), BitVec.ofNat 8 (detail / 2 ^ 24), 0, 0, BitVec.ofNat 8 sequence,
        BitVec.ofNat 8 (sequence / 2 ^ 8)] := by
  rw [completionRecord, leBytes_toNat, leBytes_two, leBytes_two, leBytes_four, byteOf_zero, byteOf_zero, statusCode_eq]
  rfl

/-- The next entry of a ring, as a remainder. -/
theorem ringNext_eq_mod {i size : Nat} (h : i < size) : ringNext i size = (i + 1) % size := by
  unfold ringNext
  split
  next hlt => exact (Nat.mod_eq_of_lt hlt).symm
  next hge => rw [show i + 1 = size by omega, Nat.mod_self]

/-- Settles O16: a completion that may not be posted changes nothing; any other one writes its record, and changes its
source queue and the bound completion queue. -/
theorem completionAccounting : Obligations.CompletionAccounting := by
  refine fun s o status detail => ⟨fun h => ?lost, fun hkept hrun hroom htail => ?posted⟩
  case lost =>
    have hpost : s.host.postable o = false := by
      rcases h with hdrop | hstate
      · simp [HostUnit.postable, hdrop]
      · simp [HostUnit.postable, hstate]
    rw [State.finish, HostUnit.complete_of_not_postable _ _ _ _ hpost]
  case posted =>
    have hpost : s.host.postable o = true := by simp [HostUnit.postable, hkept, hrun, hroom]
    refine ⟨s.host.complete o status detail, rfl, ?record, fun j => ?source, fun m => ?bound⟩
    case record =>
      rw [← completionRecord_eq]
      simp only [HostUnit.complete, hpost, if_true]
      rfl
    case source =>
      rw [HostUnit.sq_complete]
      simp only [hpost, true_and]
      rfl
    case bound =>
      rw [HostUnit.cq_complete]
      simp only [hpost, true_and]
      split
      next hm =>
        subst hm
        rw [CompletionQueue.afterPost, ringNext_eq_mod htail]
        rfl
      next => rfl

/-! ## A record that is taken and passes its checks (R164, R165) -/

/-- It is routed by its kind, on the state in which its queue has taken it. -/
theorem exec_of_passes {i : Instr} {k : Kind} {b : RecordBody} {s : State} {q : Nat}
    (hi : i.record = some { kind := k.code, body := b }) (ht : takes s q b) (hp : passes s k b) :
    exec i s = .next ((taken s q).route (noted s q b) b.group.toNat (requestOf k b)) := by
  obtain ⟨hfetch, hfence⟩ := ht
  rw [exec_of_record i _ s hi, State.recordArrives_taken s _ q hfetch hfence]
  change Host.Outcome.next ((taken s q).checkAndRoute (noted s q b) { kind := k.code, body := b }) = _
  rw [State.checkAndRoute_of_check]
  change formatCheck (taken s q).componentsAt _ = _ at hp
  rw [hp]

/-! ## Staging (R53, R87, R102, R103, R115, R122) -/

/-- The owner of a groupable request stages it. -/
theorem takeGroupable_eq_staged (s : State) (c : Ctx) (r : GroupRequest) : s.takeGroupable c r = staged s c r := by
  cases r <;> rfl

/-- Each groupable command brings a record of its kind, which carries the request listed with it. -/
theorem groupables_spell (b : RecordBody) : ∀ e ∈ groupables b,
    e.1.record = some { kind := e.2.1.code, body := b } ∧ requestOf e.2.1 b = .groupable e.2.2 := by
  simp only [groupables, List.forall_mem_cons]
  exact ⟨⟨rfl, rfl⟩, ⟨rfl, rfl⟩, ⟨rfl, rfl⟩, ⟨rfl, rfl⟩, ⟨rfl, rfl⟩, ⟨rfl, rfl⟩, ⟨rfl, rfl⟩, ⟨rfl, rfl⟩, ⟨rfl, rfl⟩,
    ⟨rfl, rfl⟩, ⟨rfl, rfl⟩, fun _ h => absurd h List.not_mem_nil⟩

/-- Settles O18: each of the records is routed to its owner, and the owner stages the request. -/
theorem frameRequestsAreStaged : Obligations.FrameRequestsAreStaged := by
  refine ⟨fun s q b ht hgroup e he hp => ?groupable, fun s q b ht => ⟨fun hp => ?commit, fun hp => ?showReset⟩⟩
  case groupable =>
    obtain ⟨hrecord, hrequest⟩ := groupables_spell b e he
    rw [exec_of_passes hrecord ht hp, hrequest, hgroup, ← takeGroupable_eq_staged]
    rfl
  case commit =>
    rw [exec_of_passes (k := .commit) rfl ht hp]
    rfl
  case showReset =>
    rw [exec_of_passes (k := .showReset) rfl ht hp]
    rfl

/-! ## RUN_CUE (R56, R70, R71) -/

theorem curveOf_getD (n : Nat) :
    (curveOf n).getD .linear = [Curve.linear, .square, .scurve, .snapStart, .snapEnd].getD n .linear := by
  match n with
  | 0 | 1 | 2 | 3 | 4 | _ + 5 => rfl

theorem triggerOf_getD (n : Nat) :
    (triggerOf n).getD .manual = [Trigger.manual, .follow, .withPrevious].getD n .manual := by
  match n with
  | 0 | 1 | 2 | _ + 3 => rfl

/-- What the record of a RUN_CUE asks for. -/
def cueAsked (b : RecordBody) : CueRequest :=
  { playback := field b 8 1, scene := field b 9 1, label := field b 10 2, fadeTime := field b 12 2,
    delay := field b 14 2, followWait := field b 16 2, curve := (curveOf (field b 18 1)).getD .linear,
    trigger := (triggerOf (field b 19 1)).getD .manual, report := reportFlag b }

theorem requestOf_runCue (b : RecordBody) : requestOf .runCue b = .runCue (cueAsked b) := rfl

theorem newCue_eq_cueOf (s : State) (q : Nat) (b : RecordBody) (id : Nat) :
    newCue id (noted s q b) (cueAsked b) = cueOf s q b id := by
  simp only [newCue, cueAsked, cueOf, curveOf_getD, triggerOf_getD]

theorem takeRunCue_full {s : State} {c : Ctx} {r : CueRequest}
    (h : 16 ≤ (s.controller.playback r.playback).pending.length) : s.takeRunCue c r = s.finishNow c .listFull 16 :=
  if_pos h

theorem takeRunCue_reported {s : State} {c : Ctx} {r : CueRequest}
    (h : (s.controller.playback r.playback).pending.length < 16) (hr : r.report = true) :
    s.takeRunCue c r = s.appendCue r.playback (newCue s.controller.nextCue c r) :=
  (if_neg (Nat.not_le.mpr h)).trans (if_pos hr)

theorem takeRunCue_answered {s : State} {c : Ctx} {r : CueRequest}
    (h : (s.controller.playback r.playback).pending.length < 16) (hr : r.report = false) :
    s.takeRunCue c r =
      (s.appendCue r.playback (newCue s.controller.nextCue c r)).finishNow c .ok
        ((s.controller.playback r.playback).pending.length + 1) :=
  (if_neg (Nat.not_le.mpr h)).trans (if_neg (hr ▸ Bool.false_ne_true))

/-- Settles O22: the record is routed to the controller, which refuses the cue or appends it. -/
theorem runCueJoinsThePendingList : Obligations.RunCueJoinsThePendingList := by
  intro s q b ht hp
  have hroute : exec (.runCue b) s = .next ((taken s q).takeRunCue (noted s q b) (cueAsked b)) :=
    exec_of_passes rfl ht hp
  refine ⟨fun hfull => ?full, fun hroom => ⟨_, rfl, fun hreport => ?reported, fun hreport => ?answered⟩⟩
  case full => rw [hroute, takeRunCue_full hfull]
  case reported =>
    rw [hroute, takeRunCue_reported hroom hreport, newCue_eq_cueOf]
    rfl
  case answered =>
    rw [hroute, takeRunCue_answered hroom hreport, newCue_eq_cueOf]
    rfl

/-! ## CONFIG_PLAYBACK and QUERY_PLAYBACK (R54, R69, R80) -/

theorem ownedCount_eq_ownedBy (s : State) (p : Nat) : s.arbiter.ownedCount p = ownedBy s p := rfl

theorem playbackState_code (s : State) (p : Nat) : (s.playbackState p).code = stateCode s p := by
  simp only [State.playbackState, Playback.state, stateCode, ownedCount_eq_ownedBy, Option.isSome_iff_ne_none,
    Nat.pos_iff_ne_zero]
  split
  · rfl
  · split
    · rfl
    · split
      · rfl
      · split <;> rfl

theorem playbackState_idle_iff (s : State) (p : Nat) : s.playbackState p = .idle ↔ stateCode s p = 0 := by
  rw [← playbackState_code]
  cases s.playbackState p <;> simp [PlaybackState.code]

theorem statusWord_eq_statusOf (s : State) (p : Nat) : s.statusWord p = statusOf s p := by
  rw [State.statusWord, playbackState_code, ownedCount_eq_ownedBy]
  rfl

/-- CONFIG_PLAYBACK of a playback that may be configured. -/
theorem takeConfigPlayback_idle {s : State} {c : Ctx} {p priority time : Nat}
    (h : stateCode s p = 0 ∧ (s.controller.playback p).pending = []) :
    s.takeConfigPlayback c p priority time =
      State.finishNow
        { s with
          controller := s.controller.setPlayback p
            { s.controller.playback p with priority := priority, defaultRelease := time } } c .ok
        (statusOf
          { s with
            controller := s.controller.setPlayback p
              { s.controller.playback p with priority := priority, defaultRelease := time } } p) := by
  rw [← playbackState_idle_iff] at h
  rw [← statusWord_eq_statusOf]
  exact if_pos h

/-- CONFIG_PLAYBACK of any other one. -/
theorem takeConfigPlayback_busy {s : State} {c : Ctx} {p priority time : Nat}
    (h : stateCode s p ≠ 0 ∨ (s.controller.playback p).pending ≠ []) :
    s.takeConfigPlayback c p priority time = s.finishNow c .busy (statusOf s p) := by
  rw [Ne, ← playbackState_idle_iff] at h
  rw [← statusWord_eq_statusOf]
  exact if_neg fun ⟨hidle, hpending⟩ => h.elim (· hidle) (· hpending)

/-- Settles O23: the two records are routed to the controller, which answers with the status word. -/
theorem playbackConfigurationAndQuery : Obligations.PlaybackConfigurationAndQuery := by
  refine fun s q b ht => ⟨fun hp => ?config, fun hp => ?query⟩
  case config =>
    have hroute : exec (.configPlayback b) s =
        .next ((taken s q).takeConfigPlayback (noted s q b) (field b 8 1) (field b 9 1) (field b 10 2)) :=
      exec_of_passes rfl ht hp
    refine ⟨fun hidle => ⟨_, rfl, ?idle⟩, fun hbusy => ?busy⟩
    case idle =>
      rw [hroute, takeConfigPlayback_idle (s := taken s q) hidle]
      rfl
    case busy =>
      rw [hroute, takeConfigPlayback_busy (s := taken s q) hbusy]
      rfl
  case query =>
    have hroute : exec (.queryPlayback b) s = .next ((taken s q).takeQueryPlayback (noted s q b) (field b 8 1)) :=
      exec_of_passes rfl ht hp
    rw [hroute, State.takeQueryPlayback, statusWord_eq_statusOf]
    rfl

end Sys2Proof.Playbacks
end

section
/-! PROOFS. A frame start that finds no work but COMMITs, CONFIG_PORTs and what the host interface brings: which pieces
of work may be taken, and what each of them leaves. -/

namespace Sys2Proof.Playbacks

open Machine Safety Claims Transitions

/-! ## Staged lists -/

theorem firstDue_mem {ρ : Type} {f : Nat} {l rest : List (Staged ρ)} {e : Staged ρ} (h : firstDue f l e rest) :
    e ∈ l ∧ e.frame = f := by
  obtain ⟨before, after, rfl, -, he, -⟩ := h
  exact ⟨by simp, he⟩

/-- Taking the first entry that is due takes it off those that are due, and leaves those that are not. -/
theorem firstDue_stamped {ρ : Type} {f : Nat} {l rest : List (Staged ρ)} {e : Staged ρ} (h : firstDue f l e rest) :
    stamped f l = e :: stamped f rest ∧
      l.filter (fun x => x.frame ≠ f) = rest.filter (fun x => x.frame ≠ f) := by
  obtain ⟨before, after, rfl, rfl, he, hbefore⟩ := h
  have hnone : stamped f before = [] := by simpa [stamped] using hbefore
  unfold stamped at hnone ⊢
  simp [List.filter_append, hnone, he]

theorem not_due_of_stamped_nil {ρ : Type} {f : Nat} {l : List (Staged ρ)} (h : stamped f l = []) :
    ∀ e ∈ l, e.frame ≠ f := by
  simpa [stamped] using h

theorem stamped_nil_of_not_due {ρ : Type} {f : Nat} {l : List (Staged ρ)} (h : ∀ e ∈ l, e.frame ≠ f) :
    stamped f l = [] := by
  simpa [stamped] using h

/-! ## The heads of a calm controller (R59, R60) -/

theorem filterMap_eq_self {α : Type} {g : α → Option α} {l : List α} (h : ∀ x ∈ l, g x = some x) :
    l.filterMap g = l := by
  induction l with
  | nil => rfl
  | cons x l ih =>
    obtain ⟨hx, hl⟩ := List.forall_mem_cons.mp h
    rw [List.filterMap_cons_some hx, ih hl]

/-- A change that changes none of the listed records leaves a canonical table. -/
theorem mapCells_eq_self {α : Type} [DecidableEq α] {d : α} {g : Nat → α → α} {t : Table α} (h : t.wf d = true)
    (hg : ∀ k, g k (t.get d k) = t.get d k) : t.mapCells d g = t := by
  obtain ⟨hrising, hne⟩ := (Table.wf_iff d t).mp h
  have hcell : ∀ c ∈ t.cells, (if g c.1 c.2 = d then none else some (c.1, g c.1 c.2)) = some c := by
    intro c hc
    have hget : t.get d c.1 = c.2 := Table.lookup_of_mem d t.cells none hrising c hc
    have hsame := hg c.1
    rw [hget] at hsame
    rw [hsame, if_neg (hne c hc)]
  rw [Table.mapCells, filterMap_eq_self hcell]

theorem setHead_of_waitsAt {q : Playback} {f period : Nat} (h : waitsAt q f) : q.setHead f period = q := by
  refine setHead_other fun c rest hq => ?_
  obtain ⟨hfollow, -⟩ := h.1 c rest hq
  by_cases ht : c.trigger = .follow
  · by_cases hd : c.due = none
    · exact .inr (.inr (hfollow ht hd))
    · exact .inr (.inl hd)
  · exact .inl ht

/-- A frame start that finds no head to be set begins with nothing changed but the frame number. -/
theorem beginFrame_calm {s : State} {f : Nat} (hc : canonical s) (h : ∀ p, waitsAt (s.controller.playback p) f) :
    (s.beginFrame f).s = { s with clock := { s.clock with frame := f } } := by
  obtain ⟨-, -, -, hwf, -⟩ := hc
  have hheads : s.controller.playbacks.mapCells Playback.atReset (fun _ p => p.setHead f (s.clock.periodOf f)) =
      s.controller.playbacks :=
    mapCells_eq_self hwf fun p => setHead_of_waitsAt (h p)
  simp only [State.beginFrame, PlaybackController.setHeads, hheads]

/-! ## The controller's passes where no playback has work (R58, R61) -/

/-- The visits of the sweep that are left after `n` of them. -/
def visitsFrom (n : Nat) : List ControllerStep := ((List.range 16).map ControllerStep.sweep).drop n

theorem visitsFrom_eq_cons {n : Nat} {c : ControllerStep} {later : List ControllerStep}
    (h : visitsFrom n = c :: later) : n < 16 ∧ c = .sweep n ∧ later = visitsFrom (n + 1) := by
  have hlt : n < 16 := by
    refine Nat.lt_of_not_le fun hge => ?_
    have hnil : visitsFrom n = [] := List.drop_eq_nil_of_le (by simpa using hge)
    rw [hnil] at h
    cases h
  have hcons : visitsFrom n = .sweep n :: visitsFrom (n + 1) := by
    unfold visitsFrom
    rw [List.drop_eq_getElem_cons (by simpa using hlt)]
    simp
  rw [hcons] at h
  cases h
  exact ⟨hlt, rfl, rfl⟩

theorem standsAt_visits {n : Nat} (h : n ≤ 16) : standsAt (visitsFrom n) true := .inr ⟨rfl, n, h, .inl rfl⟩

/-- The controller's next step, where it stands, and where it stands with the step done. -/
theorem standsAt_cons {c : ControllerStep} {later : List ControllerStep} {passed : Bool}
    (h : standsAt (c :: later) passed) :
    (c = .stagedPass ∧ standsAt later true) ∨
      passed = true ∧ standsAt later true ∧
        ((∃ p, c = .sweep p ∧ standsAt (.tryHead p :: later) true) ∨ ∃ p, c = .tryHead p) := by
  rcases h with ⟨heq, -⟩ | ⟨hpassed, n, hn, heq | ⟨p, -, heq⟩⟩
  · cases heq
    exact .inl ⟨rfl, standsAt_visits (n := 0) (by omega)⟩
  · obtain ⟨hlt, rfl, rfl⟩ := visitsFrom_eq_cons heq.symm
    exact .inr ⟨hpassed, standsAt_visits hlt, .inl ⟨n, rfl, .inr ⟨rfl, n + 1, hlt, .inr ⟨n, rfl, rfl⟩⟩⟩⟩
  · cases heq
    exact .inr ⟨hpassed, standsAt_visits hn, .inr ⟨p, rfl⟩⟩

theorem tryHead_of_waitsAt {w : FrameWork} {p : Nat} (h : waitsAt (w.s.controller.playback p) w.s.clock.frame) :
    w.tryHead p = w := by
  refine tryHead_of_not_due fun hdue => ?_
  cases hq : (w.s.controller.playback p).pending with
  | nil => exact absurd hdue (by simp [headDue_nil (w := w) (q := w.playback p) hq])
  | cons c rest =>
    obtain ⟨hpaused, ⟨d, hd, hle⟩, hroom⟩ := (headDue_iff hq).mp hdue
    obtain ⟨-, hlater⟩ := h.1 c rest hq
    exact absurd (hlater hpaused hroom d hd) (Nat.not_lt.mpr hle)

/-- The sweep's visit finds no fade start; it tries the head, unless the playback is PAUSED. -/
theorem sweep_of_waitsAt {w : FrameWork} {p : Nat} (h : waitsAt (w.s.controller.playback p) w.s.clock.frame) :
    w.sweep p = w ∨ w.sweep p = { w with agenda := .tryHead p :: w.agenda } := by
  unfold FrameWork.sweep
  by_cases hp : (w.playback p).paused.isSome = true
  · exact .inl (if_pos hp)
  · have hdelayed : ∀ c ∈ (w.playback p).inFlight, c.state = .delayed → c.due ≠ some w.frame :=
      h.2 (Option.not_isSome_iff_eq_none.mp hp)
    have hnone : (w.playback p).inFlight.filter (fun c => decide (c.state = .delayed ∧ c.due = some w.frame)) = [] := by
      simpa [List.filter_eq_nil_iff] using hdelayed
    simp only [if_neg hp, hnone]
    exact .inr rfl

/-! ## Resting work -/

/-- Nothing of the work makes more work but COMMITs, CONFIG_PORTs, and what the host interface brings. -/
structure Resting (w : FrameWork) : Prop where
  stands : standsAt w.agenda w.stagedOver
  once : w.atOnce = []
  controller : ∀ e ∈ w.s.controller.staged, e.frame ≠ w.s.clock.frame
  bands : ∀ e ∈ w.s.bands.staged, e.frame ≠ w.s.clock.frame
  clock : ∀ e ∈ w.s.clock.staged, e.frame ≠ w.s.clock.frame
  calm : calmAt w.s w.s.clock.frame
  loads : w.answers = [] ∨ w.s.store.loads = []
  notices : w.notices = []
  mustEnd : w.mustEnd = []
  toController : w.toController = []
  toBands : w.toBands = []
  toComposer : w.toComposer = []
  sent : w.resetSent = false
  losses : w.resetLosses = []

/-- What a piece of resting work may be, and what it leaves. -/
inductive RestingPiece (w : FrameWork) : FrameWork → Prop
  | steps (agenda : List ControllerStep) (passed : Bool) (h : standsAt agenda passed) :
      RestingPiece w { w with agenda := agenda, stagedOver := passed }
  | answer (a : LoadAnswer) (rest : List LoadAnswer) (loads : List Ctx) (h : w.answers = a :: rest) :
      RestingPiece w { w with answers := rest, bandLoads := loads }
  | arrival (a : IntakeArrival) (rest : List IntakeArrival) (h : w.intake = a :: rest) :
      RestingPiece w { w with intake := rest, s := w.s.intakeArrival a }
  | port (e : Staged PortRequest) (rest : List (Staged PortRequest))
      (h : firstDue w.s.clock.frame w.s.ports.staged e rest) :
      RestingPiece w { w with s := State.applyConfigPort { w.s with ports := { w.s.ports with staged := rest } } e }
  | commit (e : Staged Nat) (rest : List (Staged Nat)) (h : firstDue w.s.clock.frame w.s.groups.commits e rest) :
      RestingPiece w
        (FrameWork.applyCommit { w with s := { w.s with groups := { w.s.groups with commits := rest } } } e.owed
          e.request)

/-- An answer of the host is discarded where no load is queued (R26, R32, R33). -/
theorem loadAnswer_of_no_load {s : State} (h : s.store.loads = []) (f : Nat) (a : LoadAnswer) :
    s.loadAnswer f a = s := by
  cases a <;> simp [State.loadAnswer, State.loadItem, State.loadError, h]

theorem takeAnswer_of_no_load {w : FrameWork} (h : w.s.store.loads = []) (a : LoadAnswer) :
    ∃ loads, w.takeAnswer a = { w with bandLoads := loads } := by
  unfold FrameWork.takeAnswer
  split
  · exact ⟨w.bandLoads, rfl⟩
  · rw [loadAnswer_of_no_load h]
    exact ⟨_, rfl⟩

section
variable {w v : FrameWork}

/-- The host unit, the groups and the ports may be changed beside resting work. -/
theorem Resting.edit (h : Resting w) {agenda : List ControllerStep} {passed : Bool} {answers : List LoadAnswer}
    (hs : standsAt agenda passed) (hl : answers = [] ∨ w.s.store.loads = []) (host : HostUnit) (groups : GroupUnit)
    (ports : StripPorts) (intake : List IntakeArrival) (loads : List Ctx) :
    Resting { w with
      agenda := agenda, stagedOver := passed, answers := answers, intake := intake, bandLoads := loads
      s := { w.s with host := host, groups := groups, ports := ports } } :=
  { h with stands := hs, loads := hl }

/-- A step of the controller that stands at a point of its passes takes it to another one. -/
theorem Resting.step (h : Resting w) {c : ControllerStep} {later : List ControllerStep} (ha : w.agenda = c :: later)
    (hc : c ≠ .stagedPass) : RestingPiece w (stepDone { w with agenda := later } c) := by
  have hstands := h.stands
  obtain ⟨-, -, hplaybacks⟩ := h.calm
  rw [ha] at hstands
  have passOn (agenda : List ControllerStep) (hp : w.stagedOver = true) (hs : standsAt agenda true) :
      RestingPiece w { w with agenda := agenda } := .steps agenda w.stagedOver (hp ▸ hs)
  rcases standsAt_cons hstands with ⟨rfl, -⟩ | ⟨hp, hlater, ⟨p, rfl, htry⟩ | ⟨p, rfl⟩⟩
  · exact absurd rfl hc
  · rcases sweep_of_waitsAt (w := { w with agenda := later }) (hplaybacks p) with hsweep | hsweep
    · rw [stepDone, hsweep]
      exact passOn later hp hlater
    · rw [stepDone, hsweep]
      exact passOn _ hp htry
  · rw [stepDone, tryHead_of_waitsAt (w := { w with agenda := later }) (hplaybacks p)]
    exact passOn later hp hlater

/-- The pieces of resting work: every other piece wants something that is not there. -/
theorem Resting.piece (h : Resting w) {i : WorkItem} (hi : w.may i) (hp : Piece w i v) : RestingPiece w v := by
  obtain ⟨hloadEnds, hslots, -⟩ := h.calm
  have due {ρ : Type} {l rest : List (Staged ρ)} {e : Staged ρ} (hl : ∀ e ∈ l, e.frame ≠ w.s.clock.frame)
      (hd : firstDue w.s.clock.frame l e rest) : False := hl e (firstDue_mem hd).1 (firstDue_mem hd).2
  have absent {α : Type} {l rest : List α} {x : α} (hl : l = []) (hx : l = x :: rest) : False :=
    List.cons_ne_nil x rest (hx.symm.trans hl)
  have unsent {P : Prop} (hr : w.resetSent = true ∧ P) : False := Bool.false_ne_true (h.sent.symm.trans hr.1)
  cases hp with
  | commit e rest hd => exact .commit e rest hd
  | port e rest hd => exact .port e rest hd
  | arrival a rest hx =>
    have htake : FrameWork.takeArrival { w with intake := rest } a =
        { w with intake := rest, s := w.s.intakeArrival a } := if_neg (by simp [h.sent])
    rw [htake]
    exact .arrival a rest hx
  | answer a rest hx =>
    obtain ⟨loads, htake⟩ := takeAnswer_of_no_load (w := { w with answers := rest })
      (h.loads.resolve_left (absent · hx)) a
    rw [htake]
    exact .answer a rest loads hx
  | passOver later _ _ ha =>
    have hstands := h.stands
    rw [ha] at hstands
    rcases standsAt_cons hstands with ⟨-, hlater⟩ | ⟨-, -, ⟨p, hc, -⟩ | ⟨p, hc⟩⟩
    · exact .steps later true hlater
    · cases hc
    · cases hc
  | step c later _ ha hc => exact h.step ha hc
  | stepAtOnce c later ho => exact (absent h.once ho).elim
  | composer e rest hd => exact (due h.clock hd).elim
  | band e rest hd => exact (due h.bands hd).elim
  | playback e rest later hd => exact (due h.controller hd).elim
  | composerReleased o q rest hx => exact (absent h.toComposer hx).elim
  | playbackReleased o q rest hx => exact (absent h.toController hx).elim
  | bandReleased o q rest hx => exact (absent h.toBands hx).elim
  | slotMustEnd k hk => exact absurd (h.mustEnd ▸ hk) List.not_mem_nil
  | slotEnd k r hr hrun he => exact absurd he (hslots k r hr hrun)
  | endNotice n rest hx => exact (absent h.notices hx).elim
  | loadEnd n before after hx hf => exact absurd hf (hloadEnds n (by simp [hx]))
  | resetArbiter | resetStore | resetEngine | resetController | resetBands | resetGroups => exact (unsent hi).elim
  | resetReport hl => exact absurd h.losses hl

end

/-! ## What resting work comes to -/

/-- The state with the CONFIG_PORTs of its frame taken off their list. -/
def portsTaken (s : State) : State :=
  { s with ports := { s.ports with staged := s.ports.staged.filter (fun e => e.frame ≠ s.clock.frame) } }

/-- The state that resting work with no COMMIT comes to: the CONFIG_PORTs of the frame are applied, and what the host
interface brings is taken. -/
def outcome (w : FrameWork) : State :=
  w.intake.foldl State.intakeArrival ((stamped w.s.clock.frame w.s.ports.staged).foldl configures (portsTaken w.s))

theorem portsTaken_eq_self {s : State} (h : stamped s.clock.frame s.ports.staged = []) : portsTaken s = s := by
  rw [portsTaken, filter_not_due h]

theorem outcome_of_no_port {w : FrameWork} (h : stamped w.s.clock.frame w.s.ports.staged = []) :
    outcome w = w.intake.foldl State.intakeArrival w.s := by
  rw [outcome, h, portsTaken_eq_self h, List.foldl_nil]

/-- CONFIG_PORT is applied as R137 says. -/
theorem applyConfigPort_eq_configures (s : State) (e : Staged PortRequest) : s.applyConfigPort e = configures s e := rfl

/-- One CONFIG_PORT is applied, and the others follow. -/
theorem foldl_configures_cons {s : State} {e : Staged PortRequest} {rest : List (Staged PortRequest)}
    (h : firstDue s.clock.frame s.ports.staged e rest) :
    (stamped s.clock.frame s.ports.staged).foldl configures (portsTaken s) =
      (stamped s.clock.frame rest).foldl configures
        (portsTaken (State.applyConfigPort { s with ports := { s.ports with staged := rest } } e)) := by
  obtain ⟨hstamped, hothers⟩ := firstDue_stamped h
  rw [hstamped, List.foldl_cons, applyConfigPort_eq_configures, portsTaken, hothers]
  rfl

theorem intakeArrival_leaves (s : State) (a : IntakeArrival) :
    (s.intakeArrival a).clock = s.clock ∧ (s.intakeArrival a).ports = s.ports ∧
      (s.intakeArrival a).groups.commits = s.groups.commits := by
  obtain ⟨host, hold, hjoin, -⟩ := s.intakeArrival_joins a
  rw [hjoin]
  exact ⟨rfl, rfl, rfl⟩

/-- What the host interface brings leaves the work resting. -/
theorem Resting.arrival {w : FrameWork} (h : Resting w) (a : IntakeArrival) (rest : List IntakeArrival) :
    Resting { w with intake := rest, s := w.s.intakeArrival a } := by
  obtain ⟨host, hold, hjoin, -⟩ := w.s.intakeArrival_joins a
  rw [hjoin]
  exact h.edit h.stands h.loads host _ w.s.ports rest w.bandLoads

/-- However its pieces follow each other, resting work with no COMMIT, where CONFIG_PORTs do not meet arrivals, comes to
one state. -/
theorem works_outcome {w u : FrameWork} (hw : Works w u) (h : Resting w)
    (hcommits : stamped w.s.clock.frame w.s.groups.commits = [])
    (hone : w.intake = [] ∨ stamped w.s.clock.frame w.s.ports.staged = []) : u.s = outcome w := by
  induction hw with
  | finished w hleft =>
    obtain ⟨-, -, -, hports, -, -, -, -, -, hintake, -⟩ := hleft
    rw [outcome_of_no_port (stamped_nil_of_not_due hports), hintake, List.foldl_nil]
  | piece w v u i hi hpiece _ ih =>
    cases h.piece ((FrameWork.mem_enabled w i).mp hi) hpiece with
    | steps agenda passed hs => exact ih (h.edit hs h.loads _ _ _ _ _) hcommits hone
    | answer a rest loads ha =>
      have hloads := h.loads.resolve_left fun hnil => List.cons_ne_nil a rest (ha.symm.trans hnil)
      exact ih (h.edit h.stands (.inr hloads) _ _ _ _ _) hcommits hone
    | arrival a rest ha =>
      have hports := hone.resolve_left fun hnil => List.cons_ne_nil a rest (ha.symm.trans hnil)
      obtain ⟨hclock, hsame, hcommits'⟩ := intakeArrival_leaves w.s a
      have hports' : stamped (w.s.intakeArrival a).clock.frame (w.s.intakeArrival a).ports.staged = [] := by
        rw [hclock, hsame, hports]
      rw [ih (h.arrival a rest) (by rw [hclock, hcommits', hcommits]) (.inr hports'), outcome_of_no_port hports',
        outcome_of_no_port hports, ha, List.foldl_cons]
    | port e rest hd =>
      have hstamped := (firstDue_stamped hd).1
      have hintake := hone.resolve_right (hstamped ▸ List.cons_ne_nil e _)
      rw [ih (h.edit h.stands h.loads _ _ _ _ _) hcommits (.inl hintake), outcome, outcome,
        foldl_configures_cons hd]
      rfl
    | commit e rest hd => exact absurd (hcommits.symm.trans (firstDue_stamped hd).1) nofun

/-! ## The frame start -/

/-- The work that a frame start begins with. -/
def opening (course : FrameCourse) (s : State) : FrameWork :=
  { s.beginFrame (s.clock.frame + 1) with answers := course.answers, intake := course.intake }

/-- FRAME_START does the pieces of its work until nothing is left. -/
theorem frameStart_works (course : FrameCourse) {s : State} (hc : canonical s) :
    ∃ u, exec (.frameStart course) s = .next u.s ∧ Works (opening course s) u :=
  ⟨_, rfl, works_run _ course.picks _ (beginFrame_sound s _ hc) ((beginFrame_live s _).same rfl rfl rfl rfl rfl)
    (Nat.le_refl _) (Nat.le_refl _) (Nat.le_refl _)⟩

/-- The work begins resting where no owner but the ports and the groups has a request staged for the frame. -/
theorem opening_resting {course : FrameCourse} {s : State} (hc : canonical s) (hcalm : calmAt s (s.clock.frame + 1))
    (hloads : noLoadEnds course s) (hcontroller : ∀ e ∈ s.controller.staged, e.frame ≠ s.clock.frame + 1)
    (hbands : ∀ e ∈ s.bands.staged, e.frame ≠ s.clock.frame + 1)
    (hclock : ∀ e ∈ s.clock.staged, e.frame ≠ s.clock.frame + 1) : Resting (opening course s) := by
  obtain ⟨hloadEnds, hslots, hplaybacks⟩ := hcalm
  have hs : (opening course s).s = { s with clock := { s.clock with frame := s.clock.frame + 1 } } :=
    beginFrame_calm hc hplaybacks
  refine ⟨.inl ⟨rfl, rfl⟩, rfl, ?_, ?_, ?_, ?_, ?_, rfl, rfl, rfl, rfl, rfl, rfl, rfl⟩
  all_goals rw [hs]
  · exact hcontroller
  · exact hbands
  · exact hclock
  · exact ⟨hloadEnds, hslots, hplaybacks⟩
  · exact hloads

/-- A frame start of resting work with no COMMIT. -/
theorem frameStart_outcome {course : FrameCourse} {s : State} (hc : canonical s) (hcalm : calmAt s (s.clock.frame + 1))
    (h : Resting (opening course s)) (hcommits : stamped (s.clock.frame + 1) s.groups.commits = [])
    (hone : course.intake = [] ∨ stamped (s.clock.frame + 1) s.ports.staged = []) :
    exec (.frameStart course) s =
      .next (course.intake.foldl State.intakeArrival
        ((stamped (s.clock.frame + 1) s.ports.staged).foldl configures
          (portsTaken { s with clock := { s.clock with frame := s.clock.frame + 1 } }))) := by
  obtain ⟨-, -, hplaybacks⟩ := hcalm
  obtain ⟨u, hexec, hworks⟩ := frameStart_works course hc
  have hs : (opening course s).s = { s with clock := { s.clock with frame := s.clock.frame + 1 } } :=
    beginFrame_calm hc hplaybacks
  rw [hexec, works_outcome hworks h hcommits hone, outcome, hs]
  rfl

/-- Settles O32: the frame start begins with resting work, and no port has anything staged. -/
theorem quietFrameStartOnlyCounts : Obligations.QuietFrameStartOnlyCounts := by
  intro course s hc hquiet hloads
  obtain ⟨hcontroller, hbands, hclock, hcommits, hports, hcalm⟩ := hquiet
  have hports := stamped_nil_of_not_due hports
  rw [frameStart_outcome hc hcalm (opening_resting hc hcalm hloads hcontroller hbands hclock)
    (stamped_nil_of_not_due hcommits) (.inr hports), hports, List.foldl_nil, portsTaken_eq_self hports]

/-! ## COMMIT (R123) -/

/-- A held request as it is released: its completion is owed. -/
def releasedPlayback (h : HeldRequest) : Option (Owed × PlaybackRequest) :=
  match h.request with
  | .playback r => some (owes h.ctx, r)
  | _ => none

def releasedBand (h : HeldRequest) : Option (Owed × BandRequest) :=
  match h.request with
  | .band r => some (owes h.ctx, r)
  | _ => none

def releasedCompose (h : HeldRequest) : Option (Owed × ComposeRequest) :=
  match h.request with
  | .compose r => some (owes h.ctx, r)
  | _ => none

/-- Released requests are handed to their owners in held order. -/
theorem foldl_handOut (l : List HeldRequest) (w : FrameWork) :
    l.foldl FrameWork.handOut w =
      { w with
        toController := w.toController ++ l.filterMap releasedPlayback
        toBands := w.toBands ++ l.filterMap releasedBand
        toComposer := w.toComposer ++ l.filterMap releasedCompose } := by
  induction l generalizing w with
  | nil => simp
  | cons h l ih =>
    obtain ⟨group, ctx, request⟩ := h
    rw [List.foldl_cons, ih]
    cases request <;>
      simp [FrameWork.handOut, releasedPlayback, releasedBand, releasedCompose, owes, List.filterMap_cons]

theorem applyCommit_eq (w : FrameWork) (o : Owed) (g : Nat) :
    w.applyCommit o g =
      FrameWork.finish
        { w with
          s := { w.s with groups := { w.s.groups with hold := w.s.groups.hold.filter (fun h => h.group ≠ g) } }
          toController := w.toController ++ (membersOf w g).filterMap releasedPlayback
          toBands := w.toBands ++ (membersOf w g).filterMap releasedBand
          toComposer := w.toComposer ++ (membersOf w g).filterMap releasedCompose } o .ok (membersOf w g).length := by
  rw [FrameWork.applyCommit, foldl_handOut]
  rfl

/-- The work of a frame start that finds one COMMIT alone, at a point of the controller's passes, with the COMMIT taken
off its list. -/
theorem begun_of_commit {s : State} {e : Staged Nat} (hf : finds s [] [] [e] [] []) (agenda : List ControllerStep)
    (passed : Bool) :
    begun s agenda passed =
      { s.beginFrame (s.clock.frame + 1) with
        agenda := agenda, stagedOver := passed
        s := { (s.beginFrame (s.clock.frame + 1)).s with
          groups := { s.groups with
            commits := s.groups.commits.filter (fun e => e.frame ≠ s.clock.frame + 1) } } } := by
  obtain ⟨hcontroller, hbands, -, -, -, hnotices, -⟩ := hf
  have hnotices : s.store.notices.filter (fun x => x.frame ≠ s.clock.frame + 1) = s.store.notices := by
    simpa using hnotices
  unfold begun
  rw [filter_not_due hcontroller, filter_not_due hbands, hnotices]
  rfl

/-- Where one COMMIT alone is staged, the work applies it at some point of the controller's passes. -/
theorem works_commit {s : State} {e : Staged Nat} {w u : FrameWork} (hf : finds s [] [] [e] [] []) (hw : Works w u)
    (h : Resting w) (hat : ∃ agenda passed,
      w = { s.beginFrame (s.clock.frame + 1) with agenda := agenda, stagedOver := passed }) :
    ∃ agenda passed, standsAt agenda passed ∧ Works ((begun s agenda passed).applyCommit e.owed e.request) u := by
  have ⟨_, _, hcommits, _, hports, _⟩ := hf
  induction hw with
  | finished w hleft =>
    obtain ⟨-, -, -, -, hnone, -⟩ := hleft
    obtain ⟨agenda, passed, rfl⟩ := hat
    exact absurd (hcommits.symm.trans (stamped_nil_of_not_due hnone)) nofun
  | piece w v u i hi hpiece hworks ih =>
    obtain ⟨agenda, passed, rfl⟩ := hat
    cases h.piece ((FrameWork.mem_enabled _ i).mp hi) hpiece with
    | steps agenda' passed' hs => exact ih (h.edit hs h.loads _ _ _ _ _) ⟨agenda', passed', rfl⟩
    | answer a rest loads ha => cases ha
    | arrival a rest ha => cases ha
    | port e rest hd => exact absurd (hports.symm.trans (firstDue_stamped hd).1) nofun
    | commit e' rest hd =>
      obtain ⟨hstamped, hothers⟩ := firstDue_stamped hd
      obtain ⟨rfl, hrest⟩ := List.cons.inj (hcommits.symm.trans hstamped)
      have hleft : s.groups.commits.filter (fun e => e.frame ≠ s.clock.frame + 1) = rest :=
        hothers.trans (filter_not_due hrest.symm)
      refine ⟨agenda, passed, h.stands, ?_⟩
      rw [begun_of_commit hf, hleft]
      exact hworks

/-- FRAME_START applies the COMMIT that alone is staged for the frame, and does what follows from it. -/
theorem frameStart_commits (order : List Nat) {s : State} {e : Staged Nat} (hc : canonical s)
    (hf : finds s [] [] [e] [] []) :
    ∃ agenda passed,
      standsAt agenda passed ∧ frameStartDoes order s ((begun s agenda passed).applyCommit e.owed e.request) := by
  have ⟨hcontroller, hbands, _, hclock, _, hnotices, hslots, hplaybacks⟩ := hf
  have hcalm : calmAt s (s.clock.frame + 1) :=
    ⟨by simpa using hnotices,
      fun k r hr hrun he => List.not_mem_nil ((hslots k).mpr ⟨r, hr, hrun, he⟩), hplaybacks⟩
  have hrest : Resting (opening (undisturbed order) s) :=
    opening_resting hc hcalm (.inl rfl) (not_due_of_stamped_nil hcontroller) (not_due_of_stamped_nil hbands)
      (not_due_of_stamped_nil hclock)
  obtain ⟨u, hexec, hworks⟩ := frameStart_works (undisturbed order) hc
  obtain ⟨agenda, passed, hstands, hdone⟩ := works_commit hf hworks hrest ⟨_, _, rfl⟩
  exact ⟨agenda, passed, hstands, u, hexec, hdone⟩

/-! ## Released requests (R124) -/

theorem takeReleased_resume {w : FrameWork} (hreset : w.resetController = false) (hover : w.stagedOver = true)
    (o : Owed) (p : Nat) :
    w.takeReleased o (.resume p) = { w.applyResume p o with agenda := .sweep p :: (w.applyResume p o).agenda } := by
  simp only [FrameWork.takeReleased, hreset, hover, Bool.false_eq_true, if_false, if_true]
  rfl

theorem takeReleased_applied {w : FrameWork} {r : PlaybackRequest} (hreset : w.resetController = false)
    (h : (∀ p, r ≠ .resume p) ∨ w.stagedOver = false) (o : Owed) : w.takeReleased o r = w.applyPlayback o r := by
  cases r with
  | resume p =>
    have hover := h.resolve_left fun hne => hne p rfl
    simp only [FrameWork.takeReleased, hreset, hover, Bool.false_eq_true, if_false]
    rfl
  | go | pause | clear | release => simp only [FrameWork.takeReleased, hreset, Bool.false_eq_true, if_false]

/-- Settles O55: CONFIG_PORTs and a COMMIT are pieces of resting work; what COMMIT releases, and what its owners do with
it, is what the model's functions say. -/
theorem configPortAndCommitAreApplied : Obligations.ConfigPortAndCommitAreApplied := by
  refine ⟨fun course s hc hloads hintake hcalm hcontroller hbands hcommits hclock => ?ports,
    fun order s e hc hf => frameStart_commits order hc hf,
    fun w o r => ⟨fun hreset => if_pos hreset, fun hreset => ⟨fun h => takeReleased_applied hreset h o, ?resume⟩⟩,
    fun w o r => ⟨fun hreset => if_pos hreset, fun hreset => if_neg (hreset ▸ Bool.false_ne_true)⟩,
    fun w o q => ⟨fun hreset => if_pos hreset, fun hreset => if_neg (hreset ▸ Bool.false_ne_true)⟩, applyCommit_eq⟩
  case ports =>
    have hrest : Resting (opening course s) :=
      opening_resting hc hcalm hloads (not_due_of_stamped_nil hcontroller) (not_due_of_stamped_nil hbands)
        (not_due_of_stamped_nil hclock)
    rw [frameStart_outcome hc hcalm hrest hcommits (.inl hintake), hintake]
    rfl
  case resume =>
    rintro p rfl hover
    exact takeReleased_resume hreset hover o p

end Sys2Proof.Playbacks
end

section
/-! PROOFS. SET_FRAME_PERIOD and CONFIG_PORT at intake: the smallest period that a port fits, and the checks of the two
requests. -/

namespace Sys2Proof.Bands

open Machine Safety Claims Playbacks

/-! ## Periods that fit (R111, R133, R138) -/

theorem tenths_eq_tenthsOf (r : Rate) : r.tenths = tenthsOf r := by cases r <;> rfl

theorem tenths_pos (r : Rate) : 0 < r.tenths := by cases r <;> decide

theorem fits_iff (c : PortConfig) (p : Nat) : c.fits p = true ↔ fitsPeriod c p := by
  simp only [PortConfig.fits, PortConfig.need, PortConfig.bitTimes, PortConfig.dataBytes, decide_eq_true_eq, fitsPeriod,
    tenths_eq_tenthsOf]

theorem not_fits_iff (c : PortConfig) (p : Nat) : c.fits p = false ↔ ¬fitsPeriod c p := by
  rw [← fits_iff, Bool.not_eq_true]

/-- The quotient rounded up is the least period that fits. -/
theorem smallestPeriod_le_iff (c : PortConfig) (p : Nat) : c.smallestPeriod ≤ p ↔ fitsPeriod c p := by
  have hpos := tenths_pos c.rate
  have hcomm : 100 * p * c.rate.tenths = 100 * c.rate.tenths * p := Nat.mul_right_comm 100 p c.rate.tenths
  rw [← fits_iff, PortConfig.fits, decide_eq_true_eq, hcomm, PortConfig.smallestPeriod,
    Nat.div_le_iff_le_mul_add_pred (by omega)]
  omega

theorem foldl_max_le_iff (l : List Nat) (a p : Nat) : l.foldl max a ≤ p ↔ a ≤ p ∧ ∀ x ∈ l, x ≤ p := by
  induction l generalizing a with
  | nil => simp
  | cons x l ih => rw [List.foldl_cons, ih, Nat.max_le, List.forall_mem_cons, and_assoc]

theorem everyPortFits_iff (s : State) (p : Nat) :
    everyPortFits s p ↔ ∀ c ∈ s.ports.enabledConfigs, fitsPeriod c p := by
  simp only [everyPortFits, StripPorts.enabledConfigs, List.mem_filter, List.mem_map, List.mem_range, and_imp,
    forall_exists_index]
  exact ⟨fun h _ n hn hc => hc ▸ h n hn, fun h n hn => h _ n hn rfl⟩

theorem all_fit_iff (s : State) (p : Nat) :
    s.ports.enabledConfigs.all (fun c => c.fits p) = true ↔ everyPortFits s p := by
  simp only [List.all_eq_true, fits_iff, everyPortFits_iff]

/-- The smallest permitted period of R111 is the least one from 25 on that every enabled port fits. -/
theorem portsSmallestPeriod_le_iff (s : State) (p : Nat) :
    s.ports.smallestPeriod ≤ p ↔ 25 ≤ p ∧ everyPortFits s p := by
  simp only [StripPorts.smallestPeriod, foldl_max_le_iff, List.forall_mem_map, smallestPeriod_le_iff, everyPortFits_iff]

/-! ## SET_FRAME_PERIOD (R111) -/

theorem takeSetFramePeriod_fits {s : State} {p : Nat} (h : everyPortFits s p) (c : Ctx) :
    s.takeSetFramePeriod c p =
      State.stageClock { s with clock := { s.clock with acceptedPeriod := p } } c (.setPeriod p) :=
  if_pos ((all_fit_iff s p).mpr h)

theorem takeSetFramePeriod_tooLong {s : State} {p : Nat} (h : ¬everyPortFits s p) (c : Ctx) :
    s.takeSetFramePeriod c p = s.finishNow c .tooLong s.ports.smallestPeriod :=
  if_neg (mt (all_fit_iff s p).mp h)

/-! ## The bands on a port (R85, R138) -/

theorem runsOn_iff {b : Band} {p : Nat} : b.runsOn p = true ↔ ∃ d r, b = .running d r ∧ d.port = p := by
  cases b <;> simp [Band.runsOn]

theorem lowestOn_some {s : State} {p n : Nat} (hn : runningOn s p n) (hlow : ∀ m < n, ¬runningOn s p m) :
    s.bands.lowestOn p = some n := by
  obtain ⟨hlt, hon⟩ := hn
  refine List.find?_range_eq_some.mpr ⟨runsOn_iff.mpr hon, List.mem_range.mpr hlt, fun m hm => ?_⟩
  have hoff : ¬(s.bands.band m).runsOn p = true := fun h => hlow m hm ⟨Nat.lt_trans hm hlt, runsOn_iff.mp h⟩
  simpa using hoff

theorem lowestOn_none {s : State} {p : Nat} (h : ∀ n, ¬runningOn s p n) : s.bands.lowestOn p = none :=
  List.find?_eq_none.mpr fun n hn hon => h n ⟨List.mem_range.mp hn, runsOn_iff.mp hon⟩

/-! ## CONFIG_PORT (R138) -/

theorem takeConfigPort_busy {s : State} {q : PortRequest} {n : Nat} (h : s.bands.lowestOn q.port = some n) (c : Ctx) :
    s.takeConfigPort c q = s.finishNow c .busy n := by
  rw [State.takeConfigPort, h]

theorem takeConfigPort_tooLong {s : State} {q : PortRequest} (h : s.bands.lowestOn q.port = none)
    (hlong : q.config.enable = true ∧ ¬fitsPeriod q.config s.clock.acceptedPeriod) (c : Ctx) :
    s.takeConfigPort c q = s.finishNow c .tooLong q.config.smallestPeriod := by
  rw [← not_fits_iff] at hlong
  rw [State.takeConfigPort, h]
  exact if_pos hlong

theorem takeConfigPort_accepted {s : State} {q : PortRequest} (h : s.bands.lowestOn q.port = none)
    (hfits : q.config.enable = true → fitsPeriod q.config s.clock.acceptedPeriod) (c : Ctx) :
    s.takeConfigPort c q =
      { s with
        ports :=
          { records := s.ports.records.set Port.atReset q.port { s.ports.port q.port with accepted := q.config }
            staged := s.ports.staged ++ [s.stage c q] } } := by
  have hshort : ¬(q.config.enable = true ∧ q.config.fits s.clock.acceptedPeriod = false) := fun ⟨hon, hnot⟩ =>
    (not_fits_iff _ _).mp hnot (hfits hon)
  rw [State.takeConfigPort, h]
  exact if_neg hshort

/-! ## The record of a CONFIG_PORT (11.1, R165) -/

/-- Each parameter of a record that passes the format checks meets its condition. -/
theorem paramChecks_of_passes {s : State} {k : Kind} {b : RecordBody} (h : passes s k b) :
    ∀ c ∈ paramChecks s.componentsAt k b, c.2 = true := by
  have hcode : Kind.ofCode k.code = some k := by cases k <;> rfl
  have hnone : firstFailing (paramChecks s.componentsAt k b) = none := by
    unfold passes formatCheck at h
    simp only [hcode, checkKind] at h
    split at h
    · cases h
    · split at h
      · cases h
      · split at h
        · cases h
        · split at h
          · cases h
          · assumption
  simpa [firstFailing] using hnone

theorem switchOf_getD (n : Nat) : (switchOf n).getD false = decide (n = 1) := by
  match n with
  | 0 | 1 | _ + 2 => rfl

theorem rateOf_getD (n : Nat) : (rateOf n).getD .mbit08 = [Rate.mbit08, .mbit2, .mbit4, .mbit8].getD n .mbit08 := by
  match n with
  | 0 | 1 | 2 | 3 | _ + 4 => rfl

theorem feedOf_eq {n : Nat} (h : n ≤ 5 ∨ n = 255) :
    (if n ≤ 5 then some n else none) = if n = 255 then none else some n := by
  rcases h with h | rfl
  · rw [if_pos h, if_neg (by omega)]
  · rfl

/-- What the record of a CONFIG_PORT asks for. -/
def portAsked (b : RecordBody) : PortRequest := { port := field b 8 1, config := portConfig b }

theorem requestOf_configPort {s : State} {b : RecordBody} (h : passes s .configPort b) :
    requestOf .configPort b = .configPort (portAsked b) := by
  have hcheck : (18, decide (field b 18 1 ≤ 5 ∨ field b 18 1 = 255)) ∈ paramChecks s.componentsAt .configPort b := by
    simp only [paramChecks, List.mem_cons, true_or, or_true]
  have hfeed : field b 18 1 ≤ 5 ∨ field b 18 1 = 255 := of_decide_eq_true (paramChecks_of_passes h _ hcheck)
  simp only [requestOf, switchOf_getD, rateOf_getD, feedOf_eq hfeed, portAsked, portConfig]

/-- Settles O20: the record is routed to the composer or to the ports, which stage it or refuse it. -/
theorem periodsAndPortsAreCheckedAtIntake : Obligations.PeriodsAndPortsAreCheckedAtIntake := by
  refine ⟨fun s q b ht hp => ?period, fun s q b ht hp => ?port⟩
  case period =>
    have hroute : exec (.setFramePeriod b) s = .next ((taken s q).takeSetFramePeriod (noted s q b) (field b 8 2)) :=
      exec_of_passes rfl ht hp
    refine ⟨fun hfits => ?fits, fun hnot => ⟨s.ports.smallestPeriod, ?least, ?tooLong⟩⟩
    case fits =>
      rw [hroute, takeSetFramePeriod_fits (s := taken s q) hfits]
      rfl
    case least =>
      obtain ⟨hmin, hall⟩ := (portsSmallestPeriod_le_iff s _).mp (Nat.le_refl _)
      exact ⟨hmin, hall, fun p hp hfits => (portsSmallestPeriod_le_iff s p).mpr ⟨hp, hfits⟩⟩
    case tooLong =>
      rw [hroute, takeSetFramePeriod_tooLong (s := taken s q) hnot]
      rfl
  case port =>
    have hroute : exec (.configPort b) s = .next ((taken s q).takeConfigPort (noted s q b) (portAsked b)) := by
      rw [exec_of_passes rfl ht hp, requestOf_configPort hp]
      rfl
    refine ⟨fun n hn hlow => ?busy, fun hidle => ?idle⟩
    case busy =>
      have hband : (taken s q).bands.lowestOn (portAsked b).port = some n := lowestOn_some hn hlow
      rw [hroute, takeConfigPort_busy hband]
    case idle =>
      have hband : (taken s q).bands.lowestOn (portAsked b).port = none := lowestOn_none hidle
      refine ⟨fun ⟨hon, hnot⟩ => ⟨(portConfig b).smallestPeriod, ⟨?fits, ?least⟩, ?tooLong⟩, fun hfits => ?accepted⟩
      case fits => exact (smallestPeriod_le_iff _ _).mp (Nat.le_refl _)
      case least => exact fun p => (smallestPeriod_le_iff _ p).mpr
      case tooLong =>
        rw [hroute, takeConfigPort_tooLong hband ⟨decide_eq_true hon, hnot⟩]
        rfl
      case accepted =>
        rw [hroute, takeConfigPort_accepted hband fun hon => hfits (of_decide_eq_true hon)]
        rfl

end Sys2Proof.Bands
end

section
/-! PROOFS. Rolling: the roll offset modulo the roll length, the pattern index of a pixel, and how the pattern moves. -/

namespace Sys2Proof.Bands

open Machine Safety Claims

/-! ## The roll offset (R88) -/

theorem rollMod_cast (v : Int) {b : Nat} (h : 1 ≤ b) : (rollMod v b : Int) = v % b := by
  rw [rollMod, if_neg (by omega), Int.toNat_of_nonneg (Int.emod_nonneg v (by omega))]

theorem rollMod_lt (v : Int) {b : Nat} (h : 1 ≤ b) : rollMod v b < b := by
  have hlt : v % (b : Int) < b := Int.emod_lt_of_pos v (by omega)
  rw [← rollMod_cast v h] at hlt
  omega

theorem rollOffset_empty {d : BandSetup} (h : d.roll = 0) (origin n : Nat) : rollOffset d origin n = 0 := if_pos h

theorem rollOffset_eq {d : BandSetup} (h : 1 ≤ d.roll) (origin n : Nat) :
    (rollOffset d origin n : Int) =
      (d.originOffset + d.step * ((n - origin) / d.stepPeriod : Nat)) % (d.roll : Int) := rollMod_cast _ h

/-- A remainder differs from what it is taken of by a multiple of the divisor. -/
theorem emod_eq_add_mul (v b : Int) : v % b = v + b * -(v / b) := by
  rw [Int.emod_def, Int.mul_neg, Int.sub_eq_add_neg]

/-- One step period later the offset has moved by one step. -/
theorem rollOffset_next {d : BandSetup} (h : 1 ≤ d.roll) (hp : 1 ≤ d.stepPeriod) {origin n : Nat} (hn : origin ≤ n) :
    (rollOffset d origin (n + d.stepPeriod) : Int) = (rollOffset d origin n + d.step) % (d.roll : Int) := by
  have hsteps : (n + d.stepPeriod - origin) / d.stepPeriod = (n - origin) / d.stepPeriod + 1 := by
    rw [Nat.sub_add_comm hn, Nat.add_div_right _ hp]
  rw [rollOffset_eq h, rollOffset_eq h, hsteps, Int.emod_add_emod, Int.natCast_add, Int.mul_add, Int.add_assoc]
  simp only [Int.natCast_one, Int.mul_one]

/-! ## The pixels (R89) -/

theorem patternIndex_outside {d : BandSetup} {i : Nat} (h : i < d.lead ∨ d.lead + d.roll ≤ i) (o : Nat) :
    patternIndex d o i = i := if_pos h

theorem patternIndex_inside {d : BandSetup} {i : Nat} (h : d.lead ≤ i) (h' : i < d.lead + d.roll) (o : Nat) :
    patternIndex d o i = d.lead + (i - d.lead + o) % d.roll := if_neg (by omega)

/-- Component `m` of band pixel `i` shows that component of the pattern colour at the pixel's index. -/
theorem bandValue_pixel {d : BandSetup} {m : Nat} (hm : m < d.components) (r : BandRun) (n i : Nat) :
    bandValue d r n (r.firstChannel + i * d.components + m) =
      (d.pattern.getD (patternIndex d (rollOffset d r.originFrame n) i) []).getD m 0 := by
  have hchannel : r.firstChannel + i * d.components + m - r.firstChannel = m + d.components * i := by
    rw [Nat.mul_comm]; omega
  have hpixel : (m + d.components * i) / d.components = i := by
    rw [Nat.add_mul_div_left _ _ (by omega), Nat.div_eq_of_lt hm, Nat.zero_add]
  have hcomponent : (m + d.components * i) % d.components = m := by
    rw [Nat.add_mul_mod_self_left, Nat.mod_eq_of_lt hm]
  simp only [bandValue, hchannel, hpixel, hcomponent]

/-- A pixel of the roll shows one step period later what the pixel a step above it shows now. -/
theorem patternIndex_next {d : BandSetup} {x y origin n : Nat} (hp : 1 ≤ d.stepPeriod) (hx : x < d.roll)
    (hy : y < d.roll) (hxy : ((x : Int) - y - d.step) % d.roll = 0) (hn : origin ≤ n) :
    patternIndex d (rollOffset d origin (n + d.stepPeriod)) (d.lead + y) =
      patternIndex d (rollOffset d origin n) (d.lead + x) := by
  have hroll : 1 ≤ d.roll := by omega
  have hdiff : (x + rollOffset d origin n : Int) - (y + (rollOffset d origin n + d.step)) = x - y - d.step := by omega
  have hmoved : (y + (rollOffset d origin n + d.step)) % (d.roll : Int) =
      (x + rollOffset d origin n) % (d.roll : Int) :=
    (Int.emod_eq_emod_iff_emod_sub_eq_zero.mpr (hdiff ▸ hxy)).symm
  have hsame : (y + rollOffset d origin (n + d.stepPeriod)) % d.roll = (x + rollOffset d origin n) % d.roll := by
    rw [← Int.natCast_inj, Int.natCast_emod, Int.natCast_emod, Int.natCast_add, Int.natCast_add,
      rollOffset_next hroll hp hn, Int.add_emod_emod, hmoved]
  rw [patternIndex_inside (by omega) (by omega), patternIndex_inside (by omega) (by omega), Nat.add_sub_cancel_left,
    Nat.add_sub_cancel_left, hsame]

/-- Settles O43, from the roll offset modulo the roll and the pattern index of each pixel. -/
theorem rollingMovesThePattern : Obligations.RollingMovesThePattern := by
  intro d r n i m hm hp
  refine ⟨fun hempty => rollOffset_empty hempty _ _, fun hroll => ⟨rollMod_lt _ hroll, ?offset⟩, fun hout => ?outside,
    fun hlead hlt => ?inside, fun x y hx hy hxy hn => ?moved⟩
  case offset => exact ⟨_, (rollOffset_eq hroll r.originFrame n).trans (emod_eq_add_mul _ _)⟩
  case outside => rw [bandValue_pixel hm, patternIndex_outside hout]
  case inside => rw [bandValue_pixel hm, patternIndex_inside hlead hlt]
  case moved => rw [bandValue_pixel hm, bandValue_pixel hm, patternIndex_next hp hx hy hxy hn]

end Sys2Proof.Bands
end

section
/-! PROOFS. The losses that a batch reports: they stand in ascending slot order, and what taking them does to the fade
slots, to the scenes and to the notices. -/

namespace Sys2Proof.Bands

open Machine Safety Claims

/-! ## Losses in ascending slot order (R8, R48; log entry 15) -/

/-- The slots of a report's losses rise. -/
def ascending (lost : List (Nat × Nat)) : Prop := lost.Pairwise (fun a b => a.1 < b.1)

theorem slot_mem_addLoss {k : Nat} {lost : List (Nat × Nat)} {x : Nat × Nat} (h : x ∈ addLoss k lost) :
    x.1 = k ∨ ∃ y ∈ lost, x.1 = y.1 := by
  induction lost with
  | nil => exact .inl (by rw [List.mem_singleton.mp h])
  | cons y rest ih =>
    unfold addLoss at h
    split at h
    · rcases List.mem_cons.mp h with rfl | h
      · exact .inl rfl
      · exact .inr ⟨x, h, rfl⟩
    · split at h
      · rcases List.mem_cons.mp h with rfl | h
        · exact .inr ⟨y, List.mem_cons_self, rfl⟩
        · exact .inr ⟨x, List.mem_cons_of_mem _ h, rfl⟩
      · rcases List.mem_cons.mp h with rfl | h
        · exact .inr ⟨_, List.mem_cons_self, rfl⟩
        · exact (ih h).imp_right fun ⟨z, hz, hx⟩ => ⟨z, List.mem_cons_of_mem _ hz, hx⟩

theorem addLoss_ascending {lost : List (Nat × Nat)} (h : ascending lost) (k : Nat) : ascending (addLoss k lost) := by
  induction lost with
  | nil => exact List.pairwise_singleton _ _
  | cons y rest ih =>
    obtain ⟨hy, hrest⟩ := List.pairwise_cons.mp h
    unfold addLoss
    split
    next hlt =>
      refine List.pairwise_cons.mpr ⟨List.forall_mem_cons.mpr ⟨hlt, fun x hx => ?_⟩, h⟩
      exact Nat.lt_trans hlt (hy x hx)
    next hge =>
      split
      · exact List.pairwise_cons.mpr ⟨hy, hrest⟩
      next hne =>
        refine List.pairwise_cons.mpr ⟨fun x hx => ?_, ih hrest⟩
        rcases slot_mem_addLoss hx with hk | ⟨z, hz, hk⟩
        · rw [hk]; omega
        · rw [hk]; exact hy z hz

theorem claimChannel_ascending {acc : Table Channel × ArbiterReport} (h : ascending acc.2.lost) (o : Owner)
    (priority c : Nat) (become : Channel → Holding) : ascending (claimChannel o priority c become acc).2.lost := by
  unfold claimChannel
  dsimp only
  split
  · unfold lossOf
    split
    · exact addLoss_ascending h _
    · exact h
  · exact h

theorem bandBatch_ascending (t : Table Channel) (b priority first count : Nat) :
    ascending (bandBatch t b priority first count).2.lost :=
  List.foldlRecOn (motive := fun acc : Table Channel × ArbiterReport => ascending acc.2.lost) _ _ .nil
    fun _ h _ _ => claimChannel_ascending h _ _ _ _

/-! ## The slots (R36, R48) -/

/-- What the loss of `n` channels leaves of a slot. -/
def lessened (f n : Nat) : FadeSlot → FadeSlot
  | .free a => .free a
  | .inUse r => if r.count ≤ n then .free (f + 1) else .inUse { r with count := r.count - n }

/-- What one loss leaves of the slots. -/
def loseIn (f : Nat) (e : TransitionEngine) (l : Nat × Nat) : TransitionEngine :=
  match e.slot l.1 with
  | .free _ => e
  | .inUse r => e.setSlot l.1 (lessened f l.2 (.inUse r))

theorem loseIn_slot (f : Nat) (e : TransitionEngine) (l : Nat × Nat) (j : Nat) :
    (loseIn f e l).slot j = if j = l.1 then lessened f l.2 (e.slot j) else e.slot j := by
  unfold loseIn
  split
  next a ha =>
    split
    next hj => rw [hj, ha]; rfl
    next => rfl
  next r hr =>
    rw [TransitionEngine.slot_setSlot]
    split
    next hj => rw [hj, hr]
    next => rfl

theorem foldl_loseIn_slot_of_not_mem {lost : List (Nat × Nat)} {j : Nat} (h : ∀ n, (j, n) ∉ lost) (f : Nat)
    (e : TransitionEngine) : (lost.foldl (loseIn f) e).slot j = e.slot j := by
  induction lost generalizing e with
  | nil => rfl
  | cons l rest ih =>
    have hj : j ≠ l.1 := fun hj => h l.2 (hj ▸ List.mem_cons_self)
    rw [List.foldl_cons, ih fun n hn => h n (List.mem_cons_of_mem _ hn), loseIn_slot, if_neg hj]

theorem not_mem_of_ascending {l : Nat × Nat} {rest : List (Nat × Nat)} (h : ascending (l :: rest)) (n : Nat) :
    (l.1, n) ∉ rest := fun hn => Nat.lt_irrefl _ ((List.pairwise_cons.mp h).1 (l.1, n) hn)

theorem foldl_loseIn_slot_of_mem {lost : List (Nat × Nat)} (h : ascending lost) {j n : Nat} (hj : (j, n) ∈ lost)
    (f : Nat) (e : TransitionEngine) : (lost.foldl (loseIn f) e).slot j = lessened f n (e.slot j) := by
  induction lost generalizing e with
  | nil => cases hj
  | cons l rest ih =>
    have hfirst := not_mem_of_ascending h
    obtain ⟨-, hrest⟩ := List.pairwise_cons.mp h
    rw [List.foldl_cons]
    rcases List.mem_cons.mp hj with rfl | hj
    · rw [foldl_loseIn_slot_of_not_mem hfirst, loseIn_slot, if_pos rfl]
    · have hne : j ≠ l.1 := fun hl => hfirst n (hl ▸ hj)
      rw [ih hrest hj, loseIn_slot, if_neg hne]

/-- The losses of an ascending report leave of each slot what R48 says. -/
theorem foldl_loseIn_afterLosses {lost : List (Nat × Nat)} (h : ascending lost) (f : Nat) (e : TransitionEngine)
    (j : Nat) : afterLosses lost f (e.slot j) ((lost.foldl (loseIn f) e).slot j) j := by
  refine ⟨fun r n hr hn => ?lost, fun a ha => ?free, fun hnone => foldl_loseIn_slot_of_not_mem hnone f e⟩
  case lost =>
    rw [foldl_loseIn_slot_of_mem h hn, hr]
    rfl
  case free =>
    by_cases hj : ∃ n, (j, n) ∈ lost
    · obtain ⟨n, hn⟩ := hj
      rw [foldl_loseIn_slot_of_mem h hn, ha]
      rfl
    · exact foldl_loseIn_slot_of_not_mem (not_exists.mp hj) f e

/-! ## Scenes and notices (R23, R48, R50) -/

theorem emptied_cons (e : TransitionEngine) (l : Nat × Nat) (rest : List (Nat × Nat)) :
    emptied e (l :: rest) = emptied e [l] ++ emptied e rest :=
  List.filterMap_append (l := [l])

theorem emptied_congr {lost : List (Nat × Nat)} {e e' : TransitionEngine}
    (h : ∀ l ∈ lost, e.slot l.1 = e'.slot l.1) : emptied e lost = emptied e' lost := by
  induction lost with
  | nil => rfl
  | cons l rest ih =>
    obtain ⟨hl, hrest⟩ := List.forall_mem_cons.mp h
    rw [emptied_cons, emptied_cons e', ih hrest]
    simp only [emptied, List.filterMap_cons, List.filterMap_nil, hl]

/-- A loss empties no slot but its own. -/
theorem emptied_loseIn {l : Nat × Nat} {rest : List (Nat × Nat)} (h : ascending (l :: rest)) (f : Nat)
    (e : TransitionEngine) : emptied (loseIn f e l) rest = emptied e rest := by
  refine emptied_congr fun x hx => ?_
  have hne : x.1 ≠ l.1 := Nat.ne_of_gt ((List.pairwise_cons.mp h).1 x hx)
  rw [loseIn_slot, if_neg hne]

/-- The work once losses have been taken: the slots are those of `e`, the slots emptied have returned their scenes, and a
notice of each has been sent. -/
def lossesTaken (w : FrameWork) (e : TransitionEngine) (lost : List (Nat × Nat)) (reason : EndReason) : FrameWork :=
  { w with
    s := { w.s with engine := e, store := returned w.s.store (emptied w.s.engine lost) }
    notices := w.notices ++ endNotices reason (emptied w.s.engine lost) }

theorem lossesTaken_nothing {w : FrameWork} {e : TransitionEngine} {lost : List (Nat × Nat)}
    (h : emptied w.s.engine lost = []) (reason : EndReason) :
    lossesTaken w e lost reason = { w with s := { w.s with engine := e } } := by
  simp only [lossesTaken, h, endNotices, List.map_nil, List.append_nil]
  rfl

theorem freeSlot_inUse {w : FrameWork} {k : Nat} {r : FadeRun} (h : w.s.engine.slot k = .inUse r) (reason : EndReason) :
    w.freeSlot k reason =
      { w with
        s := { w.s with
          engine := w.s.engine.setSlot k (.free (w.frame + 1))
          store := returned w.s.store [(k, r)] }
        notices := w.notices ++ endNotices reason [(k, r)] } := by
  obtain ⟨kind, _⟩ := r
  cases kind <;> simp only [FrameWork.freeSlot, h] <;> rfl

theorem loseChannels_eq (w : FrameWork) (l : Nat × Nat) (reason : EndReason) :
    w.loseChannels l.1 l.2 reason = lossesTaken w (loseIn w.frame w.s.engine l) [l] reason := by
  cases h : w.s.engine.slot l.1 with
  | free a =>
    have hnone : emptied w.s.engine [l] = [] := by simp [emptied, h]
    rw [lossesTaken_nothing hnone]
    simp only [FrameWork.loseChannels, loseIn, h]
  | inUse r =>
    by_cases hn : r.count ≤ l.2
    · have hone : emptied w.s.engine [l] = [(l.1, r)] := by simp [emptied, h, hn]
      simp only [FrameWork.loseChannels, loseIn, lossesTaken, lessened, h, hn, hone, if_true, freeSlot_inUse h]
    · have hnone : emptied w.s.engine [l] = [] := by simp [emptied, h, hn]
      rw [lossesTaken_nothing hnone]
      simp only [FrameWork.loseChannels, loseIn, lessened, h, hn, if_false]
      rfl

/-- Taking the losses of an ascending report, one after the other, takes them all. -/
theorem takeLosses_eq {lost : List (Nat × Nat)} (h : ascending lost) (w : FrameWork) (reason : EndReason) :
    w.takeLosses lost reason = lossesTaken w (lost.foldl (loseIn w.frame) w.s.engine) lost reason := by
  induction lost generalizing w with
  | nil => exact (lossesTaken_nothing rfl reason).symm
  | cons l rest ih =>
    obtain ⟨-, hrest⟩ := List.pairwise_cons.mp h
    have hfirst : w.takeLosses (l :: rest) reason =
        (lossesTaken w (loseIn w.frame w.s.engine l) [l] reason).takeLosses rest reason := by
      rw [← loseChannels_eq]
      rfl
    rw [hfirst, ih hrest]
    simp only [lossesTaken, emptied_loseIn h, emptied_cons w.s.engine l rest, returned, endNotices, List.foldl_append,
      List.map_append, List.append_assoc]
    rfl

end Sys2Proof.Bands
end

section
/-! PROOFS. A frame start that finds one request of the Band Unit and no other work: the request is applied at some point
of the controller's passes; and what START_BAND, STOP_BAND and SET_ROLL do. -/

namespace Sys2Proof.Bands

open Machine Safety Claims Transitions Playbacks

/-! ## The frame start (R58, R87, R103) -/

/-- The work of the next frame start with nothing done but steps of the controller's passes. -/
def standing (s : State) (agenda : List ControllerStep) (passed : Bool) : FrameWork :=
  { s.beginFrame (s.clock.frame + 1) with agenda := agenda, stagedOver := passed }

section
variable {s : State} {e : Staged BandRequest} {agenda : List ControllerStep} {passed : Bool} {v : FrameWork}

/-- The playbacks have no work of their own at the frame start, also once it has begun. -/
theorem standing_waits (hc : canonical s) (hf : finds s [] [e] [] [] []) (p : Nat) :
    waitsAt ((standing s agenda passed).s.controller.playback p) (standing s agenda passed).s.clock.frame := by
  obtain ⟨-, -, -, -, -, -, -, hplaybacks⟩ := hf
  have hs : (standing s agenda passed).s = { s with clock := { s.clock with frame := s.clock.frame + 1 } } :=
    beginFrame_calm hc hplaybacks
  rw [hs]
  exact hplaybacks p

/-- The controller's next step and the band request are all that may be taken. -/
theorem standing_may (hc : canonical s) (hf : finds s [] [e] [] [] []) {i : WorkItem}
    (hi : (standing s agenda passed).may i) : i = .controllerStep ∨ i = .bandStaged := by
  obtain ⟨-, -, hwf, -⟩ := hc
  obtain ⟨-, -, hgroups, hclock, hports, hnotices, hslots, -⟩ := hf
  have hload : s.store.notices.find? (fun n => decide (n.frame = s.clock.frame + 1)) = none := by
    simpa [List.filter_eq_nil_iff] using hnotices
  have none_due {ρ : Type} {l : List (Staged ρ)} (h : stamped (s.clock.frame + 1) l = [])
      (hd : (takeStaged (s.clock.frame + 1) l).isSome = true) : False := by
    rw [takeStaged_of_stamped_nil h] at hd; cases hd
  cases i with
  | controllerStep => exact .inl rfl
  | bandStaged => exact .inr rfl
  | commit => exact (none_due hgroups hi).elim
  | composerStaged => exact (none_due hclock hi).elim
  | portStaged => exact (none_due hports hi).elim
  | slotEnd k =>
    obtain ⟨-, -, hk⟩ := hi
    exact absurd ((hslots k).mpr ((mem_ending hwf).mp hk)) List.not_mem_nil
  | loadEndNotice =>
    have hn : (s.store.notices.find? (fun n => decide (n.frame = s.clock.frame + 1))).isSome = true := hi.1
    rw [hload] at hn
    cases hn
  | slotMustEnd k => cases hi.2
  | composerReleased | loadAnswer | intakeArrival => exact absurd rfl hi
  | bandReleased | endNotice | resetReport => exact absurd rfl hi.1
  | playbackReleased => simp [FrameWork.may, FrameWork.releasedReady, standing, State.beginFrame] at hi
  | resetArbiter | resetStore | resetEngine | resetController | resetBands | resetGroups => cases hi.1

/-- A step of the controller takes it to another point of its passes. -/
theorem standing_step (hc : canonical s) (hf : finds s [] [e] [] [] []) (hs : standsAt agenda passed)
    (hp : Piece (standing s agenda passed) .controllerStep v) :
    ∃ agenda' passed', standsAt agenda' passed' ∧ v = standing s agenda' passed' := by
  have ⟨hcontroller, _⟩ := hf
  cases hp with
  | stepAtOnce c later ho => cases ho
  | playback e' rest later hd =>
    obtain ⟨hmem, hdue⟩ := firstDue_mem hd
    exact absurd hdue (not_due_of_stamped_nil hcontroller e' hmem)
  | passOver later _ _ ha =>
    obtain rfl : agenda = .stagedPass :: later := ha
    rcases standsAt_cons hs with ⟨-, hlater⟩ | ⟨-, -, ⟨p, hne, -⟩ | ⟨p, hne⟩⟩
    · exact ⟨later, true, hlater, rfl⟩
    · cases hne
    · cases hne
  | step c later _ ha hne =>
    obtain rfl : agenda = c :: later := ha
    rcases standsAt_cons hs with ⟨rfl, -⟩ | ⟨rfl, hlater, ⟨p, rfl, htry⟩ | ⟨p, rfl⟩⟩
    · exact absurd rfl hne
    · rcases sweep_of_waitsAt (standing_waits (agenda := later) (passed := true) hc hf p) with hsweep | hsweep
      · exact ⟨later, true, hlater, hsweep⟩
      · exact ⟨.tryHead p :: later, true, htry, hsweep⟩
    · exact ⟨later, true, hlater, tryHead_of_waitsAt (standing_waits (agenda := later) (passed := true) hc hf p)⟩

/-- Of what is stamped with the frame, taking the band request off its list leaves the other lists as they are. -/
theorem begun_of_band (hf : finds s [] [e] [] [] []) (agenda : List ControllerStep) (passed : Bool) :
    begun s agenda passed =
      { standing s agenda passed with
        s := { (standing s agenda passed).s with
          bands := { s.bands with staged := s.bands.staged.filter (fun e => e.frame ≠ s.clock.frame + 1) } } } := by
  obtain ⟨hcontroller, -, hgroups, -, -, hnotices, -⟩ := hf
  have hnotices : s.store.notices.filter (fun x => x.frame ≠ s.clock.frame + 1) = s.store.notices := by
    simpa using hnotices
  unfold begun
  rw [filter_not_due hcontroller, filter_not_due hgroups, hnotices]
  rfl

/-- Taking the staged band request applies it. -/
theorem standing_band (hf : finds s [] [e] [] [] []) (hp : Piece (standing s agenda passed) .bandStaged v) :
    v = (begun s agenda passed).applyBand e.owed e.request := by
  have ⟨_, hbands, _⟩ := hf
  cases hp with
  | band e' rest hd =>
    obtain ⟨hstamped, hothers⟩ := firstDue_stamped hd
    obtain ⟨rfl, hrest⟩ := List.cons.inj (hbands.symm.trans hstamped)
    have hleft : s.bands.staged.filter (fun e => e.frame ≠ s.clock.frame + 1) = rest :=
      hothers.trans (filter_not_due hrest.symm)
    rw [begun_of_band hf, hleft]
    rfl

/-- The work applies the band request at some point of the controller's passes. -/
theorem works_band {w u : FrameWork} (hw : Works w u) (hc : canonical s) (hf : finds s [] [e] [] [] [])
    (hat : ∃ agenda passed, standsAt agenda passed ∧ w = standing s agenda passed) :
    ∃ agenda passed, standsAt agenda passed ∧ Works ((begun s agenda passed).applyBand e.owed e.request) u := by
  induction hw with
  | finished w hleft =>
    obtain ⟨agenda, passed, -, rfl⟩ := hat
    obtain ⟨-, hbands, -⟩ := hf
    obtain ⟨-, hnone, -⟩ := hleft
    exact absurd (hbands.symm.trans (stamped_nil_of_not_due hnone)) nofun
  | piece w v u i hi hpiece hworks ih =>
    obtain ⟨agenda, passed, hstands, rfl⟩ := hat
    rcases standing_may hc hf ((FrameWork.mem_enabled _ i).mp hi) with rfl | rfl
    · exact ih (standing_step hc hf hstands hpiece)
    · rw [standing_band hf hpiece] at hworks
      exact ⟨agenda, passed, hstands, hworks⟩

/-- FRAME_START applies the band request that alone is staged for the frame, and does what follows from it. -/
theorem frameStart_appliesBand (order : List Nat) (hc : canonical s) (hf : finds s [] [e] [] [] []) :
    ∃ agenda passed,
      standsAt agenda passed ∧ frameStartDoes order s ((begun s agenda passed).applyBand e.owed e.request) := by
  obtain ⟨u, hexec, hworks⟩ := frameStart_works (undisturbed order) hc
  obtain ⟨agenda, passed, hstands, hdone⟩ := works_band hworks hc hf ⟨frameAgenda, false, .inl ⟨rfl, rfl⟩, rfl⟩
  exact ⟨agenda, passed, hstands, u, hexec, hdone⟩

/-- With the band request taken off its list, the work rests. -/
theorem begun_resting (hc : canonical s) (hf : finds s [] [e] [] [] []) (hs : standsAt agenda passed) :
    Resting (begun s agenda passed) := by
  have ⟨hcontroller, _, _, hclock, _, hnotices, hslots, hplaybacks⟩ := hf
  have hbegun : begun s agenda passed =
      { standing s agenda passed with
        s := { s with
          clock := { s.clock with frame := s.clock.frame + 1 }
          bands := { s.bands with staged := s.bands.staged.filter (fun e => e.frame ≠ s.clock.frame + 1) } } } := by
    have hcalm : (standing s agenda passed).s = { s with clock := { s.clock with frame := s.clock.frame + 1 } } :=
      beginFrame_calm hc hplaybacks
    rw [begun_of_band hf, hcalm]
  rw [hbegun]
  refine ⟨hs, rfl, not_due_of_stamped_nil hcontroller, fun e he => ?_, not_due_of_stamped_nil hclock,
    ⟨by simpa using hnotices, fun k r hr hrun he => ?_, hplaybacks⟩, .inl rfl, rfl, rfl, rfl, rfl, rfl, rfl, rfl⟩
  · exact of_decide_eq_true (List.mem_filter.mp he).2
  · exact List.not_mem_nil ((hslots k).mpr ⟨r, hr, hrun, he⟩)

end

end Sys2Proof.Bands
end

section
/-! PROOFS. START_BAND, STOP_BAND and SET_ROLL, by the state of the band. -/

namespace Sys2Proof.Bands

open Machine Safety Claims Transitions Playbacks

section
variable {w : FrameWork} {b : Nat} {d : BandSetup} {r : BandRun}

/-! ## START_BAND (R90, R93, R94) -/

theorem applyStartBand_refused {status : Status} {detail : Nat}
    (h : startBandRefusal (w.s.bands.band b) (w.s.ports.port (w.s.bands.band b).portOf).applied = some (status, detail))
    (o : Owed) (priority : Nat) : w.applyStartBand o b priority = w.finish o status detail := by
  simp only [FrameWork.applyStartBand, h]

theorem applyStartBand_notReady (h : w.s.bands.band b = .undefined ∨ ∃ d, w.s.bands.band b = .loading d) (o : Owed)
    (priority : Nat) : w.applyStartBand o b priority = w.finish o .notReady 0 := by
  rcases h with h | ⟨d, h⟩ <;> exact applyStartBand_refused (by rw [h]; rfl) o priority

theorem applyStartBand_busy (h : w.s.bands.band b = .running d r) (o : Owed) (priority : Nat) :
    w.applyStartBand o b priority = w.finish o .busy 0 :=
  applyStartBand_refused (by rw [h]; rfl) o priority

/-- A STOPPED band is checked against the configuration of its own port. -/
theorem startBandRefusal_stopped (h : w.s.bands.band b = .stopped d) :
    startBandRefusal (w.s.bands.band b) (w.s.ports.port (w.s.bands.band b).portOf).applied =
      if (w.s.ports.port d.port).applied.components ≠ d.components then
        some (.badField, (w.s.ports.port d.port).applied.components)
      else if (w.s.ports.port d.port).applied.pixels < d.firstPixel + (d.lead + d.roll + d.tail) then
        some (.badField, (w.s.ports.port d.port).applied.pixels)
      else none := by
  rw [h]
  rfl

theorem applyStartBand_components (h : w.s.bands.band b = .stopped d)
    (hc : (w.s.ports.port d.port).applied.components ≠ d.components) (o : Owed) (priority : Nat) :
    w.applyStartBand o b priority = w.finish o .badField (w.s.ports.port d.port).applied.components :=
  applyStartBand_refused (by rw [startBandRefusal_stopped h, if_pos hc]) o priority

theorem applyStartBand_pixels (h : w.s.bands.band b = .stopped d)
    (hc : (w.s.ports.port d.port).applied.components = d.components)
    (hp : (w.s.ports.port d.port).applied.pixels < d.firstPixel + (d.lead + d.roll + d.tail)) (o : Owed)
    (priority : Nat) : w.applyStartBand o b priority = w.finish o .badField (w.s.ports.port d.port).applied.pixels :=
  applyStartBand_refused (by rw [startBandRefusal_stopped h, if_neg (fun hne => hne hc), if_pos hp]) o priority

/-- The record of a band that starts at the work's frame with this batch. -/
def startedRun (w : FrameWork) (priority : Nat) (range : Nat × Nat) (report : ArbiterReport) : BandRun :=
  { originFrame := w.s.clock.frame, priority := priority, firstChannel := range.1, channelCount := range.2,
    denied := report.denied }

/-- The work once a band's batch and its losses have been taken and the band is RUNNING. -/
def started (w : FrameWork) (b priority : Nat) (d : BandSetup) (range : Nat × Nat)
    (batch : Table Channel × ArbiterReport) : FrameWork :=
  { w with
    s := { w.s with
      arbiter := { channels := batch.1 }
      engine := batch.2.lost.foldl (loseIn w.s.clock.frame) w.s.engine
      store := returned w.s.store (emptied w.s.engine batch.2.lost)
      bands := w.s.bands.setBand b (.running d (startedRun w priority range batch.2)) }
    notices := w.notices ++ endNotices .lost (emptied w.s.engine batch.2.lost) }

theorem applyStartBand_accepted (hr : w.resetArbiter = false) (h : w.s.bands.band b = .stopped d)
    (hc : (w.s.ports.port d.port).applied.components = d.components)
    (hp : d.firstPixel + (d.lead + d.roll + d.tail) ≤ (w.s.ports.port d.port).applied.pixels) (o : Owed)
    (priority : Nat) {range : Nat × Nat} (hrange : range = bandRange d (w.s.ports.port d.port).applied)
    {batch : Table Channel × ArbiterReport}
    (hbatch : batch = bandBatch w.s.arbiter.channels b priority range.1 range.2) :
    w.applyStartBand o b priority =
      (started w b priority d range batch).finish o .ok (batch.2.granted + 65536 * batch.2.denied) := by
  have hnone : startBandRefusal (w.s.bands.band b) (w.s.ports.port (w.s.bands.band b).portOf).applied = none := by
    rw [startBandRefusal_stopped h, if_neg (fun hne => hne hc), if_neg (Nat.not_lt.mpr hp)]
  have hsetup : (w.s.bands.band b).setup = some d := by rw [h]; rfl
  have hport : (w.s.bands.band b).portOf = d.port := by rw [h]; rfl
  have hlost : ascending batch.2.lost := hbatch ▸ bandBatch_ascending _ _ _ _ _
  simp only [FrameWork.applyStartBand, hnone, hsetup]
  rw [if_neg (hr ▸ Bool.false_ne_true), hport, ← hrange, ← hbatch, takeLosses_eq hlost]
  rfl

/-! ## STOP_BAND (R95) -/

theorem applyStopBand_notReady (h : w.s.bands.band b = .undefined ∨ ∃ d, w.s.bands.band b = .loading d) (o : Owed) :
    w.applyStopBand o b = w.finish o .notReady 0 := by
  rcases h with h | ⟨d, h⟩ <;> simp only [FrameWork.applyStopBand, h]

theorem applyStopBand_stopped (h : w.s.bands.band b = .stopped d) (o : Owed) :
    w.applyStopBand o b = w.finish o .ok 0 := by
  simp only [FrameWork.applyStopBand, h]

theorem applyStopBand_running (hr : w.resetArbiter = false) (h : w.s.bands.band b = .running d r) (o : Owed) :
    w.applyStopBand o b =
      FrameWork.finish
        { w with
          s := { w.s with
            arbiter := { channels := (stopOrder w.s.arbiter.channels b).1 }
            bands := w.s.bands.setBand b (stoppedAt d r w.s.clock.frame) } } o .ok
        (stopOrder w.s.arbiter.channels b).2.granted := by
  rw [FrameWork.applyStopBand, h]
  exact if_neg (hr ▸ Bool.false_ne_true)

/-! ## SET_ROLL (R96) -/

/-- The origin offset that SET_ROLL takes: its own, within the roll, or the one that the band has. -/
def originOf (d : BandSetup) (shown : Nat) : Option Nat → Nat
  | some v => if d.roll = 0 then 0 else v % d.roll
  | none => shown

theorem originOf_none {shown : Nat} {offset : Option Nat} (h : offset = none) : originOf d shown offset = shown := by
  rw [h]
  rfl

theorem originOf_some {shown : Nat} {offset : Option Nat} (v : Nat) (h : offset = some v) :
    originOf d shown offset = if d.roll = 0 then 0 else v % d.roll := by
  rw [h]
  rfl

theorem rollMod_natCast (v roll : Nat) : rollMod v roll = if roll = 0 then 0 else v % roll := by
  rw [rollMod, ← Int.natCast_emod, Int.toNat_natCast]

theorem applySetRoll_notReady (h : w.s.bands.band b = .undefined ∨ ∃ d, w.s.bands.band b = .loading d) (o : Owed)
    (step : Int) (period : Nat) (offset : Option Nat) :
    w.applySetRoll o b step period offset = w.finish o .notReady 0 := by
  rcases h with h | ⟨d, h⟩ <;> simp only [FrameWork.applySetRoll, rolledAt, h]

theorem applySetRoll_stopped (h : w.s.bands.band b = .stopped d) (o : Owed) (step : Int) (period : Nat)
    (offset : Option Nat) :
    w.applySetRoll o b step period offset =
      FrameWork.finish
        { w with
          s := { w.s with
            bands := w.s.bands.setBand b
              (.stopped
                { d with
                  step := step, stepPeriod := period, originOffset := originOf d d.originOffset offset }) } }
        o .ok (originOf d d.originOffset offset) := by
  cases offset <;> simp only [FrameWork.applySetRoll, rolledAt, h, rollMod_natCast, originOf]

theorem applySetRoll_running (h : w.s.bands.band b = .running d r) (o : Owed) (step : Int) (period : Nat)
    (offset : Option Nat) :
    w.applySetRoll o b step period offset =
      FrameWork.finish
        { w with
          s := { w.s with
            bands := w.s.bands.setBand b
              (.running
                { d with
                  step := step, stepPeriod := period
                  originOffset := originOf d (rollOffset d r.originFrame w.s.clock.frame) offset }
                { r with originFrame := w.s.clock.frame }) } }
        o .ok (originOf d (rollOffset d r.originFrame w.s.clock.frame) offset) := by
  cases offset <;> simp only [FrameWork.applySetRoll, rolledAt, h, rollMod_natCast, originOf] <;> rfl

end

/-! ## STOP_BAND and SET_ROLL at a frame start -/

/-- The work with the channels, the band records and the host unit of a state. -/
def banded (w : FrameWork) (t : State) : FrameWork :=
  { w with
    s := { w.s with arbiter := t.arbiter, bands := { w.s.bands with records := t.bands.records }, host := t.host } }

/-- Applying the request changes channels, band records and the host unit alone, in the same way wherever the controller
stands. -/
def bandsOnly (s : State) (o : Owed) (r : BandRequest) : Prop :=
  ∀ agenda passed,
    (begun s agenda passed).applyBand o r = banded (begun s agenda passed) ((begun s frameAgenda false).applyBand o r).s

theorem resting_banded {w : FrameWork} (h : Resting w) (t : State) : Resting (banded w t) := { h with }

theorem bandsOnly_of_eq {s : State} {o : Owed} {r : BandRequest} {g : List ControllerStep → Bool → FrameWork}
    (happly : ∀ agenda passed, (begun s agenda passed).applyBand o r = g agenda passed)
    (hg : ∀ agenda passed, g agenda passed = banded (begun s agenda passed) (g frameAgenda false).s) :
    bandsOnly s o r := by
  intro agenda passed
  rw [happly, happly]
  exact hg agenda passed

theorem stop_bandsOnly (s : State) (o : Owed) (b : Nat) : bandsOnly s o (.stop b) := by
  cases h : s.bands.band b with
  | undefined =>
    exact bandsOnly_of_eq (fun agenda passed => applyStopBand_notReady (w := begun s agenda passed) (.inl h) o)
      fun _ _ => rfl
  | loading d =>
    exact bandsOnly_of_eq (fun agenda passed => applyStopBand_notReady (w := begun s agenda passed) (.inr ⟨d, h⟩) o)
      fun _ _ => rfl
  | stopped d =>
    exact bandsOnly_of_eq (fun agenda passed => applyStopBand_stopped (w := begun s agenda passed) h o) fun _ _ => rfl
  | running d r =>
    exact bandsOnly_of_eq (fun agenda passed => applyStopBand_running (w := begun s agenda passed) rfl h o)
      fun _ _ => rfl

theorem setRoll_bandsOnly (s : State) (o : Owed) (b : Nat) (step : Int) (period : Nat) (offset : Option Nat) :
    bandsOnly s o (.setRoll b step period offset) := by
  cases h : s.bands.band b with
  | undefined =>
    exact bandsOnly_of_eq
      (fun agenda passed => applySetRoll_notReady (w := begun s agenda passed) (.inl h) o step period offset)
      fun _ _ => rfl
  | loading d =>
    exact bandsOnly_of_eq
      (fun agenda passed => applySetRoll_notReady (w := begun s agenda passed) (.inr ⟨d, h⟩) o step period offset)
      fun _ _ => rfl
  | stopped d =>
    exact bandsOnly_of_eq
      (fun agenda passed => applySetRoll_stopped (w := begun s agenda passed) h o step period offset) fun _ _ => rfl
  | running d r =>
    exact bandsOnly_of_eq
      (fun agenda passed => applySetRoll_running (w := begun s agenda passed) h o step period offset) fun _ _ => rfl

/-- Where the band request makes no work for another block, FRAME_START applies it and does nothing else. -/
theorem frameStart_bandsOnly (order : List Nat) {s : State} {e : Staged BandRequest} (hc : canonical s)
    (hf : finds s [] [e] [] [] []) (h : bandsOnly s e.owed e.request) :
    exec (.frameStart (undisturbed order)) s = .next ((begun s frameAgenda false).applyBand e.owed e.request).s := by
  obtain ⟨agenda, passed, hstands, u, hexec, hworks⟩ := frameStart_appliesBand order hc hf
  have ⟨_, _, hgroups, _, hports, _⟩ := hf
  have hcommits : stamped (s.clock.frame + 1) (begun s agenda passed).s.groups.commits = [] := by
    change stamped _ (s.groups.commits.filter _) = []
    rw [filter_not_due hgroups, hgroups]
  have hrest := resting_banded (begun_resting hc hf hstands) ((begun s frameAgenda false).applyBand e.owed e.request).s
  rw [h agenda passed] at hworks
  rw [hexec, works_outcome hworks hrest hcommits (.inl rfl), outcome_of_no_port hports]
  have hstate := congrArg FrameWork.s (h frameAgenda false)
  exact congrArg Host.Outcome.next hstate.symm

/-- Settles O52: the first part is `frameStart_appliesBand`; the others are the checks in their order, and what the batch
and its losses leave. -/
theorem startBandClaimsItsRange : Obligations.StartBandClaimsItsRange := by
  refine ⟨fun order s e b priority hc hf he => ?frame, fun w o b priority hr => ⟨?notReady, ?busy, ?stopped⟩⟩
  case frame =>
    obtain ⟨agenda, passed, hstands, hdoes⟩ := frameStart_appliesBand order hc hf
    rw [he] at hdoes
    exact ⟨agenda, passed, hstands, hdoes⟩
  case notReady => exact fun h => applyStartBand_notReady h o priority
  case busy => exact fun d r h => applyStartBand_busy h o priority
  case stopped =>
    rintro d _ h rfl
    refine ⟨fun hc => ?components, fun hc hp => ?pixels, fun hc hp => ?accepted⟩
    case components => exact applyStartBand_components h hc o priority
    case pixels => exact applyStartBand_pixels h hc hp o priority
    case accepted =>
      exact ⟨started w b priority d _ _, _, rfl, applyStartBand_accepted hr h hc hp o priority rfl rfl, rfl,
        foldl_loseIn_afterLosses (bandBatch_ascending _ _ _ _ _) _ _⟩

/-- Settles O53: at a frame start the request is applied and nothing else is done; the others are what each request makes
of the band, by its state. -/
theorem stopBandAndSetRollKeepTheOffset : Obligations.StopBandAndSetRollKeepTheOffset := by
  refine ⟨fun order s e hc hf => ⟨fun b he => ?stopFrame, fun b step period offset he => ?rollFrame⟩,
    fun w o b step period offset hr => ⟨fun h => ⟨?stopNotReady, ?rollNotReady⟩,
      fun d h => ⟨?stopStopped, ?rollStopped⟩, fun d r h => ⟨?stopRunning, ?rollRunning⟩⟩⟩
  case stopFrame =>
    have hdoes := frameStart_bandsOnly order hc hf (by rw [he]; exact stop_bandsOnly s e.owed b)
    rw [he] at hdoes
    exact hdoes
  case rollFrame =>
    have hdoes := frameStart_bandsOnly order hc hf
      (by rw [he]; exact setRoll_bandsOnly s e.owed b step period offset)
    rw [he] at hdoes
    exact hdoes
  case stopNotReady => exact applyStopBand_notReady h o
  case rollNotReady => exact applySetRoll_notReady h o step period offset
  case stopStopped => exact applyStopBand_stopped h o
  case rollStopped => exact ⟨_, originOf_none, originOf_some, applySetRoll_stopped h o step period offset⟩
  case stopRunning =>
    exact ⟨_, fun hlt => if_pos hlt, fun hle => if_neg (Nat.not_lt.mpr hle), applyStopBand_running hr h o⟩
  case rollRunning => exact ⟨_, originOf_none, originOf_some, applySetRoll_running h o step period offset⟩

end Sys2Proof.Bands
end

section
/-! PROOFS. Grouped requests and level snapshots at intake: the hold list, ABORT_GROUP, what the host interface brings in
the midst of a frame start, READ_LEVELS and the end of its writes. -/

namespace Sys2Proof.Frames

open Machine Safety Claims Playbacks

/-! ## The hold list (R119, R120) -/

theorem group_ne_zero_iff {b : RecordBody} : b.group ≠ 0 ↔ b.group.toNat ≠ 0 :=
  not_congr ⟨fun h => congrArg BitVec.toNat h, fun h => BitVec.eq_of_toNat_eq h⟩

theorem carriesGroup_iff {b : RecordBody} : carriesGroup b = true ↔ b.group ≠ 0 := decide_eq_true_iff

theorem holdRequest_room {s : State} (h : s.groups.hold.length < 128) (c : Ctx) (g : Nat) (r : GroupRequest) :
    s.holdRequest c g r =
      { s with groups := { s.groups with hold := s.groups.hold ++ [{ group := g, ctx := c, request := r }] } } :=
  if_neg (Nat.not_le.mpr h)

theorem holdRequest_full {s : State} (h : 128 ≤ s.groups.hold.length) (c : Ctx) (g : Nat) (r : GroupRequest) :
    s.holdRequest c g r = s.finishNow c .holdFull 128 :=
  if_pos h

/-- A groupable request that carries a group reaches the Frame Group Unit. -/
theorem exec_grouped {s : State} {q : Nat} {b : RecordBody} {e : Instr × Kind × GroupRequest} (he : e ∈ groupables b)
    (ht : takes s q b) (hgroup : b.group ≠ 0) (hp : passes s e.2.1 b) :
    exec e.1 s = .next ((taken s q).holdRequest (noted s q b) b.group.toNat e.2.2) := by
  obtain ⟨hrecord, hrequest⟩ := groupables_spell b e he
  rw [exec_of_passes hrecord ht hp, hrequest]
  exact congrArg Host.Outcome.next (if_neg (group_ne_zero_iff.mp hgroup))

/-! ## What the host interface brings in the midst of a frame start (R115, R123, R126, R128) -/

theorem takeArrival_after_reset {w : FrameWork} (h : w.resetSent = true) (a : IntakeArrival) : w.takeArrival a = w :=
  if_pos h

theorem takeArrival_before_reset {w : FrameWork} (h : w.resetSent = false) (a : IntakeArrival) :
    w.takeArrival a = { w with s := w.s.intakeArrival a } :=
  if_neg (h ▸ Bool.false_ne_true)

theorem intakeArrival_record {r : RequestRecord} (h : r.body.group ≠ 0) (s : State) :
    s.intakeArrival (.record r) = s.recordArrives r :=
  if_pos (carriesGroup_iff.mpr h)

theorem intakeArrival_record_ungrouped {r : RequestRecord} (h : r.body.group = 0) (s : State) :
    s.intakeArrival (.record r) = s :=
  if_neg fun hc => carriesGroup_iff.mp hc h

theorem intakeArrival_fenced_ungrouped {s : State} {q : Fin 4} {x : FenceWait} (hx : (s.host.sq q).fence = some x)
    (h : x.record.body.group = 0) : s.intakeArrival (.fenced q) = s := by
  refine if_neg fun hc => ?_
  rw [hx] at hc
  exact carriesGroup_iff.mp hc h

/-- A fence wait that carries a group is taken as its command takes it; where there is none, neither does anything. -/
theorem intakeArrival_fenced {s : State} {q : Fin 4}
    (h : ∀ x, (s.host.sq q).fence = some x → x.record.body.group ≠ 0) :
    s.intakeArrival (.fenced q) = s.takeFenced q := by
  cases hx : (s.host.sq q).fence with
  | some x =>
    refine if_pos ?_
    rw [hx]
    exact carriesGroup_iff.mpr (h x hx)
  | none =>
    rw [State.takeFenced, hx]
    refine if_neg ?_
    rw [hx]
    exact Bool.false_ne_true

/-- Settles O19: a grouped record is routed to the hold list; ABORT_GROUP is routed to the Frame Group Unit; what arrives
inside a frame start is what its command does, by what it carries. -/
theorem heldRequestsJoinAndLeave : Obligations.HeldRequestsJoinAndLeave := by
  refine ⟨fun s q b ht hgroup e he hp => ⟨fun hroom => ?held, fun hfull => ?full⟩, fun s q b ht hp => ?abort,
    fun w => ⟨takeArrival_after_reset, fun hsent => ⟨fun i r hi hgroup => ?record, fun r hgroup => ?ungrouped, ?grant,
      fun q => ⟨fun hgroup => ?fenced, fun x hx hgroup => ?unfenced⟩⟩⟩⟩
  case held => rw [exec_grouped he ht hgroup hp, holdRequest_room (s := taken s q) hroom]; rfl
  case full => rw [exec_grouped he ht hgroup hp, holdRequest_full (s := taken s q) hfull]
  case abort => exact exec_of_passes (k := .abortGroup) rfl ht hp
  case record =>
    exact ⟨_, exec_of_record i r w.s hi, by rw [takeArrival_before_reset hsent, intakeArrival_record hgroup]⟩
  case ungrouped => rw [takeArrival_before_reset hsent, intakeArrival_record_ungrouped hgroup]
  case grant => exact ⟨_, rfl, takeArrival_before_reset hsent .grant⟩
  case fenced =>
    exact ⟨_, rfl, by rw [takeArrival_before_reset hsent, intakeArrival_fenced hgroup]⟩
  case unfenced => rw [takeArrival_before_reset hsent, intakeArrival_fenced_ungrouped hx hgroup]

/-! ## READ_LEVELS (R113, R114) -/

theorem takeReadLevels_room {s : State} (h : s.clock.reads.length < 2) (c : Ctx) (first count : Nat)
    (address : HostAddress) :
    s.takeReadLevels c first count address =
      { s with
        clock := { s.clock with
          reads := s.clock.reads ++
            [{ first := first, count := count, address := address, captureFrame := s.clock.frame + 1, ctx := c,
               area := none }] } } :=
  if_neg (Nat.not_le.mpr h)

theorem takeReadLevels_busy {s : State} (h : 2 ≤ s.clock.reads.length) (c : Ctx) (first count : Nat)
    (address : HostAddress) : s.takeReadLevels c first count address = s.finishNow c .busy 2 :=
  if_pos h

section
variable {c : FrameClock} {i : Nat} {r : Snapshot}

/-- A captured snapshot that stands behind none of the same latch has its writes out. -/
theorem snapshotBusy_some (hr : c.reads[i]? = some r) (harea : r.area ≠ none)
    (hfirst : ∀ x ∈ c.reads.take i, x.captureFrame ≠ r.captureFrame) : c.snapshotBusy i = some r := by
  have hbusy : (r.area.isSome && (c.reads.take i).all (fun x => decide (x.captureFrame ≠ r.captureFrame))) = true := by
    simpa [Option.isSome_iff_ne_none] using And.intro harea hfirst
  rw [FrameClock.snapshotBusy, hr]
  exact if_pos hbusy

theorem snapshotBusy_none (hr : c.reads[i]? = some r)
    (h : r.area = none ∨ ∃ x ∈ c.reads.take i, x.captureFrame = r.captureFrame) : c.snapshotBusy i = none := by
  have hidle : ¬(r.area.isSome && (c.reads.take i).all (fun x => decide (x.captureFrame ≠ r.captureFrame))) = true := by
    rw [Bool.and_eq_true, List.all_eq_true]
    rintro ⟨harea, hfirst⟩
    rcases h with hnone | ⟨x, hx, hsame⟩
    · exact Option.isSome_iff_ne_none.mp harea hnone
    · exact of_decide_eq_true (hfirst x hx) hsame
  rw [FrameClock.snapshotBusy, hr]
  exact if_neg hidle

end

theorem endSnapshot_of_busy {s : State} {i : Nat} {r : Snapshot} (h : s.clock.snapshotBusy i = some r)
    (status : Status) :
    s.endSnapshot i status =
      State.finishNow { s with clock := { s.clock with reads := s.clock.reads.eraseIdx i } } r.ctx status
        (r.captureFrame % 2 ^ 32) := by
  rw [State.endSnapshot, h]
  rfl

theorem endSnapshot_of_idle {s : State} {i : Nat} (h : s.clock.snapshotBusy i = none) (status : Status) :
    s.endSnapshot i status = s := by
  rw [State.endSnapshot, h]

/-- Settles O21: the record is routed to the composer, which holds the snapshot or refuses it; the two answers of the
host end it with their status. -/
theorem readLevelsIsHeldAndEnds : Obligations.ReadLevelsIsHeldAndEnds := by
  refine ⟨fun s q b ht hp => ?intake, fun s which r hr => ⟨fun harea hfirst => ?busy, fun hidle => ?idle⟩⟩
  case intake =>
    have hroute : exec (.readLevels b) s =
        .next ((taken s q).takeReadLevels (noted s q b) (field b 8 2) (field b 10 2)
          (BitVec.ofNat 64 (field b 16 8))) :=
      exec_of_passes rfl ht hp
    refine ⟨fun hroom => ?_, fun hfull => ?_⟩
    · rw [hroute, takeReadLevels_room (s := taken s q) hroom]
      rfl
    · rw [hroute, takeReadLevels_busy (s := taken s q) hfull]
  case busy =>
    have hbusy := endSnapshot_of_busy (snapshotBusy_some hr harea hfirst)
    exact ⟨congrArg Host.Outcome.next (hbusy .ok), congrArg Host.Outcome.next (hbusy .hostWriteError)⟩
  case idle =>
    have hsame := endSnapshot_of_idle (snapshotBusy_none hr hidle)
    exact ⟨congrArg Host.Outcome.next (hsame .ok), congrArg Host.Outcome.next (hsame .hostWriteError)⟩

end Sys2Proof.Frames
end

section
/-! PROOFS. LATCH: the composed levels, what each port sends, what the snapshots capture, and the safe look. -/

namespace Sys2Proof.Frames

open Machine Safety Claims Playbacks

/-! ## The latched blocks (R101) -/

/-- The state after a latch, but for the event of the safe look. -/
def latched (s : State) (safe : Bool) : State :=
  { s with
    arbiter := { s.arbiter with channels := s.writeLastLevels s.clock.frame }
    ports := { s.ports with
      records := s.ports.records.mapCells Port.atReset
        (fun _ p => p.atLatch s.supply s.clock.frame (s.sliceOf s.clock.frame safe p.applied)) }
    clock := { s.clock with safe := safe, reads := s.clock.reads.map (s.capture s.clock.frame) } }

theorem latchFrame_eq (s : State) (safe : Bool) :
    s.latchFrame safe = (latched s safe).raiseSafe (latched s safe).clock.frame s.clock.safe safe := rfl

/-! ## The event of the safe look (R106, R169) -/

theorem raiseSafe_same (s : State) (n : Nat) (sample : Bool) : s.raiseSafe n sample sample = s := by
  cases sample <;> rfl

theorem raiseSafe_changed (s : State) (n : Nat) {before sample : Bool} (h : sample ≠ before) :
    s.raiseSafe n before sample = s.raiseEvent (if sample then .safeEntered else .safeLeft) 0 n 0 :=
  match before, sample, h with
  | false, true, _ => rfl
  | true, false, _ => rfl
  | false, false, h => absurd rfl h
  | true, true, h => absurd rfl h

/-- The sample can change the host unit alone, and of it the event list. -/
theorem raiseSafe_eq (s : State) (before sample : Bool) :
    ∃ host, s.raiseSafe s.clock.frame before sample = { s with host := host } ∧
      host.events =
        if sample = before then s.host.events
        else joined s.host.events (eventNow s (if sample then .safeEntered else .safeLeft) 0 0) := by
  by_cases h : sample = before
  · subst h
    exact ⟨s.host, raiseSafe_same s _ sample, (if_pos rfl).symm⟩
  · rw [raiseSafe_changed s _ h, if_neg h]
    exact ⟨_, rfl, HostUnit.events_raiseEvent _ _⟩

/-! ## Composed levels (R2, R104) -/

/-- A latch writes the engine level of every channel into its last level. -/
theorem last_writeLastLevels {s : State} (hc : canonical s) (n c : Nat) :
    ((s.writeLastLevels n).get Channel.dark c).last = s.engineLevel n c (s.arbiter.channel c) := by
  obtain ⟨hwf, -⟩ := hc
  exact congrArg Channel.last (Table.get_mapCells Channel.dark _ s.arbiter.channels c rfl hwf)

/-- The composed levels, from the last levels that the latch has written. -/
theorem composedRun_eq {s t : State} (hc : canonical s)
    (ht : t.arbiter.channels = s.writeLastLevels s.clock.frame) (first count : Nat) :
    s.composedRun s.clock.frame first count = composedFrom s t first count := by
  refine List.map_congr_left fun i _ => ?_
  have hlast : (t.arbiter.channel (first + i)).last =
      s.engineLevel s.clock.frame (first + i) (s.arbiter.channel (first + i)) := by
    rw [Arbiter.channel, ht]
    exact last_writeLastLevels hc _ _
  rw [hlast]
  rfl

/-! ## The snapshots (R114) -/

theorem snapshotBytes_eq (levels : List Level) : snapshotBytes levels = levels.flatMap levelBytes := by
  simp only [snapshotBytes, leBytes_toNat]
  rfl

theorem capture_eq {s t : State} (hc : canonical s) (ht : t.arbiter.channels = s.writeLastLevels s.clock.frame)
    (r : Snapshot) :
    s.capture s.clock.frame r =
      if r.captureFrame = s.clock.frame ∧ r.area = none then
        { r with area := some ((composedFrom s t r.first r.count).flatMap levelBytes) }
      else r := by
  rw [State.capture, snapshotBytes_eq, composedRun_eq hc ht]

/-! ## The ports (R132, R133) -/

theorem letsSend_iff (s : State) (c : PortConfig) : s.supply.letsSend c.feed = true ↔ feedAllows s c := by
  unfold Supply.letsSend feedAllows
  cases c.feed with
  | none => exact ⟨fun _ => nofun, fun _ => rfl⟩
  | some n => simp

section
variable {p : Port} {u : Supply}

theorem atLatch_disabled (h : p.state = .disabled) (n : Nat) (slice : List Level) : p.atLatch u n slice = p := if_pos h

theorem atLatch_sends (h : p.state ≠ .disabled) (hfeed : u.letsSend p.applied.feed = true) (n : Nat)
    (slice : List Level) :
    p.atLatch u n slice =
      { p with
        state := if p.state = .held then .sending else p.state
        line := .sending (wireFrame p.applied n slice) } :=
  (if_neg h).trans (if_pos hfeed)

theorem atLatch_still_held (h : p.state = .held) (hfeed : ¬u.letsSend p.applied.feed = true) (n : Nat)
    (slice : List Level) : p.atLatch u n slice = p := by
  have hne : p.state ≠ .disabled := by simp [h]
  exact (if_neg hne).trans ((if_neg hfeed).trans (if_pos h))

theorem atLatch_becomes_held (h : p.state ≠ .disabled) (hheld : p.state ≠ .held)
    (hfeed : ¬u.letsSend p.applied.feed = true) (n : Nat) (slice : List Level) :
    p.atLatch u n slice = p.rest .held :=
  (if_neg h).trans ((if_neg hfeed).trans (if_neg hheld))

end

/-- A latch does with each port what `Port.atLatch` does; a port that is not listed is DISABLED and stays. -/
theorem port_latched {s : State} (hc : canonical s) (safe : Bool) (k : Nat) :
    (latched s safe).ports.port k =
      (s.ports.port k).atLatch s.supply s.clock.frame (s.sliceOf s.clock.frame safe (s.ports.port k).applied) := by
  obtain ⟨-, -, -, -, -, hwf, -⟩ := hc
  exact Table.get_mapCells Port.atReset _ s.ports.records k (atLatch_disabled rfl _ _) hwf

/-- Settles O34: the latched blocks, and the event of the safe look; each port is what `Port.atLatch` makes of it. -/
theorem latchSendsAndCaptures : Obligations.LatchSendsAndCaptures := by
  intro safe s hc
  obtain ⟨host, heq, hevents⟩ := raiseSafe_eq (latched s safe) s.clock.safe safe
  have hexec : exec (.latch safe) s = .next { latched s safe with host := host } :=
    congrArg Host.Outcome.next ((latchFrame_eq s safe).trans heq)
  have hlevels := composedRun_eq (t := { latched s safe with host := host }) hc rfl
  refine ⟨_, hexec, rfl, hevents, List.map_congr_left fun r _ => capture_eq hc rfl r, fun k => ?port⟩
  have hport : ({ latched s safe with host := host } : State).ports.port k = _ := port_latched hc safe k
  rw [hport, ← hlevels, ← letsSend_iff]
  refine ⟨fun hoff => atLatch_disabled hoff _ _, fun hon hfeed => atLatch_sends hon hfeed _ _, fun hon hfeed => ?held⟩
  by_cases hheld : (s.ports.port k).state = .held
  · rw [atLatch_still_held hheld hfeed]
    exact ⟨hheld, rfl, rfl, rfl, fun _ => rfl, fun hne => absurd hheld hne⟩
  · rw [atLatch_becomes_held hon hheld hfeed]
    exact ⟨rfl, rfl, rfl, rfl, fun h => absurd h hheld, fun _ => ⟨rfl, rfl, rfl⟩⟩

end Sys2Proof.Frames
end

section
/-! PROOFS. The bytes of a wire frame: the check bit by bit, the header, and the slice pixel by pixel. -/

namespace Sys2Proof.Frames

open Machine Claims Playbacks

/-! ## The check (11.6) -/

/-- What is still to be folded in moves one bit up, and its top bit is the bit of the check that is sent. -/
theorem crcShift_xor (c y : BitVec 16) : crcShift (c ^^^ y) = crcBit c (y.getLsbD 15) ^^^ (y <<< 1) := by
  have hshift : (c ^^^ y) <<< 1 = (c <<< 1) ^^^ (y <<< 1) := BitVec.shiftLeft_xor_distrib c y 1
  rw [crcShift, crcBit, BitVec.getLsbD_xor, hshift]
  by_cases h : c.getLsbD 15 = y.getLsbD 15
  · rw [if_pos h, if_neg (by simpa using h), BitVec.xor_zero]
  · rw [if_neg h, if_pos (by simpa using h), BitVec.xor_assoc, BitVec.xor_comm (y <<< 1), ← BitVec.xor_assoc]

/-- The bits of the byte come to the top one after the other, and after eight shifts none of it is left. -/
theorem crcByte_eq (c : BitVec 16) (b : Byte) : crcByte c b = (wireBits b).foldl crcBit c := by
  simp only [crcByte, show List.range 8 = [0, 1, 2, 3, 4, 5, 6, 7] from rfl, List.foldl_cons, List.foldl_nil,
    crcShift_xor, ← BitVec.shiftLeft_add, wireBits, List.map_cons, List.map_nil]
  simp

theorem crc16_eq (bytes : List Byte) : crc16 bytes = (bytes.flatMap wireBits).foldl crcBit 0xFFFF#16 := by
  have hbyte : crcByte = fun c b => (wireBits b).foldl crcBit c := funext fun c => funext (crcByte_eq c)
  rw [crc16, hbyte, List.foldl_flatMap]

/-! ## Bytes and header fields (11.6) -/

theorem beBytes_eq (v : BitVec 16) : beBytes v = [(v >>> 8).setWidth 8, v.setWidth 8] := by
  simp [beBytes, byteOf, ← BitVec.ofNat_toNat, Nat.shiftRight_eq_div_pow]

theorem componentBytes_of_16 (v : Level) : componentBytes 16 v = [(v >>> 8).setWidth 8, v.setWidth 8] := beBytes_eq v

theorem componentBytes_of_8 (v : Level) : componentBytes 8 v = [(v >>> 8).setWidth 8] := by
  simp [componentBytes, byteOf, ← BitVec.ofNat_toNat, Nat.shiftRight_eq_div_pow]

theorem length_componentBytes {depth : Nat} (h : depth = 8 ∨ depth = 16) (v : Level) :
    (componentBytes depth v).length = depth / 8 := by
  rcases h with rfl | rfl <;> rfl

/-- The two bytes of the format field. -/
theorem beBytes_wireFormat (c : PortConfig) (h : c.pixels ≤ 512) :
    beBytes (wireFormat c) =
      [BitVec.ofNat 8 (c.pixels / 256 + (if c.components = 4 then 4 else 0) + (if c.depth = 16 then 8 else 0)),
        BitVec.ofNat 8 c.pixels] := by
  have hsmall : (wireFormat c).toNat =
      c.pixels + (if c.components = 4 then 2 ^ 10 else 0) + (if c.depth = 16 then 2 ^ 11 else 0) := by
    rw [wireFormat, BitVec.toNat_ofNat]
    refine Nat.mod_eq_of_lt ?_
    split <;> split <;> omega
  have hupper : (wireFormat c).toNat / 256 ^ 1 =
      c.pixels / 256 + (if c.components = 4 then 4 else 0) + (if c.depth = 16 then 8 else 0) := by
    rw [hsmall, Nat.pow_one]
    split <;> split <;> omega
  have hlower : BitVec.ofNat 8 (wireFormat c).toNat = BitVec.ofNat 8 c.pixels := by
    refine BitVec.eq_of_toNat_eq ?_
    rw [hsmall, BitVec.toNat_ofNat, BitVec.toNat_ofNat]
    split <;> split <;> omega
  rw [beBytes, byteOf_zero, byteOf, hupper, hlower]

/-! ## Lists cut into runs of one length -/

theorem getElem?_flatMap_run {α β : Type} {f : α → List β} {l : List α} {i k m : Nat} {x : α}
    (hf : ∀ x ∈ l, (f x).length = k) (hx : l[i]? = some x) (hm : m < k) : (l.flatMap f)[i * k + m]? = (f x)[m]? := by
  induction l generalizing i with
  | nil => cases hx
  | cons y l ih =>
    obtain ⟨hy, hl⟩ := List.forall_mem_cons.mp hf
    rw [List.flatMap_cons]
    cases i with
    | zero =>
      cases hx
      rw [Nat.zero_mul, Nat.zero_add, List.getElem?_append_left (hy ▸ hm)]
    | succ i =>
      have hpast : (i + 1) * k + m = (f y).length + (i * k + m) := by rw [hy, Nat.succ_mul]; omega
      rw [hpast, List.getElem?_append_right (Nat.le_add_right _ _), Nat.add_sub_cancel_left]
      exact ih hl hx

theorem length_flatMap_run {α β : Type} {f : α → List β} {l : List α} {k : Nat} (hf : ∀ x ∈ l, (f x).length = k) :
    (l.flatMap f).length = l.length * k := by
  rw [List.length_flatMap, List.map_congr_left hf, List.map_const', List.sum_replicate_nat]

/-! ## The slice as it is sent (R133) -/

/-- The output values of a frame, in the order in which they are sent. -/
def wireValues (c : PortConfig) (slice : List Level) : List Level :=
  (wirePixels c).flatMap (pixelOf c.components slice)

theorem wireData_eq (c : PortConfig) (slice : List Level) :
    wireData c slice = (wireValues c slice).flatMap (componentBytes c.depth) :=
  List.flatMap_assoc.symm

theorem length_wirePixels (c : PortConfig) : (wirePixels c).length = c.pixels := by
  unfold wirePixels
  split <;> simp

theorem getElem?_wirePixels {c : PortConfig} {i : Nat} (h : i < c.pixels) :
    (wirePixels c)[i]? = some (if c.reversed then c.pixels - 1 - i else i) := by
  unfold wirePixels
  split
  next => rw [List.getElem?_reverse (by simpa using h), List.length_range, List.getElem?_range (by omega)]
  next => rw [List.getElem?_range h]

section
variable {c : PortConfig} {slice : List Level}

theorem length_pixelOf (h : slice.length = c.pixels * c.components) :
    ∀ i ∈ wirePixels c, (pixelOf c.components slice i).length = c.components := by
  intro i hi
  have hlt : i < c.pixels := by
    unfold wirePixels at hi
    split at hi <;> simpa using hi
  have hroom : (i + 1) * c.components ≤ c.pixels * c.components := Nat.mul_le_mul_right _ hlt
  rw [Nat.succ_mul] at hroom
  simp only [pixelOf, List.length_take, List.length_drop, h]
  omega

theorem length_wireValues (h : slice.length = c.pixels * c.components) :
    (wireValues c slice).length = c.pixels * c.components := by
  rw [wireValues, length_flatMap_run (length_pixelOf h), length_wirePixels]

/-- Pixel `i` sent is pixel `i` of the slice, or the one as far from its end. -/
theorem getElem?_wireValues (h : slice.length = c.pixels * c.components) {i m : Nat} (hi : i < c.pixels)
    (hm : m < c.components) :
    (wireValues c slice)[i * c.components + m]? =
      slice[(if c.reversed then c.pixels - 1 - i else i) * c.components + m]? := by
  rw [wireValues, getElem?_flatMap_run (length_pixelOf h) (getElem?_wirePixels hi) hm, pixelOf,
    List.getElem?_take_of_lt hm, List.getElem?_drop]

theorem length_wireData (h : slice.length = c.pixels * c.components) (hd : c.depth = 8 ∨ c.depth = 16) :
    (wireData c slice).length = c.pixels * c.components * (c.depth / 8) := by
  rw [wireData_eq, length_flatMap_run fun v _ => length_componentBytes hd v, length_wireValues h]

/-- At depth 16 the two bytes of a value stand together, in the place of the value. -/
theorem getElem?_wireData_of_16 (hd : c.depth = 16) {j k : Nat} {v : Level} (hv : (wireValues c slice)[j]? = some v)
    (hk : k < 2) : (wireData c slice)[2 * j + k]? = [(v >>> 8).setWidth 8, v.setWidth 8][k]? := by
  rw [wireData_eq, hd, Nat.mul_comm, getElem?_flatMap_run (fun v _ => length_componentBytes (.inr rfl) v) hv hk,
    componentBytes_of_16]

/-- At depth 8 there is one byte for each value. -/
theorem getElem?_wireData_of_8 (hd : c.depth = 8) {j : Nat} {v : Level} (hv : (wireValues c slice)[j]? = some v) :
    (wireData c slice)[j]? = some ((v >>> 8).setWidth 8) := by
  have hrun := getElem?_flatMap_run (fun v _ => length_componentBytes (.inl rfl) v) hv Nat.one_pos
  rw [wireData_eq, hd, ← Nat.mul_one j]
  exact hrun.trans (by rw [componentBytes_of_8]; rfl)

end

/-! ## The frame -/

/-- The bytes of a wire frame: the header and the data. -/
theorem wireFrame_bytes (c : PortConfig) (n : Nat) (slice : List Level) :
    (wireFrame c n slice).bytes =
      0xA5#8 :: byteOf n 0 :: (beBytes (wireFormat c) ++ (beBytes (wireFrame c n slice).check ++ wireData c slice)) := by
  simp [wireFrame]

/-- Settles O35: the header, the check over what follows the marker and the check itself, and the data value by
value. -/
theorem wireFrameLayout : Obligations.WireFrameLayout := by
  intro c n slice hpixels _ hdepth hlength
  have hbytes := wireFrame_bytes c n slice
  rw [beBytes_wireFormat c hpixels, beBytes_eq, byteOf_zero] at hbytes
  have hcheck : (wireFrame c n slice).check =
      crc16 ([byteOf n 0] ++ beBytes (wireFormat c) ++ wireData c slice) := rfl
  rw [beBytes_wireFormat c hpixels, byteOf_zero, crc16_eq] at hcheck
  have hdata (k : Nat) : (wireFrame c n slice).bytes[6 + k]? = (wireData c slice)[k]? := by
    rw [hbytes, Nat.add_comm 6 k]
    rfl
  refine ⟨rfl, byteOf_zero n, ?length, ?header, ?check, fun i hi m hm level hlevel => ?data⟩
  case length =>
    rw [hbytes]
    simp only [List.length_cons, List.length_append, List.length_nil, length_wireData hlength hdepth]
    omega
  case header => rw [hbytes]; rfl
  case check => rw [hbytes]; exact hcheck
  case data =>
    have hvalue : (wireValues c slice)[i * c.components + m]? = some level :=
      (getElem?_wireValues hlength hi hm).trans hlevel
    refine ⟨fun hd => ⟨?upper, ?lower⟩, fun hd => ?only⟩
    case upper => exact (hdata _).trans (getElem?_wireData_of_16 hd hvalue Nat.two_pos)
    case lower =>
      rw [show 7 + 2 * (i * c.components + m) = 6 + (2 * (i * c.components + m) + 1) by omega]
      exact (hdata _).trans (getElem?_wireData_of_16 hd hvalue Nat.one_lt_two)
    case only => exact (hdata _).trans (getElem?_wireData_of_8 hd hvalue)

end Sys2Proof.Frames
end

section
/-! PROOFS. The staged requests of the composer: PARK and UNPARK on a park list in order, and what each request leads
to. -/

namespace Sys2Proof.Frames

open Machine Safety Claims

/-! ## The park list (R107) -/

/-- The park list's law, and no range is empty. -/
def ParksSound (l : List ParkRange) : Prop := ParksLegal l ∧ ∀ r ∈ l, 1 ≤ r.count

/-- Two runs that are not empty share a channel if each starts before the other ends. -/
theorem runsOverlap_iff {first count : Nat} {r : ParkRange} (h : 1 ≤ count) (hr : 1 ≤ r.count) :
    runsOverlap first count r = true ↔ shares first count r := by
  simp only [runsOverlap, decide_eq_true_eq, shares]
  constructor
  · exact fun _ => ⟨max first r.first, by omega⟩
  · rintro ⟨c, hc⟩
    omega

theorem samePark_iff {first count : Nat} {r : ParkRange} :
    samePark first count r = true ↔ r.first = first ∧ r.count = count := decide_eq_true_iff

theorem insertPark_perm (r : ParkRange) (l : List ParkRange) : (insertPark r l).Perm (r :: l) := by
  induction l with
  | nil => exact .refl _
  | cons q l ih =>
    unfold insertPark
    split
    · exact .refl _
    · exact (ih.cons q).trans (.swap r q l)

/-- In a list in order, what stands first among the members with a property starts before the others. -/
theorem find?_first_le {l : List ParkRange} (hl : ParksLegal l) {p : ParkRange → Bool} {r : ParkRange}
    (h : l.find? p = some r) : ∀ x ∈ l, p x = true → r.first ≤ x.first := by
  obtain ⟨-, before, after, rfl, hbefore⟩ := List.find?_eq_some_iff_append.mp h
  obtain ⟨-, hpairs⟩ := hl
  obtain ⟨-, hafter, -⟩ := List.pairwise_append.mp hpairs
  intro x hx hp
  rcases List.mem_append.mp hx with hx | hx
  · exact absurd hp (by simpa using hbefore x hx)
  · rcases List.mem_cons.mp hx with rfl | hx
    · exact Nat.le_refl _
    · exact ((List.pairwise_cons.mp hafter).1 x hx).1

/-! ## PARK (R108) -/

section
variable {l : List ParkRange} {first count : Nat} {r : ParkRange}

/-- OVERLAP names the range that starts first among those that share a channel. -/
theorem applyPark_overlap (hl : ParksSound l) (hcount : 1 ≤ count) (hr : r ∈ l) (hshares : shares first count r)
    (hlow : ∀ x ∈ l, shares first count x → r.first ≤ x.first) (level : Level) :
    applyPark l first count level = (l, .overlap, r.first) := by
  obtain ⟨hlegal, hfull⟩ := hl
  have hover : runsOverlap first count r = true := (runsOverlap_iff hcount (hfull r hr)).mpr hshares
  cases hfind : l.find? (runsOverlap first count) with
  | none => exact absurd hover (List.find?_eq_none.mp hfind r hr)
  | some x =>
    have hx := List.mem_of_find?_eq_some hfind
    have hsame : x.first = r.first :=
      Nat.le_antisymm (find?_first_le hlegal hfind r hr hover)
        (hlow x hx ((runsOverlap_iff hcount (hfull x hx)).mp (List.find?_some hfind)))
    rw [applyPark, hfind, ← hsame]

theorem find?_runsOverlap_none (hl : ParksSound l) (hcount : 1 ≤ count) (hnone : ∀ r ∈ l, ¬shares first count r) :
    l.find? (runsOverlap first count) = none :=
  List.find?_eq_none.mpr fun r hr hover => hnone r hr ((runsOverlap_iff hcount (hl.2 r hr)).mp hover)

theorem applyPark_full (hl : ParksSound l) (hcount : 1 ≤ count) (hnone : ∀ r ∈ l, ¬shares first count r)
    (hfull : l.length = 32) (level : Level) : applyPark l first count level = (l, .listFull, 32) := by
  rw [applyPark, find?_runsOverlap_none hl hcount hnone]
  exact if_pos (Nat.le_of_eq hfull.symm)

theorem applyPark_room (hl : ParksSound l) (hcount : 1 ≤ count) (hnone : ∀ r ∈ l, ¬shares first count r)
    (hroom : l.length < 32) (level : Level) :
    applyPark l first count level =
      (insertPark { first := first, count := count, level := level } l, .ok, l.length + 1) := by
  rw [applyPark, find?_runsOverlap_none hl hcount hnone]
  exact if_neg (Nat.not_le.mpr hroom)

theorem applyPark_sound (hl : ParksSound l) (hcount : 1 ≤ count) (level : Level) :
    ParksSound (applyPark l first count level).1 := by
  obtain ⟨hlegal, hfull⟩ := hl
  refine ⟨FrameWork.applyPark_legal l first count level hlegal, ?_⟩
  unfold applyPark
  split
  · exact hfull
  · split
    · exact hfull
    · intro x hx
      rcases FrameWork.mem_insertPark _ l x hx with rfl | hx
      · exact hcount
      · exact hfull x hx

end

/-! ## UNPARK (R109) -/

/-- The first range with the given bounds is taken out. -/
theorem applyUnpark_found {before after : List ParkRange} {first count : Nat}
    (h : ∀ x ∈ before, ¬(x.first = first ∧ x.count = count)) (level : Level) :
    applyUnpark (before ++ { first := first, count := count, level := level } :: after) first count =
      (before ++ after, .ok, (before ++ after).length) := by
  let r : ParkRange := { first := first, count := count, level := level }
  have hbefore : ∀ x ∈ before, ¬samePark first count x = true := fun x hx => mt samePark_iff.mp (h x hx)
  have hr : samePark first count r = true := samePark_iff.mpr ⟨rfl, rfl⟩
  have hfind : (before ++ r :: after).find? (samePark first count) = some r :=
    List.find?_eq_some_iff_append.mpr ⟨hr, before, after, rfl, by simpa using hbefore⟩
  have hrest : (before ++ r :: after).eraseP (samePark first count) = before ++ after := by
    rw [List.eraseP_append_right _ hbefore, List.eraseP_cons_of_pos hr]
  have hlength : (before ++ r :: after).length - 1 = (before ++ after).length := by simp
  rw [applyUnpark, hfind, hrest, hlength]

theorem applyUnpark_none {l : List ParkRange} {first count : Nat}
    (h : ∀ r ∈ l, ¬(r.first = first ∧ r.count = count)) : applyUnpark l first count = (l, .notFound, 0) := by
  have hfind : l.find? (samePark first count) = none :=
    List.find?_eq_none.mpr fun r hr hsame => h r hr (samePark_iff.mp hsame)
  rw [applyUnpark, hfind]

theorem applyUnpark_sound {l : List ParkRange} (hl : ParksSound l) (first count : Nat) :
    ParksSound (applyUnpark l first count).1 := by
  obtain ⟨hlegal, hfull⟩ := hl
  refine ⟨FrameWork.applyUnpark_legal l first count hlegal, ?_⟩
  unfold applyUnpark
  split
  · exact fun x hx => hfull x (List.mem_of_mem_eraseP hx)
  · exact hfull

/-! ## Each request (R103, R108 to R110, R112) -/

/-- A request of the composer that is not a SHOW_RESET, and that parks no empty range. -/
def composable (r : ClockRequest) : Prop :=
  r ≠ .showReset ∧ ∀ first count level, r = .compose (.park first count level) → 1 ≤ count

/-- The state after such a request has been applied. -/
def composedBy (s : State) (o : Owed) : ClockRequest → State
  | .compose q => s.applyCompose o q
  | .setPeriod p => State.finish { s with clock := { s.clock with period := p } } o .ok s.clock.period
  | .showReset => s

theorem applyCompose_park {s : State} {first count n : Nat} {level : Level} {parks : List ParkRange} {status : Status}
    (h : applyPark s.clock.parks first count level = (parks, status, n)) (o : Owed) :
    s.applyCompose o (.park first count level) =
      State.finish { s with clock := { s.clock with parks := parks } } o status n := by
  simp only [State.applyCompose, h]

theorem applyCompose_unpark {s : State} {first count n : Nat} {parks : List ParkRange} {status : Status}
    (h : applyUnpark s.clock.parks first count = (parks, status, n)) (o : Owed) :
    s.applyCompose o (.unpark first count) =
      State.finish { s with clock := { s.clock with parks := parks } } o status n := by
  simp only [State.applyCompose, h]

theorem applyClock_eq {r : ClockRequest} (h : composable r) (w : FrameWork) (o : Owed) :
    w.applyClock o r = { w with s := composedBy w.s o r } := by
  cases r with
  | compose q => rfl
  | setPeriod p => rfl
  | showReset => exact absurd rfl h.1

/-- A request does what its rule says. -/
theorem composes_composedBy {s : State} {e : Staged ClockRequest} (hs : ParksSound s.clock.parks)
    (he : composable e.request) : composes s e (composedBy s e.owed e.request) := by
  obtain ⟨frame, o, request⟩ := e
  obtain ⟨hreset, hpark⟩ := he
  cases request with
  | showReset => exact absurd rfl hreset
  | setPeriod p => rfl
  | compose q =>
    cases q with
    | setMaster m => rfl
    | park first count level =>
      have hcount : 1 ≤ count := hpark first count level rfl
      refine ⟨fun r hr hshares hlow => ?overlap, fun hnone hfull => ?full, fun hnone hroom => ?room⟩
      case overlap => exact applyCompose_park (applyPark_overlap hs hcount hr hshares hlow level) o
      case full => exact applyCompose_park (applyPark_full hs hcount hnone hfull level) o
      case room =>
        have happly := applyPark_room hs hcount hnone hroom level
        have hsound := applyPark_sound (first := first) hs hcount level
        rw [happly] at hsound
        obtain ⟨⟨-, hpairs⟩, -⟩ := hsound
        exact ⟨_, insertPark_perm _ _, hpairs.imp And.left, applyCompose_park happly o⟩
    | unpark first count =>
      refine ⟨fun before after level hl hbefore => ?found, fun hnone => ?none⟩
      case found =>
        have hfound := applyUnpark_found (after := after) hbefore level
        rw [← hl] at hfound
        exact applyCompose_unpark hfound o
      case none => exact applyCompose_unpark (applyUnpark_none hnone) o

/-- What a request changes: the park list, which stays sound, the master, the period, and the host unit. -/
theorem composedBy_eq {s : State} {r : ClockRequest} (hs : ParksSound s.clock.parks) (hr : composable r) (o : Owed) :
    ∃ host parks master period,
      composedBy s o r =
        { s with
          host := host
          clock := { s.clock with parks := parks, master := master, period := period } } ∧
      ParksSound parks := by
  cases r with
  | showReset => exact absurd rfl hr.1
  | setPeriod p => exact ⟨_, _, _, _, rfl, hs⟩
  | compose q =>
    cases q with
    | setMaster m => exact ⟨_, _, _, _, rfl, hs⟩
    | park first count level => exact ⟨_, _, _, _, rfl, applyPark_sound hs (hr.2 first count level rfl) level⟩
    | unpark first count => exact ⟨_, _, _, _, rfl, applyUnpark_sound hs first count⟩

/-- The state with another list of what the composer has staged. -/
def withStaged (s : State) (l : List (Staged ClockRequest)) : State :=
  { s with clock := { s.clock with staged := l } }

/-- Whatever else is staged makes no difference to a request. -/
theorem composedBy_withStaged (s : State) (l : List (Staged ClockRequest)) (o : Owed) (r : ClockRequest) :
    composedBy (withStaged s l) o r = withStaged (composedBy s o r) l := by
  cases r with
  | compose q => cases q <;> rfl
  | setPeriod p => rfl
  | showReset => rfl

end Sys2Proof.Frames
end

section
/-! PROOFS. A frame start that finds requests of the composer and no other work: they are applied one after the other, in
the order they were taken, whatever is done between them. -/

namespace Sys2Proof.Frames

open Machine Safety Claims Transitions Playbacks

/-! ## The composer's staged list (R103) -/

/-- The state with the composer's entries of its frame taken off their list. -/
def composerTaken (s : State) : State :=
  withStaged s (s.clock.staged.filter (fun e => e.frame ≠ s.clock.frame))

theorem composerTaken_eq_self {s : State} (h : stamped s.clock.frame s.clock.staged = []) : composerTaken s = s := by
  rw [composerTaken, filter_not_due h]
  rfl

theorem composerTaken_withStaged (s : State) (l : List (Staged ClockRequest)) :
    composerTaken (withStaged s l) = withStaged s (l.filter (fun e => e.frame ≠ s.clock.frame)) := rfl

theorem composedBy_clock (s : State) (o : Owed) (r : ClockRequest) :
    (composedBy s o r).clock.frame = s.clock.frame ∧ (composedBy s o r).clock.staged = s.clock.staged := by
  cases r with
  | compose q => cases q <;> exact ⟨rfl, rfl⟩
  | setPeriod p => exact ⟨rfl, rfl⟩
  | showReset => exact ⟨rfl, rfl⟩

/-- Taking the entries of the frame off the list, and applying the first of them, may be done in either order. -/
theorem composerTaken_composedBy {s : State} {e : Staged ClockRequest} {rest : List (Staged ClockRequest)}
    (h : firstDue s.clock.frame s.clock.staged e rest) :
    composerTaken (composedBy (withStaged s rest) e.owed e.request) =
      composedBy (composerTaken s) e.owed e.request := by
  obtain ⟨hframe, -⟩ := composedBy_clock s e.owed e.request
  rw [composedBy_withStaged, composerTaken_withStaged, hframe, composerTaken, composedBy_withStaged,
    (firstDue_stamped h).2]

/-! ## Work of the composer alone -/

/-- The work without what the composer has staged. -/
def withoutComposer (w : FrameWork) : FrameWork :=
  { w with s := withStaged w.s [] }

/-- Nothing of the work makes more work but what the composer has staged, and of that nothing is a SHOW_RESET. -/
structure Composing (w : FrameWork) : Prop where
  rest : Resting (withoutComposer w)
  commits : stamped w.s.clock.frame w.s.groups.commits = []
  ports : stamped w.s.clock.frame w.s.ports.staged = []
  intake : w.intake = []
  asked : ∀ e ∈ stamped w.s.clock.frame w.s.clock.staged, composable e.request
  parks : ParksSound w.s.clock.parks

/-- What a piece of such work may be, and what it leaves. -/
inductive ComposingPiece (w : FrameWork) : FrameWork → Prop
  | steps (agenda : List ControllerStep) (passed : Bool) (h : standsAt agenda passed) :
      ComposingPiece w { w with agenda := agenda, stagedOver := passed }
  | answer (a : LoadAnswer) (rest : List LoadAnswer) (loads : List Ctx) (h : w.answers = a :: rest) :
      ComposingPiece w { w with answers := rest, bandLoads := loads }
  | request (e : Staged ClockRequest) (rest : List (Staged ClockRequest))
      (h : firstDue w.s.clock.frame w.s.clock.staged e rest) :
      ComposingPiece w { w with s := composedBy (withStaged w.s rest) e.owed e.request }

/-- A step of the controller, where the playbacks have no work, takes it from one point of its passes to another. -/
theorem stepDone_stands {w : FrameWork} {c : ControllerStep} {later : List ControllerStep}
    (hs : standsAt (c :: later) w.stagedOver) (hc : c ≠ .stagedPass)
    (hw : ∀ p, waitsAt (w.s.controller.playback p) w.s.clock.frame) :
    ∃ agenda passed, standsAt agenda passed ∧
      stepDone { w with agenda := later } c = { w with agenda := agenda, stagedOver := passed } := by
  rcases standsAt_cons hs with ⟨rfl, -⟩ | ⟨hp, hlater, ⟨p, rfl, htry⟩ | ⟨p, rfl⟩⟩
  · exact absurd rfl hc
  · rcases sweep_of_waitsAt (w := { w with agenda := later }) (hw p) with hsweep | hsweep
    · exact ⟨later, w.stagedOver, hp ▸ hlater, hsweep⟩
    · exact ⟨.tryHead p :: later, w.stagedOver, hp ▸ htry, hsweep⟩
  · exact ⟨later, w.stagedOver, hp ▸ hlater, tryHead_of_waitsAt (w := { w with agenda := later }) (hw p)⟩

section
variable {w v : FrameWork}

theorem Composing.first_composable (h : Composing w) {e : Staged ClockRequest} {rest : List (Staged ClockRequest)}
    (hd : firstDue w.s.clock.frame w.s.clock.staged e rest) : composable e.request :=
  h.asked e ((firstDue_stamped hd).1 ▸ List.mem_cons_self)

/-- The pieces of such work: every other piece wants something that is not there. -/
theorem Composing.piece (h : Composing w) {i : WorkItem} (hi : w.may i) (hp : Piece w i v) : ComposingPiece w v := by
  have hrest := h.rest
  obtain ⟨hloadEnds, hslots, hplaybacks⟩ := hrest.calm
  have due {ρ : Type} {l rest : List (Staged ρ)} {e : Staged ρ} (hl : ∀ e ∈ l, e.frame ≠ w.s.clock.frame)
      (hd : firstDue w.s.clock.frame l e rest) : False := hl e (firstDue_mem hd).1 (firstDue_mem hd).2
  have absent {α : Type} {l rest : List α} {x : α} (hl : l = []) (hx : l = x :: rest) : False :=
    List.cons_ne_nil x rest (hx.symm.trans hl)
  have unsent {P : Prop} (hr : w.resetSent = true ∧ P) : False := Bool.false_ne_true (hrest.sent.symm.trans hr.1)
  have stands {agenda : List ControllerStep} (ha : w.agenda = agenda) : standsAt agenda w.stagedOver :=
    ha ▸ hrest.stands
  cases hp with
  | composer e rest hd =>
    rw [applyClock_eq (h.first_composable hd)]
    exact .request e rest hd
  | answer a rest hx =>
    obtain ⟨loads, htake⟩ := takeAnswer_of_no_load (w := { w with answers := rest })
      (hrest.loads.resolve_left (absent · hx)) a
    rw [htake]
    exact .answer a rest loads hx
  | passOver later _ _ ha =>
    rcases standsAt_cons (stands ha) with ⟨-, hlater⟩ | ⟨-, -, ⟨p, hc, -⟩ | ⟨p, hc⟩⟩
    · exact .steps later true hlater
    · cases hc
    · cases hc
  | step c later _ ha hc =>
    obtain ⟨agenda, passed, hstands, hdone⟩ := stepDone_stands (stands ha) hc hplaybacks
    rw [hdone]
    exact .steps agenda passed hstands
  | stepAtOnce c later ho => exact (absent hrest.once ho).elim
  | commit e rest hd => exact (due (not_due_of_stamped_nil h.commits) hd).elim
  | port e rest hd => exact (due (not_due_of_stamped_nil h.ports) hd).elim
  | arrival a rest hx => exact (absent h.intake hx).elim
  | band e rest hd => exact (due hrest.bands hd).elim
  | playback e rest later hd => exact (due hrest.controller hd).elim
  | composerReleased o q rest hx => exact (absent hrest.toComposer hx).elim
  | playbackReleased o q rest hx => exact (absent hrest.toController hx).elim
  | bandReleased o q rest hx => exact (absent hrest.toBands hx).elim
  | slotMustEnd k hk => exact absurd (hrest.mustEnd ▸ hk : k ∈ []) List.not_mem_nil
  | slotEnd k r hr hrun he => exact absurd he (hslots k r hr hrun)
  | endNotice n rest hx => exact (absent hrest.notices hx).elim
  | loadEnd n before after hx hf =>
    have hn : n ∈ w.s.store.notices := by simp [hx]
    exact absurd hf (hloadEnds n hn)
  | resetArbiter | resetStore | resetEngine | resetController | resetBands | resetGroups => exact (unsent hi).elim
  | resetReport hl => exact absurd hrest.losses hl

/-! ## What stays as it is -/

theorem Composing.steps (h : Composing w) {agenda : List ControllerStep} {passed : Bool} (hs : standsAt agenda passed) :
    Composing { w with agenda := agenda, stagedOver := passed } :=
  { h with rest := h.rest.edit hs h.rest.loads w.s.host w.s.groups w.s.ports w.intake w.bandLoads }

theorem Composing.answer (h : Composing w) {a : LoadAnswer} {rest : List LoadAnswer} (ha : w.answers = a :: rest)
    (loads : List Ctx) : Composing { w with answers := rest, bandLoads := loads } :=
  have hloads := h.rest.loads.resolve_left fun hnil => List.cons_ne_nil a rest (ha.symm.trans hnil)
  { h with rest := h.rest.edit h.rest.stands (.inr hloads) w.s.host w.s.groups w.s.ports w.intake loads }

theorem Composing.request (h : Composing w) {e : Staged ClockRequest} {rest : List (Staged ClockRequest)}
    (hd : firstDue w.s.clock.frame w.s.clock.staged e rest) :
    Composing { w with s := composedBy (withStaged w.s rest) e.owed e.request } := by
  have hasked : ∀ x ∈ stamped w.s.clock.frame rest, composable x.request := fun x hx =>
    h.asked x ((firstDue_stamped hd).1 ▸ List.mem_cons_of_mem e hx)
  obtain ⟨host, parks, master, period, heq, hsound⟩ :=
    composedBy_eq (s := withStaged w.s rest) h.parks (h.first_composable hd) e.owed
  rw [heq]
  exact { h with rest := { h.rest with }, asked := hasked, parks := hsound }

end

/-! ## The frame start -/

/-- However the pieces follow each other, the requests are applied in the order of the list. -/
theorem works_composed {w u : FrameWork} (hw : Works w u) (h : Composing w) :
    ComposesAll (composerTaken w.s) (stamped w.s.clock.frame w.s.clock.staged) u.s := by
  induction hw with
  | finished w hleft =>
    obtain ⟨-, -, hclock, -⟩ := hleft
    have hnone := stamped_nil_of_not_due hclock
    rw [hnone, composerTaken_eq_self hnone]
    exact .nil _
  | piece w v u i hi hpiece _ ih =>
    cases h.piece ((FrameWork.mem_enabled w i).mp hi) hpiece with
    | steps agenda passed hs => exact ih (h.steps hs)
    | answer a rest loads ha => exact ih (h.answer ha loads)
    | request e rest hd =>
      have hothers := ih (h.request hd)
      obtain ⟨hframe, hstaged⟩ := composedBy_clock (withStaged w.s rest) e.owed e.request
      rw [composerTaken_composedBy hd, hframe, hstaged] at hothers
      rw [(firstDue_stamped hd).1]
      exact .cons _ _ _ e _ (composes_composedBy h.parks (h.first_composable hd)) hothers

/-- Settles O54: the work that the frame start begins with is the composer's alone. -/
theorem composerRequestsAreApplied : Obligations.ComposerRequestsAreApplied := by
  intro course s hc hloads hintake hninth hcount hcalm hcontroller hbands hcommits hports hasked
  obtain ⟨hloadEnds, hslots, hplaybacks⟩ := hcalm
  obtain ⟨u, hexec, hworks⟩ := frameStart_works course hc
  have hs : (opening course s).s = { s with clock := { s.clock with frame := s.clock.frame + 1 } } :=
    beginFrame_calm hc hplaybacks
  have hcomposing : Composing (opening course s) := by
    refine ⟨⟨.inl ⟨rfl, rfl⟩, rfl, ?_, ?_, nofun, ?_, ?_, rfl, rfl, rfl, rfl, rfl, rfl, rfl⟩, ?_, ?_, hintake, ?_, ?_⟩
    all_goals simp only [withoutComposer, hs]
    · exact not_due_of_stamped_nil hcontroller
    · exact not_due_of_stamped_nil hbands
    · exact ⟨hloadEnds, hslots, hplaybacks⟩
    · exact hloads
    · exact hcommits
    · exact hports
    · exact hasked
    · exact ⟨hninth, hcount⟩
  have hall := works_composed hworks hcomposing
  rw [hs] at hall
  exact ⟨u.s, hexec, hall⟩

end Sys2Proof.Frames
end

section
/-! PROOFS. The end of a transmission, an echo record and the end of the echo window: what each does to a port, and
the verdict. -/

namespace Sys2Proof.Frames

open Machine Claims

/-! ## The line of a port (R133, R135) -/

section
variable {p : Port} {w : WireFrame} {echo : Option (Byte × BitVec 16)}

theorem transmissionEnds_sending (hline : p.line = .sending w) :
    p.transmissionEnds = { p with line := .window w none } := by
  simp only [Port.transmissionEnds, hline]

theorem hearsEcho_first (hline : p.line = .window w none) (hcheck : p.applied.echoCheck = true) (sequence : Byte)
    (check : BitVec 16) : p.hearsEcho sequence check = { p with line := .window w (some (sequence, check)) } := by
  simp only [Port.hearsEcho, hline, hcheck, if_true]

/-- A later record in the window is ignored, and so is every record while echo check is off. -/
theorem hearsEcho_ignored (hline : p.line = .window w echo) (hignored : echo ≠ none ∨ p.applied.echoCheck = false)
    (sequence : Byte) (check : BitVec 16) : p.hearsEcho sequence check = p := by
  cases echo with
  | none =>
    have hoff : p.applied.echoCheck = false := hignored.resolve_left (absurd rfl)
    simp [Port.hearsEcho, hline, hoff]
  | some first => simp only [Port.hearsEcho, hline]

/-! ## The verdict (R135, 11.2) -/

theorem verdictOf_eq_good_iff : verdictOf w echo = .good ↔ echoGood w echo := by
  cases echo with
  | none => simp [verdictOf, echoGood]
  | some record => simp [verdictOf, echoGood, Prod.ext_iff]

theorem code_verdictOf_of_miss (hmiss : ¬echoGood w echo) :
    (verdictOf w echo).code = if echo = none then 2 else 1 := by
  cases echo with
  | none => rfl
  | some record =>
    have hdiffers : ¬(record.1 = w.sequence ∧ record.2 = w.check) := by
      simpa [echoGood, Prod.ext_iff] using hmiss
    simp [verdictOf, hdiffers, Verdict.code]

/-! ## The port acts on its verdict (R131, R135, R136) -/

theorem judged_judgeSending (hcheck : p.applied.echoCheck = true) (hsending : p.state = .sending) :
    Judged p w echo (p.judgeSending w.frame (verdictOf w echo)).1 (p.judgeSending w.frame (verdictOf w echo)).2 := by
  unfold Port.judgeSending
  split
  next hverdict => exact .hit hcheck hsending (verdictOf_eq_good_iff.mp hverdict)
  next hverdict =>
    have hmiss : ¬echoGood w echo := mt verdictOf_eq_good_iff.mpr hverdict
    split
    next hcount => exact .miss hcheck hsending hmiss (Nat.le_of_lt_succ hcount)
    next hcount =>
      rw [code_verdictOf_of_miss hmiss]
      exact .lost hcheck hsending hmiss (Nat.le_of_not_lt hcount)

theorem judged_judgeLost (hcheck : p.applied.echoCheck = true) (hlost : p.state = .lost) (hat : p.lostAt ≠ none) :
    Judged p w echo (p.judgeLost w.frame (verdictOf w echo)).1 (p.judgeLost w.frame (verdictOf w echo)).2 := by
  unfold Port.judgeLost
  split
  next hverdict =>
    have hgood : echoGood w echo := verdictOf_eq_good_iff.mp hverdict
    split
    next hcount => exact .recovering hcheck hlost hgood (Nat.le_of_lt_succ hcount)
    next hcount =>
      obtain ⟨n, hn⟩ := Option.ne_none_iff_exists'.mp hat
      rw [hn]
      exact .regained hcheck hlost hgood (Nat.le_of_not_lt hcount) n hn
  next hverdict => exact .stillLost hcheck hlost (mt verdictOf_eq_good_iff.mpr hverdict)

theorem judged_judge (hat : p.state = .lost → p.lostAt ≠ none) :
    Judged p w echo (p.judge w.frame (verdictOf w echo)).1 (p.judge w.frame (verdictOf w echo)).2 := by
  unfold Port.judge
  split
  next hoff => exact .unjudged (.inl hoff)
  next hon =>
    have hcheck : p.applied.echoCheck = true := Bool.of_not_eq_false hon
    cases hstate : p.state with
    | disabled => exact .unjudged (.inr (.inr hstate))
    | held => exact .unjudged (.inr (.inl hstate))
    | sending => exact judged_judgeSending hcheck hstate
    | lost => exact judged_judgeLost hcheck hstate (hat hstate)

end

/-! ## The commands -/

theorem raiseEvent_joined (u : HostUnit) (e : EventEntry) :
    u.raiseEvent e = { u with events := joined u.events e } := by
  obtain ⟨events, heq⟩ := u.raiseEvent_eq e
  have hevents : events = joined u.events e :=
    (congrArg HostUnit.events heq).symm.trans (u.events_raiseEvent e)
  rw [heq, hevents]

theorem exec_transmissionEnd (s : State) (k : Fin 8) :
    exec (.transmissionEnd k) s = .next (withPort s k (s.ports.port k).transmissionEnds) := rfl

theorem exec_echoRecord (s : State) (k : Fin 8) (sequence : Byte) (check : BitVec 16) :
    exec (.echoRecord k sequence check) s = .next (withPort s k ((s.ports.port k).hearsEcho sequence check)) := rfl

section
variable {s : State} {k : Fin 8} {w : WireFrame} {echo : Option (Byte × BitVec 16)} {p : Port}

theorem exec_echoWindowClose_silent (hline : (s.ports.port k).line = .window w echo)
    (hjudge : (s.ports.port k).judge w.frame (verdictOf w echo) = (p, none)) :
    exec (.echoWindowClose k) s = .next (withPort s k { p with line := .idle }) := by
  refine congrArg Host.Outcome.next ?_
  simp only [State.echoWindowCloses, hline, hjudge]
  rfl

theorem exec_echoWindowClose_raises {kind : EventKind} {detail : Nat}
    (hline : (s.ports.port k).line = .window w echo)
    (hjudge : (s.ports.port k).judge w.frame (verdictOf w echo) = (p, some (kind, detail))) :
    exec (.echoWindowClose k) s =
      .next { withPort s k { p with line := .idle } with
        host := { s.host with
          events := joined s.host.events
            { kind := kind, object := k, frame := BitVec.ofNat 32 w.frame, detail := BitVec.ofNat 32 detail } } } := by
  refine congrArg Host.Outcome.next ?_
  simp only [State.echoWindowCloses, hline, hjudge, State.raiseEvent, raiseEvent_joined]
  rfl

end

/-- Settles O36: each command does to the port what its own function does, and the port's verdict is `Port.judge`'s. -/
theorem echoDecidesThePort : Obligations.EchoDecidesThePort := by
  refine fun s k w => ⟨fun hsending => ?opens, fun hwindow hcheck sequence check => ?hears,
    fun echo hwindow => ⟨fun hignored sequence check => ?ignores, fun hat => ?judges⟩⟩
  case opens => rw [exec_transmissionEnd, transmissionEnds_sending hsending]
  case hears => rw [exec_echoRecord, hearsEcho_first hwindow hcheck]
  case ignores => rw [exec_echoRecord, hearsEcho_ignored hwindow hignored]
  case judges =>
    exact ⟨_, _, judged_judge hat, fun hnone => exec_echoWindowClose_silent hwindow (Prod.ext rfl hnone),
      fun kind detail hraised => exec_echoWindowClose_raises hwindow (Prod.ext rfl hraised)⟩

end Sys2Proof.Frames
end

section
/-! PROOFS. The registers that software writes, the completion queues' heads, and the unit's own records: INT_CAUSE,
INT_MASK, the table address, CQ_HEADn, the posting of an event and the host's answer to a record write. -/

namespace Sys2Proof.Queues

open Machine Safety Claims

/-! ## Interrupts (R171) -/

theorem setInterrupts_eq_withInterrupts (u : HostUnit) (cause mask : BitVec 6) :
    u.setInterrupts cause mask = withInterrupts u cause mask := by
  have hbegins : (!u.interrupting && decide (cause &&& mask ≠ 0)) = true ↔
      u.intCause &&& u.intMask = 0 ∧ cause &&& mask ≠ 0 := by
    simp [HostUnit.interrupting]
  simp only [HostUnit.setInterrupts, withInterrupts, hbegins]
  split <;> rfl

theorem hostError_eq_hostErrorSet (s : State) : s.hostError = hostErrorSet s :=
  congrArg (fun u => { s with host := u }) (setInterrupts_eq_withInterrupts _ _ _)

/-- Bits that are cleared never make the interrupt condition begin to hold. -/
theorem clearCause_eq (u : HostUnit) (bits : BitVec 6) :
    u.clearCause bits = { u with intCause := u.intCause &&& ~~~bits } := by
  have hquiet : ¬(u.intCause &&& u.intMask = 0 ∧ u.intCause &&& ~~~bits &&& u.intMask ≠ 0) := by
    rintro ⟨hbefore, hafter⟩
    apply hafter
    rw [BitVec.and_assoc, BitVec.and_comm (~~~bits), ← BitVec.and_assoc, hbefore]
    exact BitVec.zero_and
  rw [HostUnit.clearCause, setInterrupts_eq_withInterrupts, withInterrupts, if_neg hquiet]
  rfl

/-- Settles O8: each write is its register's own function, and only INT_CAUSE's and INT_MASK's can send a message. -/
theorem interruptAndTableRegisterWrites : Obligations.InterruptAndTableRegisterWrites := by
  refine fun s v => ⟨fun hoff => ⟨?low, ?high⟩, fun hon high => ?refused, ?cause, ?mask⟩
  case low => exact congrArg Host.Outcome.next (if_pos hoff)
  case high => exact congrArg Host.Outcome.next (if_pos hoff)
  case refused => exact congrArg Host.Outcome.next ((if_neg hon).trans (hostError_eq_hostErrorSet s))
  case cause => exact congrArg (fun u => Host.Outcome.next { s with host := u }) (clearCause_eq s.host _)
  case mask =>
    exact congrArg (fun u => Host.Outcome.next { s with host := u }) (setInterrupts_eq_withInterrupts s.host _ _)

/-! ## CQ_HEADn (R163) -/

section
variable {c : CompletionQueue} {v : Nat}

theorem ringDistance_add_mod {a k size : Nat} (ha : a < size) (hk : k < size) :
    ringDistance a ((a + k) % size) size = k := by
  unfold ringDistance
  by_cases hwrap : a + k < size
  · rw [Nat.mod_eq_of_lt hwrap]
    split <;> omega
  · rw [Nat.mod_eq_sub_mod (by omega), Nat.mod_eq_of_lt (by omega)]
    split <;> omega

theorem add_ringDistance_mod {a b size : Nat} (ha : a < size) (hb : b < size) :
    (a + ringDistance a b size) % size = b := by
  unfold ringDistance
  split
  next hle => rw [show a + (b - a) = b by omega, Nat.mod_eq_of_lt hb]
  next hlt => rw [show a + (b + size - a) = b + size by omega, Nat.add_mod_right, Nat.mod_eq_of_lt hb]

/-- The posted region is what lies up to `posted` entries forward from the head. -/
theorem inPosted_iff (hhead : c.head < c.size) (hposted : c.posted < c.size) :
    c.inPosted v = true ↔ ∃ k ≤ c.posted, v = (c.head + k) % c.size := by
  unfold CompletionQueue.inPosted
  rw [decide_eq_true_iff]
  constructor
  · rintro ⟨hv, hdistance⟩
    exact ⟨_, hdistance, (add_ringDistance_mod hhead hv).symm⟩
  · rintro ⟨k, hk, rfl⟩
    exact ⟨Nat.mod_lt _ (by omega), by rwa [ringDistance_add_mod hhead (by omega)]⟩

end

theorem writeHead_refused {s : State} {m v : Nat} (hrun : s.host.state = .running)
    (hrefused : ¬((s.host.cq m).active = true ∧ (s.host.cq m).inPosted v = true)) :
    s.writeHead m v = hostErrorSet s := by
  rw [← hostError_eq_hostErrorSet]
  exact (if_neg (not_not_intro hrun)).trans (if_neg hrefused)

/-- Settles O10: a head in the posted region releases the entries up to it, any other one is refused. -/
theorem headWritesReleaseEntries : Obligations.HeadWritesReleaseEntries := by
  refine fun s m v => ⟨fun hstill => ?ignored, fun hrun hinactive => ?inactive, fun hrun hactive hhead hposted =>
    ⟨fun k hk hv => ?released, fun hnone => ?refused⟩⟩
  case ignored => exact congrArg Host.Outcome.next (if_pos hstill)
  case inactive =>
    exact congrArg Host.Outcome.next (writeHead_refused hrun fun h => Bool.false_ne_true (hinactive.symm.trans h.1))
  case released =>
    have hin : (s.host.cq m).inPosted (v.toNat % 65536) = true := (inPosted_iff hhead hposted).mpr ⟨k, hk, hv⟩
    have hdistance : ringDistance (s.host.cq m).head (v.toNat % 65536) (s.host.cq m).size = k := by
      rw [hv, ringDistance_add_mod hhead (by omega)]
    have hwrite : s.writeHead m (v.toNat % 65536) = _ := (if_neg (not_not_intro hrun)).trans (if_pos ⟨hactive, hin⟩)
    rw [hdistance] at hwrite
    exact congrArg Host.Outcome.next hwrite
  case refused =>
    refine congrArg Host.Outcome.next (writeHead_refused hrun fun h => ?_)
    obtain ⟨k, hk, hv⟩ := (inPosted_iff hhead hposted).mp h.2
    exact hnone k hk hv

/-! ## Events and record writes (R167, R170, R171) -/

theorem eventCode_eq (k : EventKind) : eventCode k = k.code := by cases k <;> rfl

theorem leBytes_toNat_four (x : Word32) :
    leBytes x.toNat 4 =
      [x.setWidth 8, (x >>> 8).setWidth 8, (x >>> 16).setWidth 8, (x >>> 24).setWidth 8] := by
  simp [Playbacks.leBytes_four, ← BitVec.ofNat_toNat, Nat.shiftRight_eq_div_pow]

/-- The bytes of an event record, one by one (11.2). -/
theorem eventRecord_eq (e : EventEntry) (sequence : Nat) :
    eventRecord e sequence =
      [2, BitVec.ofNat 8 (eventCode e.kind), BitVec.ofNat 8 e.object, 0, e.frame.setWidth 8,
        (e.frame >>> 8).setWidth 8, (e.frame >>> 16).setWidth 8, (e.frame >>> 24).setWidth 8,
        e.detail.setWidth 8, (e.detail >>> 8).setWidth 8, (e.detail >>> 16).setWidth 8,
        (e.detail >>> 24).setWidth 8, 0, 0, BitVec.ofNat 8 sequence, BitVec.ofNat 8 (sequence / 2 ^ 8)] := by
  rw [eventRecord, leBytes_toNat_four, leBytes_toNat_four, Playbacks.leBytes_two, Playbacks.byteOf_zero,
    Playbacks.byteOf_zero, eventCode_eq]
  rfl

theorem hasRoom_iff (c : CompletionQueue) : c.hasRoom = true ↔ c.posted + c.reserved < c.size - 1 := by
  rw [CompletionQueue.hasRoom, decide_eq_true_iff]
  omega

section
variable {s : State} {e : EventEntry} {rest : List EventEntry}

theorem postEvent_room (hevents : s.host.events = e :: rest) (hrun : s.host.state = .running)
    (hroom : (s.host.cq s.host.eventQueue).hasRoom = true) :
    s.postEvent =
      { s with
        host := { s.host.postRecord s.host.eventQueue false
            (eventRecord e (s.host.cq s.host.eventQueue).nextSequence) with events := rest } } := by
  simp only [State.postEvent, hevents]
  exact if_pos ⟨hrun, hroom⟩

theorem postEvent_waits (hevents : s.host.events = e :: rest)
    (hwaits : ¬(s.host.state = .running ∧ (s.host.cq s.host.eventQueue).hasRoom = true)) : s.postEvent = s := by
  simp only [State.postEvent, hevents]
  exact if_neg hwaits

theorem postEvent_nil (hevents : s.host.events = []) : s.postEvent = s := by
  simp only [State.postEvent, hevents]

end

theorem awaits_iff (u : HostUnit) (m : Nat) : u.awaits m = true ↔ ∃ w ∈ u.writes, w.queue = m := by
  simp [HostUnit.awaits]

theorem causeOfQueue_eq (m : Fin 4) : causeOfQueue m = 1#6 <<< m.val := by
  revert m; decide

/-- Settles O39: an event is posted as `postRecord` does it, and the first write of the queue's own leaves the list. -/
theorem eventsArePostedAndWritesAccepted : Obligations.EventsArePostedAndWritesAccepted := by
  refine ⟨fun s e rest c hevents hc => ⟨fun hrun hroom htail => ?posted, fun hwaits => ?waits⟩,
    fun s hevents => ?nothing, fun s m => ⟨fun before w after hwrites hw hbefore => ?answered, fun hnone => ?none⟩⟩
  case posted =>
    subst hc
    refine congrArg Host.Outcome.next ((postEvent_room hevents hrun ((hasRoom_iff _).mpr hroom)).trans ?_)
    rw [eventRecord_eq, HostUnit.postRecord, CompletionQueue.afterPost, Playbacks.ringNext_eq_mod htail]
    rfl
  case waits =>
    subst hc
    refine congrArg Host.Outcome.next (postEvent_waits hevents fun ⟨hrun, hroom⟩ => ?_)
    have := (hasRoom_iff _).mp hroom
    exact hwaits.elim (fun h => h hrun) (by omega)
  case nothing => exact congrArg Host.Outcome.next (postEvent_nil hevents)
  case answered =>
    have hawaits : s.host.awaits m = true := (awaits_iff _ _).mpr ⟨w, by simp [hwrites], hw⟩
    have herase : s.host.writes.eraseP (fun x => decide (x.queue = m.val)) = before ++ after := by
      rw [hwrites, List.eraseP_append_right _ (by simpa using hbefore), List.eraseP_cons_of_pos (by simpa using hw)]
    refine congrArg Host.Outcome.next ((if_pos hawaits).trans ?_)
    rw [herase, HostUnit.raiseCause, setInterrupts_eq_withInterrupts, causeOfQueue_eq]
    rfl
  case none =>
    refine congrArg Host.Outcome.next (if_neg fun hawaits => ?_)
    obtain ⟨w, hmem, hw⟩ := (awaits_iff _ _).mp hawaits
    exact hnone w hmem hw

end Sys2Proof.Queues
end

section
/-! PROOFS. The queue table: its checks in order, the start of the interface with a table that passes them, and what
halts the interface. -/

namespace Sys2Proof.Queues

open Machine Safety Claims

/-! ## The checks of the table (R160, R178) -/

theorem inactiveCq_iff (bytes : List Byte) (m : Nat) : inactiveCq bytes m = true ↔ ¬activeCq bytes m := by
  simp only [inactiveCq, activeCq, Bool.or_eq_true, decide_eq_true_iff, Bool.not_eq_true',
    Decidable.not_and_iff_not_or_not, Nat.not_le, Bool.not_eq_true]

theorem badRing_iff (base size low entry : Nat) :
    badRing base size low entry = true ↔ size < low ∨ 1024 < size ∨ 2 ^ 64 < base + entry * size :=
  decide_eq_true_iff

theorem misaligned_iff (bytes : List Byte) (n : Nat) : misaligned bytes n = true ↔ checkFails bytes .misaligned n := by
  simp only [misaligned, checkFails, Bool.or_eq_true, Bool.and_eq_true, decide_eq_true_iff]

theorem badSize_iff (bytes : List Byte) (n : Nat) : badSize bytes n = true ↔ checkFails bytes .badSize n := by
  simp only [badSize, checkFails, Bool.or_eq_true, Bool.and_eq_true, badRing_iff]

theorem unbound_iff (bytes : List Byte) (n : Nat) : unbound bytes n = true ↔ checkFails bytes .sqUnbound n := by
  simp only [unbound, checkFails, Bool.and_eq_true, inactiveCq_iff]

theorem inactiveEventCq_iff (bytes : List Byte) :
    inactiveCq bytes (tableEventCq bytes) = true ↔ checkFails bytes .eventCq 0 := by
  simp only [checkFails, inactiveCq_iff, true_and]

section
variable {p : Nat → Bool} {n : Nat}

theorem lowestQueue_eq_some (hn : n < 4) (hp : p n = true) (hlow : ∀ j < n, ¬p j = true) : lowestQueue p = some n := by
  rw [lowestQueue, List.find?_range_eq_some]
  exact ⟨hp, List.mem_range.mpr hn, fun j hj => by simpa using hlow j hj⟩

theorem lowestQueue_eq_none (h : ∀ j < 4, ¬p j = true) : lowestQueue p = none :=
  List.find?_eq_none.mpr fun j hj => h j (List.mem_range.mp hj)

end

section
variable {address : Nat} {bytes : List Byte}

theorem tableFault_of_passes (h : tablePasses address bytes) : tableFault address bytes = none := by
  obtain ⟨haligned, hchecks⟩ := h
  simp only [List.forall_mem_cons] at hchecks
  obtain ⟨hmis, hsize, hbound, hevent, -⟩ := hchecks
  simp only [← misaligned_iff] at hmis
  simp only [← badSize_iff] at hsize
  simp only [← unbound_iff] at hbound
  have hcq : ¬inactiveCq bytes (tableEventCq bytes) = true :=
    fun h => hevent 0 (by decide) ((inactiveEventCq_iff _).mp h)
  simp only [tableFault, haligned, lowestQueue_eq_none hmis, lowestQueue_eq_none hsize, lowestQueue_eq_none hbound]
  exact if_neg hcq

theorem tableFault_of_halts {code : HaltCode} {n : Nat} (h : tableHalts address bytes code n) :
    tableFault address bytes = some (code, n) := by
  rcases h with ⟨haddress, rfl, rfl⟩ | ⟨haligned, hn, hfails, hlow, hearlier⟩
  · exact if_pos haddress
  have hgo : ∀ {x : Option (HaltCode × Nat)}, (if address % 64 ≠ 0 then some (.misaligned, 0) else x) = x :=
    if_neg (not_not_intro haligned)
  rw [tableFault, hgo]
  cases code with
  | none | tableRead | cqWrite => exact hfails.elim
  | misaligned =>
    simp only [← misaligned_iff] at hfails hlow
    rw [lowestQueue_eq_some hn hfails hlow]
  | badSize =>
    simp only [earlierChecks, List.forall_mem_cons, ← misaligned_iff] at hearlier
    simp only [← badSize_iff] at hfails hlow
    rw [lowestQueue_eq_none hearlier.1, lowestQueue_eq_some hn hfails hlow]
  | sqUnbound =>
    simp only [earlierChecks, List.forall_mem_cons, ← misaligned_iff, ← badSize_iff] at hearlier
    obtain ⟨hmis, hsize, -⟩ := hearlier
    simp only [← unbound_iff] at hfails hlow
    rw [lowestQueue_eq_none hmis, lowestQueue_eq_none hsize, lowestQueue_eq_some hn hfails hlow]
  | eventCq =>
    simp only [earlierChecks, List.forall_mem_cons, ← misaligned_iff, ← badSize_iff, ← unbound_iff] at hearlier
    obtain ⟨hmis, hsize, hbound, -⟩ := hearlier
    obtain rfl : n = 0 := hfails.1
    rw [lowestQueue_eq_none hmis, lowestQueue_eq_none hsize, lowestQueue_eq_none hbound]
    exact if_pos ((inactiveEventCq_iff bytes).mpr hfails)

end

/-! ## The start (R160) -/

/-- Records written one after the other, the numbers rising from 0. -/
theorem get_foldl_set {α : Type} [DecidableEq α] (d : α) (g : Nat → α) (t : Table α) (k n : Nat) :
    ((List.range k).foldl (fun acc j => acc.set d j (g j)) t).get d n = if n < k then g n else t.get d n := by
  induction k with
  | zero => rfl
  | succ k ih =>
    rw [List.range_succ, List.foldl_append, List.foldl_cons, List.foldl_nil, Table.get_set, ih]
    by_cases hn : n = k
    · simp [hn]
    · simp only [if_neg hn, show n < k + 1 ↔ n < k by omega]

theorem foldl_setSq (g : Nat → SubmissionQueue) (l : List Nat) (u : HostUnit) :
    l.foldl (fun acc j => acc.setSq j (g j)) u =
      { u with submission := l.foldl (fun acc j => acc.set SubmissionQueue.inactive j (g j)) u.submission } := by
  induction l generalizing u with
  | nil => rfl
  | cons j l ih => exact ih (u.setSq j (g j))

theorem foldl_setCq (g : Nat → CompletionQueue) (l : List Nat) (u : HostUnit) :
    l.foldl (fun acc j => acc.setCq j (g j)) u =
      { u with completion := l.foldl (fun acc j => acc.set CompletionQueue.inactive j (g j)) u.completion } := by
  induction l generalizing u with
  | nil => rfl
  | cons j l ih => exact ih (u.setCq j (g j))

/-- The unit with its copy of the table. -/
theorem start_eq (u : HostUnit) (bytes : List Byte) :
    u.start bytes =
      { u with
        state := .running
        submission := (List.range 4).foldl
          (fun acc n => acc.set SubmissionQueue.inactive n (startedSq (tableSq bytes n))) u.submission
        completion := (List.range 4).foldl
          (fun acc m => acc.set CompletionQueue.inactive m (startedCq (tableCq bytes m))) u.completion
        eventQueue := tableEventCq bytes } := by
  simp only [HostUnit.start, foldl_setSq, foldl_setCq]

/-- Settles O6: the table's checks find no fault, and the two tables of queues are written queue by queue. -/
theorem queueTableAccepted : Obligations.QueueTableAccepted := by
  intro s bytes hstarting hpasses
  have hfault : tableFault s.host.tableAddress bytes = none := tableFault_of_passes hpasses
  refine ⟨s.host.start bytes, congrArg Host.Outcome.next ?next, ?rest, fun n hn => ?source, fun m hm => ?bound⟩
  case next => simp only [State.queueTableAnswered, if_pos hstarting, hfault]
  case rest => rw [start_eq]
  case source =>
    rw [start_eq]
    exact (get_foldl_set _ _ _ _ _).trans (if_pos hn)
  case bound =>
    rw [start_eq]
    exact (get_foldl_set _ _ _ _ _).trans (if_pos hm)

/-! ## Entry into HALTED (R33, R83, R99, R118, R129, R140, R157, R161, R174) -/

theorem abandonLoads_nextLoad (l : List Load) (s : State) :
    (l.foldl State.abandonLoad s).store.nextLoad = s.store.nextLoad := by
  induction l generalizing s with
  | nil => rfl
  | cons x l ih =>
    rw [List.foldl_cons, ih]
    cases hx : x.target with
    | scene i => rw [abandonLoad_scene s x i hx]; rfl
    | band b => rw [abandonLoad_band s x b hx]

theorem hostInterfaceReset_nextLoad (s : State) : s.hostInterfaceReset.store.nextLoad = s.store.nextLoad :=
  abandonLoads_nextLoad s.store.loads s

/-- A host interface reset, as the other blocks see it. -/
theorem hostInterfaceReset_blocks {s : State} (hc : canonical s) : blocksReset s s.hostInterfaceReset := by
  obtain ⟨-, hscenes, -, hplaybacks, -⟩ := hc
  have hnext := hostInterfaceReset_nextLoad s
  obtain ⟨t, ht, heq⟩ := hostInterfaceReset_eq s
  rw [heq] at hnext ⊢
  exact ⟨ht.arbiter, ht.engine, ht.pending, rfl, hnext, ht.scene, ht.blocks hscenes, ht.notices, ht.band, rfl,
    playback_dropOwed _ hplaybacks, rfl, rfl, rfl, rfl, rfl, rfl⟩

theorem hostInterfaceReset_host (s : State) : s.hostInterfaceReset.host = s.host.interfaceReset := by
  obtain ⟨t, -, heq⟩ := hostInterfaceReset_eq s
  rw [heq]

/-- What a state has in its other blocks does not depend on what it has in the Host Queue Unit. -/
theorem blocksReset_host {s t : State} (h : blocksReset s t) (u : HostUnit) : blocksReset s { t with host := u } := h

theorem halt_halts {s : State} (hc : canonical s) (code : HaltCode) (queue : Nat) :
    halts s (s.halt code queue) code queue := by
  rw [State.halt_eq]
  refine ⟨blocksReset_host (hostInterfaceReset_blocks hc) _, ?_⟩
  rw [hostInterfaceReset_host]
  exact ⟨⟨fun _ => rfl, fun _ => rfl, rfl, rfl, rfl, rfl, rfl, rfl, rfl, rfl⟩, rfl, rfl, rfl, rfl,
    show 0#6 ||| causeHalted = 0b010000#6 by decide⟩

/-- Settles O7: each of the halting answers is `State.halt` with its code and queue. -/
theorem haltsFollowFailedChecksAndWrites : Obligations.HaltsFollowFailedChecksAndWrites := by
  refine fun s hc => ⟨fun hstarting => ⟨⟨_, congrArg Host.Outcome.next (if_pos hstarting), halt_halts hc _ _⟩,
    fun bytes code n hhalts => ⟨_, congrArg Host.Outcome.next ?table, halt_halts hc code n⟩⟩,
    fun hother answer => congrArg Host.Outcome.next (if_neg hother),
    fun q => ⟨fun ⟨hrun, hout⟩ => ⟨_, congrArg Host.Outcome.next ?failed, halt_halts hc _ _⟩,
      fun hquiet => congrArg Host.Outcome.next (if_neg ?quiet)⟩⟩
  case table =>
    have hfault : tableFault s.host.tableAddress bytes = some (code, n) := tableFault_of_halts hhalts
    simp only [State.queueTableAnswered, if_pos hstarting, hfault]
  case failed => exact if_pos ⟨hrun, (awaits_iff _ _).mpr hout⟩
  case quiet =>
    rintro ⟨hrun, hawaits⟩
    obtain ⟨w, hmem, hw⟩ := (awaits_iff _ _).mp hawaits
    exact hquiet.elim (fun h => h hrun) (fun h => h w hmem hw)

end Sys2Proof.Queues
end

section
/-! PROOFS. The format checks of a record, in order, and the records that fail them. -/

namespace Sys2Proof.Queues

open Machine Safety Claims

/-! ## Kinds (11.1, R120, R176) -/

theorem ofCode_code (k : Kind) : Kind.ofCode k.code = some k := by cases k <;> rfl

theorem kindCodes_eq : kindCodes = Kind.all.map Kind.code := rfl

theorem ofCode_eq_none {c : Byte} (h : c ∉ kindCodes) : Kind.ofCode c = none := by
  rw [kindCodes_eq, List.mem_map] at h
  exact List.find?_eq_none.mpr fun k hk hc => h ⟨k, hk, of_decide_eq_true hc⟩

theorem groupable_iff (k : Kind) : k.groupable = true ↔ mayCarryGroup k := by
  unfold mayCarryGroup
  cases k <;> decide

/-! ## Reserved bytes (R165, R176) -/

theorem assigns_iff (k : Kind) {o : Nat} (ho : o < 64) : k.assigns o = true ↔ o ∈ parameterBytes k := by
  have h : ∀ o < 64, k.assigns o = true ↔ o ∈ parameterBytes k := by cases k <;> decide
  exact h o ho

theorem byteOf_eq_zero_iff (v i : Nat) : byteOf v i = 0#8 ↔ v / 256 ^ i % 256 = 0 := by
  rw [byteOf, ← BitVec.toNat_inj, BitVec.toNat_ofNat]
  rfl

theorem reservedOffends_iff (k : Kind) (b : RecordBody) {o : Nat} (ho : o < 64) :
    reservedOffends k { kind := k.code, body := b } o = true ↔ reservedSet k b o := by
  have hword : b.reserved6.toNat / 256 < 256 := by have := b.reserved6.isLt; omega
  unfold reservedOffends reservedSet
  by_cases hflags : o = 1
  · subst hflags
    simp
  rw [if_neg hflags]
  by_cases hhead : o = 3 ∨ o = 6 ∨ o = 7
  · rw [if_pos hhead, decide_eq_true_iff]
    obtain rfl | rfl | rfl := hhead
    · simp [byteAt]
    · simp [byteAt, byteOf_eq_zero_iff]
    · simp [byteAt, byteOf_eq_zero_iff, Nat.mod_eq_of_lt hword]
  rw [if_neg hhead]
  by_cases hparam : 8 ≤ o
  · obtain ⟨n, rfl⟩ := Nat.exists_eq_add_of_le' hparam
    simp [byteAt, ← assigns_iff k ho, ho]
  · obtain ⟨h3, h6, h7⟩ : o ≠ 3 ∧ o ≠ 6 ∧ o ≠ 7 := by omega
    simp [hflags, hparam, h3, h6, h7]

/-- The lowest byte that offends is the one that the second check reports. -/
theorem lowestReserved_eq_some {k : Kind} {b : RecordBody} {o : Nat} (hset : reservedSet k b o)
    (hlow : ∀ j < o, ¬reservedSet k b j) : lowestReserved k { kind := k.code, body := b } = some o := by
  have ho : o < 64 := by unfold reservedSet at hset; omega
  rw [lowestReserved, List.find?_range_eq_some]
  refine ⟨(reservedOffends_iff k b ho).mpr hset, List.mem_range.mpr ho, fun j hj => ?_⟩
  rw [Bool.not_eq_true', Bool.eq_false_iff]
  exact fun h => hlow j hj ((reservedOffends_iff k b (by omega)).mp h)

theorem lowestReserved_eq_none {k : Kind} {b : RecordBody} (hnone : ∀ o, ¬reservedSet k b o) :
    lowestReserved k { kind := k.code, body := b } = none :=
  List.find?_eq_none.mpr fun o ho h => hnone o ((reservedOffends_iff k b (List.mem_range.mp ho)).mp h)

/-! ## Parameters (R165, R177) -/

/-- The checks ask for the conditions: they stand at the same rising offsets, and each asks for its condition wherever
the conditions before it hold. -/
def AskFor : List (Nat × Prop) → List (Nat × Bool) → Prop
  | [], [] => True
  | p :: l, c :: checks => c.1 = p.1 ∧ (c.2 = true ↔ p.2) ∧ (∀ x ∈ l, p.1 < x.1) ∧ (p.2 → AskFor l checks)
  | _, _ => False

theorem firstFailing_eq_some : {l : List (Nat × Prop)} → {checks : List (Nat × Bool)} → AskFor l checks →
    ∀ p ∈ l, ¬p.2 → (∀ x ∈ l, x.1 < p.1 → x.2) → firstFailing checks = some p.1
  | first :: l, c :: checks, ⟨hoffset, hasks, hrising, hlater⟩, p, hp, hfails, hlower => by
    by_cases hfirst : first.2
    · have hmem : p ∈ l := (List.mem_cons.mp hp).resolve_left fun h => hfails (h ▸ hfirst)
      rw [firstFailing, List.find?_cons_of_neg (by simpa using hasks.mpr hfirst)]
      exact firstFailing_eq_some (hlater hfirst) p hmem hfails fun x hx => hlower x (List.mem_cons_of_mem _ hx)
    · have hp : p = first := (List.mem_cons.mp hp).resolve_right fun h =>
        hfirst (hlower first List.mem_cons_self (hrising p h))
      rw [firstFailing, List.find?_cons_of_pos (by simpa using mt hasks.mp hfirst), hp]
      exact congrArg some hoffset

theorem firstFailing_eq_none : {l : List (Nat × Prop)} → {checks : List (Nat × Bool)} → AskFor l checks →
    (∀ p ∈ l, p.2) → firstFailing checks = none
  | [], [], _, _ => rfl
  | first :: l, c :: checks, ⟨_, hasks, _, hlater⟩, hall => by
    have hfirst := hall first List.mem_cons_self
    rw [firstFailing, List.find?_cons_of_neg (by simpa using hasks.mpr hfirst)]
    exact firstFailing_eq_none (hlater hfirst) fun p hp => hall p (List.mem_cons_of_mem _ hp)

theorem curveOf_isSome : (n : Nat) → ((curveOf n).isSome = true ↔ n ≤ 4)
  | 0 | 1 | 2 | 3 | 4 => by decide
  | n + 5 => by simp [curveOf]

theorem triggerOf_isSome : (n : Nat) → ((triggerOf n).isSome = true ↔ n ≤ 2)
  | 0 | 1 | 2 => by decide
  | n + 3 => by simp [triggerOf]

theorem rateOf_isSome : (n : Nat) → ((rateOf n).isSome = true ↔ n ≤ 3)
  | 0 | 1 | 2 | 3 => by decide
  | n + 4 => by simp [rateOf]

theorem switchOf_isSome : (n : Nat) → ((switchOf n).isSome = true ↔ n ≤ 1)
  | 0 | 1 => by decide
  | n + 2 => by simp [switchOf]

theorem modeOf_isSome : (n : Nat) → ((modeOf n).isSome = true ↔ n ≤ 1)
  | 0 | 1 => by decide
  | n + 2 => by simp [modeOf]

theorem policyOf_isSome : (n : Nat) → ((policyOf n).isSome = true ↔ n ≤ 1)
  | 0 | 1 => by decide
  | n + 2 => by simp [policyOf]

theorem addressOk_iff (address align bytes : Nat) :
    addressOk address align bytes = true ↔ address % align = 0 ∧ address + bytes ≤ 2 ^ 64 := decide_eq_true_iff

/-- The sum of a channel run, asked at its first channel. -/
theorem channelRunSum_iff (first count : Nat) :
    first < 4096 ∧ (count < 1 ∨ 4096 < count ∨ first + count ≤ 4096) ↔
      first ≤ 4095 ∧ (1 ≤ count → count ≤ 4096 → first + count ≤ 4096) := by
  omega

/-- Most checks spell their condition; the others are sums and areas, asked of terms that are in range. -/
theorem paramChecks_askFor (components : Nat → Nat) (k : Kind) (b : RecordBody) :
    AskFor (limits components k b) (paramChecks components k b) := by
  cases k <;> simp only [limits, paramChecks, channelRun, channelRunChecks, channelRunSum_iff, AskFor, List.cons_append,
    List.nil_append, List.forall_mem_cons, List.not_mem_nil, curveOf_isSome, triggerOf_isSome, rateOf_isSome,
    switchOf_isSome, modeOf_isSome, policyOf_isSome, addressOk_iff, decide_eq_true_iff, true_and, and_true,
    false_implies, implies_true, Nat.reduceLT]
  case loadScene =>
    intro hcount
    rw [if_pos hcount.2]
  case runCue => exact fun _ => Nat.pos_iff_ne_zero.symm
  case loadBand =>
    refine fun _ hport _ => ⟨by omega, fun hsum hroll htail _ _ => ?_⟩
    rw [if_pos ⟨(hsum.2 hroll htail).2, hport⟩, colourSize]
  case setRoll => exact fun _ _ _ _ => Decidable.imp_iff_not_or.symm
  case readLevels =>
    intro _ hcount
    rw [if_pos hcount.2]
  case configPort =>
    intro _ _
    refine and_congr Nat.lt_succ_iff ?_
    rw [Decidable.imp_iff_not_or, Decidable.imp_iff_not_or, not_or, Nat.not_le]

/-! ## The checks together (R165) -/

section
variable {components : Nat → Nat} {k : Kind} {b : RecordBody}

theorem formatCheck_code : formatCheck components { kind := k.code, body := b } =
    checkKind components k { kind := k.code, body := b } := by
  simp only [formatCheck, ofCode_code]

theorem formatCheck_reserved {o : Nat} (hset : reservedSet k b o) (hlow : ∀ j < o, ¬reservedSet k b j) :
    formatCheck components { kind := k.code, body := b } = .badField o := by
  simp only [formatCheck_code, checkKind, lowestReserved_eq_some hset hlow]

theorem formatCheck_report (hclear : ∀ o, ¬reservedSet k b o) (hreport : reportFlag b = true ∧ k ≠ .runCue) :
    formatCheck components { kind := k.code, body := b } = .badField 1 := by
  simp only [formatCheck_code, checkKind, lowestReserved_eq_none hclear]
  exact if_pos hreport

theorem formatCheck_group (hclear : ∀ o, ¬reservedSet k b o) (hreport : reportFlag b = true → k = .runCue)
    (hgroup : 15 < b.group.toNat ∨ (b.group ≠ 0 ∧ ¬mayCarryGroup k)) :
    formatCheck components { kind := k.code, body := b } = .badField 2 := by
  rw [← groupable_iff, Bool.not_eq_true] at hgroup
  simp only [formatCheck_code, checkKind, lowestReserved_eq_none hclear]
  rw [if_neg fun h => h.2 (hreport h.1), if_pos hgroup]

/-- A record that gets past the reserved bytes, REPORT and the group is judged by its parameters. -/
theorem formatCheck_params (hclear : ∀ o, ¬reservedSet k b o) (hreport : reportFlag b = true → k = .runCue)
    (hgroup : b.group.toNat ≤ 15) (hmay : b.group ≠ 0 → mayCarryGroup k) :
    (∀ o, firstFailing (paramChecks components k b) = some o →
      formatCheck components { kind := k.code, body := b } = .badField o) ∧
    (firstFailing (paramChecks components k b) = none →
      formatCheck components { kind := k.code, body := b } = .passed (requestOf k b)) := by
  have hnoReport : ¬(reportFlag b = true ∧ k ≠ .runCue) := fun h => h.2 (hreport h.1)
  have hnoGroup : ¬(15 < b.group.toNat ∨ (b.group ≠ 0 ∧ k.groupable = false)) := by
    rintro (hlarge | ⟨hset, hnot⟩)
    · omega
    · exact Bool.false_ne_true (hnot.symm.trans ((groupable_iff k).mpr (hmay hset)))
  constructor
  · intro o hfirst
    simp only [formatCheck_code, checkKind, lowestReserved_eq_none hclear, if_neg hnoReport, if_neg hnoGroup, hfirst]
  · intro hfirst
    simp only [formatCheck_code, checkKind, lowestReserved_eq_none hclear, if_neg hnoReport, if_neg hnoGroup, hfirst]

end

/-- Settles O14: each check reports the lowest byte that it refuses, where the checks before it refuse none. -/
theorem formatChecksInOrder : Obligations.FormatChecksInOrder := by
  refine fun components k b => ⟨fun o => formatCheck_reserved, fun hclear => ⟨formatCheck_report hclear,
    fun hreport => ⟨formatCheck_group hclear hreport, fun hgroup hmay => ⟨fun p hp hfails hlower => ?fails,
      fun hall => ?passes⟩⟩⟩⟩
  case fails =>
    exact (formatCheck_params hclear hreport hgroup hmay).1 _
      (firstFailing_eq_some (paramChecks_askFor components k b) p hp hfails hlower)
  case passes =>
    exact (formatCheck_params hclear hreport hgroup hmay).2
      (firstFailing_eq_none (paramChecks_askFor components k b) hall)

/-! ## Records that fail them (R165, R176) -/

/-- A record that is to be taken at once is judged on the state in which its queue has taken it. -/
theorem exec_of_takes {i : Instr} {r : RequestRecord} {s : State} {q : Nat} (hi : i.record = some r)
    (ht : takes s q r.body) : exec i s = .next ((taken s q).checkAndRoute (noted s q r.body) r) := by
  obtain ⟨hfetch, hfence⟩ := ht
  rw [exec_of_record i r s hi, State.recordArrives_taken s r q hfetch hfence]
  rfl

/-- Settles O15: a taken record that fails its checks is completed in place of being routed. -/
theorem refusedRecordsCompleteAtIntake : Obligations.RefusedRecordsCompleteAtIntake := by
  refine fun i r s q hi ht => ⟨fun hkind => ?badKind, fun o hbad => ?badField⟩
  case badKind =>
    have hbad : formatCheck (taken s q).componentsAt r = .badKind := by simp only [formatCheck, ofCode_eq_none hkind]
    rw [exec_of_takes hi ht, State.checkAndRoute_of_check, hbad]
  case badField =>
    change formatCheck (taken s q).componentsAt r = .badField o at hbad
    rw [exec_of_takes hi ht, State.checkAndRoute_of_check, hbad]

end Sys2Proof.Queues
end

section
/-! PROOFS. Grants, fetches and fence waits, with the unit's own two requests. -/

namespace Sys2Proof.Queues

open Machine Safety Claims

/-! ## Grants (R162, R163, R164) -/

theorem condition_ready_iff (u : HostUnit) (q : Nat) :
    u.condition q = .ready ↔
      (u.sq q).fence = none ∧ (u.sq q).head ≠ (u.sq q).tail ∧ (u.cq (u.sq q).boundCq).hasRoom = true := by
  unfold HostUnit.condition
  split
  next hfence => simp [Option.isSome_iff_ne_none.mp hfence]
  next hfence =>
    split
    next hempty => simp [hempty]
    next hempty =>
      split
      next hroom => simpa [hroom, hempty] using hfence
      next hroom => simp [hroom]

theorem mayGrant_iff (s : State) (q : Nat) : s.host.mayGrant q = true ↔ grantable s q := by
  simp only [HostUnit.mayGrant, grantable, Bool.and_eq_true, Bool.not_eq_true', decide_eq_true_iff,
    condition_ready_iff, hasRoom_iff, and_assoc, and_left_comm]

theorem nextGrant_eq_some {s : State} {d : Nat} (hd : d < 4) (hgrant : grantable s ((s.host.lastGranted + 1 + d) % 4))
    (hfirst : ∀ e < d, ¬grantable s ((s.host.lastGranted + 1 + e) % 4)) :
    s.host.nextGrant = some ((s.host.lastGranted + 1 + d) % 4) := by
  have hfind : (List.range 4).find? (s.host.mayGrant ∘ fun i => (s.host.lastGranted + 1 + i) % 4) = some d := by
    rw [List.find?_range_eq_some]
    exact ⟨(mayGrant_iff _ _).mpr hgrant, List.mem_range.mpr hd, fun e he => by
      simpa using mt (mayGrant_iff _ _).mp (hfirst e he)⟩
  rw [HostUnit.nextGrant, List.find?_map, hfind]
  rfl

theorem nextGrant_eq_none {s : State} (hnone : ∀ q < 4, ¬grantable s q) : s.host.nextGrant = none := by
  refine List.find?_eq_none.mpr fun q hq hmay => ?_
  obtain ⟨i, -, rfl⟩ := List.mem_map.mp hq
  exact hnone _ (Nat.mod_lt _ (by decide)) ((mayGrant_iff _ _).mp hmay)

theorem intakeGrant_grants {s : State} {q : Nat} (hfetch : s.host.fetch = none) (hnext : s.host.nextGrant = some q) :
    s.intakeGrant = { s with host := s.host.grant q } := by
  simp [State.intakeGrant, hfetch, hnext]

theorem intakeGrant_idle {s : State} (h : s.host.fetch ≠ none ∨ s.host.nextGrant = none) : s.intakeGrant = s := by
  unfold State.intakeGrant
  split
  next => rfl
  next hfetch => simp [h.resolve_left (by simpa using hfetch)]

/-! ## Records given up (R162) -/

/-- The unit after queue `q` has given up its fetch and its fence wait. -/
def withdrawn (u : HostUnit) (q : Nat) : HostUnit := (u.staleFetch q).discardFence q

theorem unfence_eq {x : SubmissionQueue} (h : x.fence = none) : { x with fence := none } = x := by
  rw [← h]

theorem staleFetch_eq (u : HostUnit) (q : Nat) :
    u.staleFetch q = { u with fetch := u.fetch.map fun x => if x.sq = q then { x with stale := true } else x } := by
  have hkept : ∀ {f : Fetch → Fetch}, u.fetch.map f = u.fetch → u = { u with fetch := u.fetch.map f } :=
    fun h => by rw [h]
  unfold HostUnit.staleFetch
  split
  next x hx =>
    split
    next hq => simp [hx, hq]
    next hq => exact hkept (by simp [hx, hq])
  next hnone => exact hkept (by simp [hnone])

theorem cq_returnEntry (u : HostUnit) (q m : Nat) :
    (u.returnEntry q).cq m =
      if m = (u.sq q).boundCq then { u.cq m with reserved := (u.cq m).reserved - 1 } else u.cq m := by
  refine (HostUnit.cq_setCq _ _ _ _).trans ?_
  split
  next hm => rw [hm]
  next => rfl

theorem discardFence_eq (u : HostUnit) (q : Nat) :
    u.discardFence q =
      { u with submission := (u.discardFence q).submission, completion := (u.discardFence q).completion } := by
  unfold HostUnit.discardFence
  split <;> rfl

theorem sq_discardFence (u : HostUnit) (q j : Nat) :
    (u.discardFence q).sq j = if j = q then { u.sq q with fence := none } else u.sq j := by
  unfold HostUnit.discardFence
  split
  next => exact HostUnit.sq_setSq u q { u.sq q with fence := none } j
  next hfence =>
    split
    next hj => rw [hj, unfence_eq (by simpa using hfence)]
    next => rfl

theorem cq_discardFence (u : HostUnit) (q m : Nat) :
    (u.discardFence q).cq m =
      if (u.sq q).fence.isSome = true ∧ m = (u.sq q).boundCq then { u.cq m with reserved := (u.cq m).reserved - 1 }
      else u.cq m := by
  unfold HostUnit.discardFence
  by_cases hfence : (u.sq q).fence.isSome = true
  · simp [hfence, cq_returnEntry]
  · simp [hfence]

theorem withdrawn_eq (u : HostUnit) (q : Nat) :
    withdrawn u q =
      { u with
        submission := (withdrawn u q).submission
        completion := (withdrawn u q).completion
        fetch := (withdrawn u q).fetch } := by
  have h := discardFence_eq (u.staleFetch q) q
  rw [staleFetch_eq] at h
  rw [withdrawn, staleFetch_eq, h]

theorem sq_withdrawn (u : HostUnit) (q j : Nat) :
    (withdrawn u q).sq j = if j = q then { u.sq q with fence := none } else u.sq j := by
  rw [withdrawn, sq_discardFence, staleFetch_eq]
  rfl

theorem withdrawn_recordsDropped (u : HostUnit) (q : Nat) : recordsDropped u (withdrawn u q) q := by
  constructor
  · rw [withdrawn, discardFence_eq, staleFetch_eq]
  · intro m
    rw [withdrawn, cq_discardFence, staleFetch_eq]
    rfl

/-- A queue that becomes FAULTED gives its fetch and its fence wait up, and QUEUE_FAULT is raised (R162, R169). -/
theorem faultQueue_eq (s : State) (q detail : Nat) :
    s.faultQueue q detail =
      { s with
        host := { (withdrawn s.host q).setSq q { (withdrawn s.host q).sq q with state := .faulted } with
          events := joined s.host.events (eventNow s .queueFault q detail) } } := by
  have hevents : (withdrawn s.host q).events = s.host.events := by rw [withdrawn_eq]
  rw [State.faultQueue, State.raiseEvent, Frames.raiseEvent_joined, ← hevents]
  rfl

/-- The faulted unit, field by field. -/
theorem faultQueue_spec (s : State) (q detail : Nat) :
    ∃ u : HostUnit, s.faultQueue q detail = { s with host := u } ∧
      u =
        { s.host with
          submission := u.submission
          completion := u.completion
          fetch := u.fetch
          events := joined s.host.events (eventNow s .queueFault q detail) } ∧
      (∀ j, u.sq j = if j = q then { s.host.sq q with state := .faulted, fence := none } else s.host.sq j) ∧
      recordsDropped s.host u q := by
  refine ⟨_, faultQueue_eq s q detail, ?rest, fun j => ?source, withdrawn_recordsDropped s.host q⟩
  case rest =>
    rw [withdrawn_eq]
    rfl
  case source =>
    refine (HostUnit.sq_setSq _ _ _ _).trans ?_
    rw [sq_withdrawn, sq_withdrawn]
    split <;> simp

/-! ## Fetches that bring no record (R162, R164) -/

theorem exec_stale {s : State} {q : Nat} (hfetch : s.host.fetch = some { sq := q, stale := true }) {c : Instr}
    (hc : c = .staleFetchReturn ∨ c = .fetchReadError ∨ c.record.isSome = true) :
    exec c s = .next { s with host := s.host.dropFetch q } := by
  obtain rfl | rfl | hrecord := hc
  · refine congrArg Host.Outcome.next ?_
    simp [State.staleReturn, hfetch]
  · refine congrArg Host.Outcome.next ?_
    simp [State.fetchError, hfetch]
  · obtain ⟨r, hr⟩ := Option.isSome_iff_exists.mp hrecord
    rw [exec_of_record c r s hr, State.recordArrives_stale s r q hfetch]

/-- Settles O12: the grant goes where `nextGrant` points; a failed fetch faults its queue, a stale one is dropped. -/
theorem grantsAndFetches : Obligations.GrantsAndFetches := by
  refine ⟨fun s => ⟨fun hfetch d hd hgrant hfirst => ?grants, fun hidle => ?idle⟩,
    fun s q => ⟨fun hfetch hfence => ?error, fun hstale c hc => exec_stale hstale hc⟩⟩
  case grants => exact congrArg Host.Outcome.next (intakeGrant_grants hfetch (nextGrant_eq_some hd hgrant hfirst))
  case idle => exact congrArg Host.Outcome.next (intakeGrant_idle (hidle.imp_right nextGrant_eq_none))
  case error =>
    have herror : s.fetchError = State.faultQueue { s with host := s.host.dropFetch q } q 1 := by
      simp [State.fetchError, hfetch, readErrorDetail]
    obtain ⟨u, heq, hrest, hsq, hdropped⟩ := faultQueue_spec { s with host := s.host.dropFetch q } q 1
    obtain ⟨hfetch', hcq⟩ := hdropped
    have hfence' : ((s.host.dropFetch q).sq q).fence = none := hfence
    refine ⟨u, congrArg Host.Outcome.next (herror.trans heq), ?rest, fun j => ?source, fun m => ?bound⟩
    case rest =>
      rw [hfetch'] at hrest
      exact hrest
    case source =>
      rw [hsq j]
      exact congrArg (fun x => if j = q then x else s.host.sq j)
        (unfence_eq (x := { s.host.sq q with state := .faulted }) hfence)
    case bound =>
      rw [hcq m, if_neg fun h => by simp [hfence'] at h]
      exact cq_returnEntry s.host q m

/-! ## Fence waits (R166) -/

theorem takeFenced_of_due {s : State} {q : Nat} (hdue : fenceDue s q) :
    ∃ w, (s.host.sq q).fence = some w ∧ s.takeFenced q = s.takeRecord q w.record := by
  obtain ⟨⟨w, hw, hcount⟩, hrun, hfetch, hpause⟩ := hdue
  refine ⟨w, hw, ?_⟩
  simp only [State.takeFenced, hw]
  exact if_pos ⟨hrun, hcount, hfetch, hpause⟩

theorem takeFenced_of_not_due {s : State} {q : Nat} (hdue : ¬fenceDue s q) : s.takeFenced q = s := by
  unfold State.takeFenced
  split
  · rfl
  next w hw => exact if_neg fun ⟨hrun, hcount, hfetch, hpause⟩ => hdue ⟨⟨w, hw, hcount⟩, hrun, hfetch, hpause⟩

/-- Settles O13: a fenced record is held while completions are outstanding; when it is taken from there, what follows is
what follows its arrival. -/
theorem fencesHoldAndReleaseRecords : Obligations.FencesHoldAndReleaseRecords := by
  refine ⟨fun i r s q hi hfetch hfence hout => ?held, fun s q w hw =>
    ⟨fun hcount hout hrun hfetch hpause i hi => ?released, fun hwaits => ?waits⟩⟩
  case held =>
    rw [exec_of_record i r s hi, State.recordArrives_fenced s r q hfetch hfence hout]
    rfl
  case released =>
    obtain ⟨w', hw', htake⟩ := takeFenced_of_due ⟨⟨w, hw, hcount⟩, hrun, hfetch, hpause⟩
    obtain rfl : w' = w := Option.some.inj (hw'.symm.trans hw)
    have hsame : { s with host := { s.host with fetch := none } } = s := by rw [← hfetch]
    have harrives := State.recordArrives_taken
      { s with host := { s.host with fetch := some { sq := q, stale := false } } } w'.record q rfl fun _ => hout
    refine ⟨_, congrArg Host.Outcome.next htake, (exec_of_record i _ _ hi).trans (congrArg Host.Outcome.next ?_)⟩
    exact harrives.trans (congrArg (fun t => State.takeRecord t q w'.record) hsame)
  case waits =>
    refine congrArg Host.Outcome.next (takeFenced_of_not_due ?_)
    rintro ⟨⟨w', hw', hcount⟩, -, hfetch, hpause⟩
    obtain rfl : w' = w := Option.some.inj (hw'.symm.trans hw)
    obtain h | h | h := hwaits
    · exact h hcount
    · exact h hfetch
    · exact Bool.false_ne_true (hpause.symm.trans h)

/-! ## NOP and RESTART_QUEUE (R172, R173) -/

theorem ringDistance_eq_mod {a b size : Nat} (ha : a < size) (hb : b < size) :
    ringDistance a b size = (b + size - a) % size := by
  unfold ringDistance
  split
  next hle => rw [show b + size - a = b - a + size by omega, Nat.add_mod_right, Nat.mod_eq_of_lt (by omega)]
  next hlt => rw [Nat.mod_eq_of_lt (by omega)]

/-- Settles O17: the two records are routed to the unit itself; a fenced NOP waits like any fenced record. -/
theorem nopAndRestartQueueAnswer : Obligations.NopAndRestartQueueAnswer := by
  refine ⟨fun s q b => ⟨fun ht hp => ?nop, fun hfetch hfence hout => ?waits⟩, fun s q b ht hp =>
    ⟨fun hfaulted hhead htail => ?restarts, fun hnot => ?busy⟩⟩
  case nop => exact Playbacks.exec_of_passes (k := .nop) rfl ht hp
  case waits =>
    refine ⟨_, fencesHoldAndReleaseRecords.1 _ _ s q rfl hfetch hfence hout, rfl, ?_⟩
    simp [HostUnit.sq]
  case restarts =>
    have hroute : exec (.restartQueue b) s = .next ((taken s q).takeRestartQueue (noted s q b) (field b 8 1)) :=
      Playbacks.exec_of_passes (k := .restartQueue) rfl ht hp
    rw [hroute, ← ringDistance_eq_mod hhead htail]
    exact congrArg Host.Outcome.next (if_pos hfaulted)
  case busy =>
    have hroute : exec (.restartQueue b) s = .next ((taken s q).takeRestartQueue (noted s q b) (field b 8 1)) :=
      Playbacks.exec_of_passes (k := .restartQueue) rfl ht hp
    rw [hroute]
    exact congrArg Host.Outcome.next (if_neg hnot)

end Sys2Proof.Queues
end

section
/-! PROOFS. The submission queues' tails: no request that is routed leaves a fence wait where there was none, so that a
tail write finds at most one to be taken; and what the write then does. -/

namespace Sys2Proof.Queues

open Machine Safety Claims

/-! ## No routed request brings a fence wait (R165, R166) -/

/-- Queue `q` has no fence wait. -/
def Unfenced (q : Nat) (s : State) : Prop := (s.host.sq q).fence = none

namespace Unfenced

variable {q : Nat} {s : State}

theorem finish (h : Unfenced q s) (o : Owed) (status : Status) (detail : Nat) :
    Unfenced q (s.finish o status detail) := by
  change ((s.host.complete o status detail).sq q).fence = none
  rw [HostUnit.sq_complete]
  split
  · simp [SubmissionQueue.afterCompletion, show (s.host.sq q).fence = none from h]
  · exact h

theorem finishNow (h : Unfenced q s) (c : Ctx) (status : Status) (detail : Nat) :
    Unfenced q (s.finishNow c status detail) := h.finish _ _ _

theorem finishSequence (h : Unfenced q s) (o : Option Owed) (status : Status) (detail : Nat) :
    Unfenced q (s.finishSequence o status detail) := by
  cases o with
  | none => exact h
  | some owed => exact h.finish owed status detail

theorem cancelHeld (h : Unfenced q s) (held : List HeldRequest) : Unfenced q (s.cancelHeld held) :=
  List.foldlRecOn held _ h fun _ ht x _ => ht.finishNow x.ctx .cancelled 0

/-! ### The supply's sequences (R147, R149, R152, R153) -/

theorem becomeDown (h : Unfenced q s) : Unfenced q s.becomeDown :=
  finishSequence (by exact h) _ _ _

theorem fallOn : (turns : Nat) → {s : State} → Unfenced q s → Unfenced q (State.fallOn turns s)
  | 0, _, h => h
  | turns + 1, s, h => by
    unfold State.fallOn
    split
    · split
      · exact fallOn turns (by exact h)
      · exact h.becomeDown
    · exact h

theorem beginFall (h : Unfenced q s) : Unfenced q s.beginFall := by
  unfold State.beginFall
  split
  · exact h.becomeDown
  · split
    · exact fallOn 9 (by exact h)
    · exact fallOn 9 (by exact h)

theorem endRise (h : Unfenced q s) : Unfenced q s.endRise :=
  finishSequence (by exact h) _ _ _

theorem riseOn : (turns : Nat) → {s : State} → Unfenced q s → Unfenced q (State.riseOn turns s)
  | 0, _, h => h
  | turns + 1, s, h => by
    unfold State.riseOn
    split
    · split
      · exact riseOn turns (by exact h)
      · exact h.endRise
    · exact h

theorem beginRise (h : Unfenced q s) (c : Ctx) : Unfenced q (s.beginRise c) := by
  unfold State.beginRise
  dsimp only
  split
  · exact finishNow (by exact h) _ _ _
  · split
    · exact riseOn 9 (by exact h)
    · exact h

theorem takePowerUp (h : Unfenced q s) (c : Ctx) : Unfenced q (s.takePowerUp c) := by
  unfold State.takePowerUp
  split
  · exact h.finishNow _ _ _
  · split
    · exact h.finishNow _ _ _
    · exact h.beginRise c

theorem takePowerDown (h : Unfenced q s) (c : Ctx) : Unfenced q (s.takePowerDown c) := by
  unfold State.takePowerDown
  split
  · exact h.finishNow _ _ _
  · exact h.finishNow _ _ _
  · have haborted : Unfenced q
        (State.finishSequence { s with supply := { s.supply with rise := none, riseSet := [] } } s.supply.rise .aborted
          s.supply.faultMask) := finishSequence (by exact h) _ _ _
    exact beginFall (by exact haborted)
  · exact beginFall (by exact h)

/-! ### The other owners -/

theorem holdRequest (h : Unfenced q s) (c : Ctx) (g : Nat) (r : GroupRequest) : Unfenced q (s.holdRequest c g r) := by
  unfold State.holdRequest
  split
  · exact h.finishNow _ _ _
  · exact h

theorem takeGroupable (h : Unfenced q s) (c : Ctx) (r : GroupRequest) : Unfenced q (s.takeGroupable c r) := by
  cases r <;> exact h

theorem takeRestartQueue (h : Unfenced q s) (c : Ctx) (n : Nat) : Unfenced q (s.takeRestartQueue c n) := by
  unfold State.takeRestartQueue
  dsimp only
  split
  · refine finishNow ?_ _ _ _
    change ((s.host.setSq n _).sq q).fence = none
    rw [HostUnit.sq_setSq]
    split
    next hq => exact hq ▸ h
    next => exact h
  · exact h.finishNow _ _ _

theorem takeDeleteScene (h : Unfenced q s) (c : Ctx) (i : Nat) : Unfenced q (s.takeDeleteScene c i) := by
  unfold State.takeDeleteScene
  dsimp only
  split
  · exact h.finishNow _ _ _
  · exact h.finishNow _ _ _
  · split
    · exact h.finishNow _ _ _
    · exact finishNow (by exact h) _ _ _

theorem takeRunCue (h : Unfenced q s) (c : Ctx) (r : CueRequest) : Unfenced q (s.takeRunCue c r) := by
  unfold State.takeRunCue
  dsimp only
  split
  · exact h.finishNow _ _ _
  · split
    · exact h
    · exact finishNow (by exact h) _ _ _

theorem takeConfigPort (h : Unfenced q s) (c : Ctx) (r : PortRequest) : Unfenced q (s.takeConfigPort c r) := by
  unfold State.takeConfigPort
  split
  · exact h.finishNow _ _ _
  · split
    · exact h.finishNow _ _ _
    · exact h

/-- Whatever the request, its owner answers it, stages it or begins its work, and none of these brings a fence wait. -/
theorem route (h : Unfenced q s) (c : Ctx) (g : Nat) (r : Request) : Unfenced q (s.route c g r) := by
  have done : ∀ st n, Unfenced q (s.finishNow c st n) := h.finishNow c
  have either : ∀ {p : Prop} [Decidable p] {t u : State}, Unfenced q t → Unfenced q u →
      Unfenced q (if p then t else u) := fun ht hu => by split <;> assumption
  cases r with
  | groupable r => exact either (h.takeGroupable c r) (h.holdRequest c g r)
  | nop | queryScene | queryPlayback | queryFeeds => exact done _ _
  | commit => exact h
  | showReset => exact h
  | restartQueue n => exact h.takeRestartQueue c n
  | loadScene i n a =>
    change Unfenced q (State.takeLoadScene _ _ _ _ _)
    unfold State.takeLoadScene
    split
    · exact done _ _
    · exact h
  | deleteScene i => exact h.takeDeleteScene c i
  | configPlayback => exact either (finishNow (by exact h) _ _ _) (done _ _)
  | runCue r => exact h.takeRunCue c r
  | loadBand r =>
    change Unfenced q (State.takeLoadBand _ _ _)
    unfold State.takeLoadBand
    split
    · exact done _ _
    · exact h
  | setFramePeriod => exact either h (done _ _)
  | readLevels => exact either (done _ _) h
  | abortGroup => exact finishNow (cancelHeld (by exact h) _) _ _ _
  | configPort r => exact h.takeConfigPort c r
  | configFeed => exact either (finishNow (by exact h) _ _ _) (done _ _)
  | configSupply => exact either (done _ _) (finishNow (by exact h) _ _ _)
  | powerUp => exact h.takePowerUp c
  | powerDown => exact h.takePowerDown c
  | clearFault => exact either (done _ _) (finishNow (by exact h) _ _ _)

end Unfenced

/-- A queue that takes a record has no fence wait afterwards. -/
theorem takeRecord_unfenced (s : State) (q : Nat) (r : RequestRecord) : Unfenced q (s.takeRecord q r) := by
  have hadvanced : Unfenced q { s with host := s.host.advance q } := by
    change ((s.host.setSq q _).sq q).fence = none
    rw [HostUnit.sq_setSq, if_pos rfl]
  unfold State.takeRecord
  rw [State.checkAndRoute_of_check]
  split
  · exact hadvanced.finishNow _ _ _
  · exact hadvanced.finishNow _ _ _
  · exact hadvanced.route _ _ _

/-! ## SQ_TAILn (R162, R175, R179) -/

section
variable {s : State} {q : Fin 4} {v : Word32}

theorem exec_sqTailWrite_of_not_due (hdue : ¬fenceDue s q) :
    exec (.sqTailWrite q v) s = .next (s.writeTailNow q (v.toNat % 65536)) :=
  congrArg (fun t => Host.Outcome.next (State.writeTailNow t q (v.toNat % 65536))) (takeFenced_of_not_due hdue)

theorem not_fenceDue_of_unfenced {t : State} {n : Nat} (h : Unfenced n t) : ¬fenceDue t n := by
  rintro ⟨⟨w, hw, -⟩, -⟩
  rw [show (t.host.sq n).fence = none from h] at hw
  cases hw

end

/-- What a write of `v` does to an ACTIVE queue, by where `v` lies (R162). -/
theorem writeTailNow_active {s : State} {q v : Nat} (hrun : s.host.state = .running)
    (hactive : (s.host.sq q).state = .active) :
    s.writeTailNow q v =
      if v < (s.host.sq q).size then
        if v = (s.host.sq q).head then { s with host := withdrawn (s.host.recordTail q v) q }
        else { s with host := s.host.recordTail q v }
      else s.faultQueue q 2 := by
  simp only [State.writeTailNow, hrun, hactive]
  rfl

theorem writeTailNow_faulted {s : State} {q v : Nat} (hrun : s.host.state = .running)
    (hfaulted : (s.host.sq q).state = .faulted) :
    s.writeTailNow q v = if v < (s.host.sq q).size then { s with host := s.host.recordTail q v } else s := by
  simp only [State.writeTailNow, hrun, hfaulted]
  rfl

theorem writeTailNow_inactive {s : State} {q v : Nat} (hrun : s.host.state = .running)
    (hinactive : (s.host.sq q).state = .inactive) : s.writeTailNow q v = hostErrorSet s := by
  simp only [State.writeTailNow, hrun, hinactive]
  exact hostError_eq_hostErrorSet s

/-- A tail recorded at the head leaves nothing to be fetched, and what was fetched is given up. -/
theorem withdrawn_recordTail (u : HostUnit) (q v : Nat) :
    (∀ j, (withdrawn (u.recordTail q v) q).sq j =
      if j = q then { u.sq q with tail := v, fence := none } else u.sq j) ∧
    recordsDropped u (withdrawn (u.recordTail q v) q) q := by
  have hsq : (u.recordTail q v).sq q = { u.sq q with tail := v } := by simp [HostUnit.recordTail]
  obtain ⟨hfetch, hcq⟩ := withdrawn_recordsDropped (u.recordTail q v) q
  refine ⟨fun j => ?source, hfetch, fun m => ?bound⟩
  case source =>
    rw [sq_withdrawn, hsq]
    split
    · rfl
    next hj => simp [HostUnit.recordTail, hj]
  case bound =>
    rw [hcq m, hsq]
    rfl

/-- Settles O9: a fence wait that is due is taken first, and leaves none; then the write does what the queue's state and
the value call for. -/
theorem tailWritesByQueueState : Obligations.TailWritesByQueueState := by
  refine fun s q v => ⟨fun hstill => ?still, fun hdue => ?due, fun hrun hdue => ?now⟩
  case still =>
    rw [exec_sqTailWrite_of_not_due fun hdue => hstill hdue.2.1]
    exact congrArg Host.Outcome.next (if_pos hstill)
  case due =>
    obtain ⟨w, -, htake⟩ := takeFenced_of_due hdue
    have hafter : ¬fenceDue (s.takeFenced q) q := by
      rw [htake]
      exact not_fenceDue_of_unfenced (takeRecord_unfenced s q w.record)
    exact ⟨_, rfl, (exec_sqTailWrite_of_not_due hafter).symm, hafter⟩
  case now =>
    rw [exec_sqTailWrite_of_not_due hdue]
    refine ⟨fun hinactive => ?inactive, fun ⟨hfaulted, hbeyond⟩ => ?beyond, fun hin hcase => ?recorded,
      fun ⟨hactive, hin, hhead⟩ => ?emptied, fun ⟨hactive, hbeyond⟩ => ?faults⟩
    case inactive => rw [writeTailNow_inactive hrun hinactive]
    case beyond => rw [writeTailNow_faulted hrun hfaulted, if_neg (Nat.not_lt.mpr hbeyond)]
    case recorded =>
      obtain hfaulted | ⟨hactive, hhead⟩ := hcase
      · rw [writeTailNow_faulted hrun hfaulted, if_pos hin]
        rfl
      · rw [writeTailNow_active hrun hactive, if_pos hin, if_neg hhead]
        rfl
    case emptied =>
      rw [writeTailNow_active hrun hactive, if_pos hin, if_pos hhead]
      exact ⟨_, rfl, withdrawn_eq (s.host.recordTail q _) q, withdrawn_recordTail s.host q _⟩
    case faults =>
      rw [writeTailNow_active hrun hactive, if_neg (Nat.not_lt.mpr hbeyond)]
      obtain ⟨u, heq, hrest⟩ := faultQueue_spec s q 2
      exact ⟨u, congrArg Host.Outcome.next heq, hrest⟩

end Sys2Proof.Queues
end

section
/-! PROOFS. The register window as software sees it: which accesses count for nothing, what a read of each register
gives, and which bits of a written value a register looks at. -/

namespace Sys2Proof.Queues

open Machine Claims

/-! ## Words of the register map (11.7) -/

section
variable {x : Word32} {lo len i : Nat}

theorem extractLsb_toNat_eq (hlen : 0 < len) :
    (x.extractLsb (lo + len - 1) lo).toNat = x.toNat / 2 ^ lo % 2 ^ len := by
  rw [BitVec.extractLsb_toNat, Nat.shiftRight_eq_div_pow, show lo + len - 1 - lo + 1 = len by omega]

theorem getLsbD_eq_false_of_toNat_lt (hx : x.toNat < 2 ^ len) (hi : len ≤ i) : x.getLsbD i = false := by
  rw [← BitVec.testBit_toNat]
  exact Nat.testBit_lt_two_pow (hx.trans_le (Nat.pow_le_pow_right Nat.two_pos hi))

end

/-- A word that holds a value of 16 bits: its low half is the value, and the bits above read 0. -/
theorem ofNat_of_lt_halfword {a : Nat} (ha : a < 65536) :
    ((BitVec.ofNat 32 a).extractLsb 15 0).toNat = a ∧ ∀ i, 16 ≤ i → (BitVec.ofNat 32 a).getLsbD i = false := by
  have hword : (BitVec.ofNat 32 a).toNat = a := Nat.mod_eq_of_lt (ha.trans (by decide))
  constructor
  · rw [extractLsb_toNat_eq (lo := 0) (len := 16) (by decide), hword]
    omega
  · exact fun i hi => getLsbD_eq_false_of_toNat_lt (len := 16) (by omega) hi

theorem extractLsb_setWidth_six (b : BitVec 6) : (b.setWidth 32).extractLsb 5 0 = b := by
  apply BitVec.eq_of_toNat_eq
  rw [extractLsb_toNat_eq (lo := 0) (len := 6) (by decide), BitVec.toNat_setWidth]
  have := b.isLt
  omega

theorem getLsbD_setWidth_six {i : Nat} (b : BitVec 6) (hi : 6 ≤ i) : (b.setWidth 32).getLsbD i = false := by
  rw [BitVec.getLsbD_setWidth, b.getLsbD_of_ge i hi, Bool.and_false]

/-! ## IFSTATE (R159, R161, R178) -/

theorem interfaceCode_eq (x : InterfaceState) : interfaceCode x = x.code := by cases x <;> rfl

theorem haltNumber_eq (c : HaltCode) : haltNumber c = c.code := by cases c <;> rfl

theorem interfaceState_code_lt (x : InterfaceState) : x.code < 4 := by cases x <;> decide

theorem haltCode_code_lt (c : HaltCode) : c.code < 16 := by cases c <;> decide

section
variable (u : HostUnit)

theorem ifstate_toNat : u.ifstate.toNat = (u.state.code + 2 ^ 8 * u.haltCode.code + 2 ^ 12 * u.haltQueue) % 2 ^ 32 :=
  BitVec.toNat_ofNat _ _

theorem ifstate_state : (u.ifstate.extractLsb 1 0).toNat = u.state.code := by
  have hstate := interfaceState_code_lt u.state
  rw [extractLsb_toNat_eq (lo := 0) (len := 2) (by decide), ifstate_toNat]
  omega

theorem ifstate_haltCode : (u.ifstate.extractLsb 11 8).toNat = u.haltCode.code := by
  have hstate := interfaceState_code_lt u.state
  have hcode := haltCode_code_lt u.haltCode
  rw [extractLsb_toNat_eq (lo := 8) (len := 4) (by decide), ifstate_toNat]
  omega

variable {u} (hqueue : u.haltQueue < 4)
include hqueue

theorem ifstate_toNat_of_queue :
    u.ifstate.toNat = u.state.code + 2 ^ 8 * u.haltCode.code + 2 ^ 12 * u.haltQueue := by
  have hstate := interfaceState_code_lt u.state
  have hcode := haltCode_code_lt u.haltCode
  rw [ifstate_toNat, Nat.mod_eq_of_lt (by omega)]

theorem ifstate_haltQueue : (u.ifstate.extractLsb 13 12).toNat = u.haltQueue := by
  have hstate := interfaceState_code_lt u.state
  have hcode := haltCode_code_lt u.haltCode
  rw [extractLsb_toNat_eq (lo := 12) (len := 2) (by decide), ifstate_toNat_of_queue hqueue]
  omega

/-- Bits 7 to 2 lie between the state's two bits and the halt code, and bits 31 to 14 above the queue's two. -/
theorem ifstate_unassigned {i : Nat} (hi : (2 ≤ i ∧ i < 8) ∨ 14 ≤ i) : u.ifstate.getLsbD i = false := by
  have hstate := interfaceState_code_lt u.state
  have hcode := haltCode_code_lt u.haltCode
  have hword := ifstate_toNat_of_queue hqueue
  obtain ⟨hlow, hhigh⟩ | habove := hi
  · have hsplit : u.ifstate.toNat = 2 ^ 8 * (u.haltCode.code + 2 ^ 4 * u.haltQueue) + u.state.code := by omega
    rw [← BitVec.testBit_toNat, hsplit, Nat.testBit_two_pow_mul_add _ (by omega), if_pos hhigh]
    exact Nat.testBit_lt_two_pow (hstate.trans_le (Nat.pow_le_pow_right Nat.two_pos hlow))
  · exact getLsbD_eq_false_of_toNat_lt (len := 14) (by omega) habove

end

/-! ## Accesses (R179) -/

section
variable (s : State) (n : Fin 4) (v : Word32)

theorem exec_sqTailWrite : exec (.sqTailWrite n v) s = .next (s.writeTail n (v.toNat % 65536)) := rfl

theorem exec_cqHeadWrite : exec (.cqHeadWrite n v) s = .next (s.writeHead n (v.toNat % 65536)) := rfl

theorem exec_intCauseWrite :
    exec (.intCauseWrite v) s = .next { s with host := s.host.clearCause (v.setWidth 6) } := rfl

theorem exec_controlWrite :
    exec (.registerWrite 0x04 4 v) s = .next (if v.getLsbD 0 then s.enableSet else s.enableClear) := rfl

theorem exec_intMaskWrite :
    exec (.registerWrite 0x38 4 v) s = .next { s with host := s.host.setInterrupts s.host.intCause (v.setWidth 6) } :=
  rfl

variable {s n v} {offset width : Nat}

/-- No register stands at a word from the sixteenth on. -/
theorem div_four_of_beyond (h : 0x3C ≤ offset) : ∃ k, offset / 4 = k + 15 :=
  ⟨offset / 4 - 15, by omega⟩

theorem readRegister_nothing (h : width ≠ 4 ∨ offset % 4 ≠ 0 ∨ 0x3C ≤ offset) :
    readRegister s offset width = 0 := by
  rw [← or_assoc] at h
  unfold readRegister
  split
  next => rfl
  next hwhole =>
    obtain ⟨k, hk⟩ := div_four_of_beyond (h.resolve_left hwhole)
    rw [hk]
    rfl

theorem exec_registerWrite_nothing (h : width ≠ 4 ∨ offset % 4 ≠ 0 ∨ 0x3C ≤ offset) :
    exec (.registerWrite offset width v) s = .next s := by
  rw [← or_assoc] at h
  change Host.Outcome.next (s.writeRegister offset width v) = _
  unfold State.writeRegister
  split
  next => rfl
  next hwhole =>
    obtain ⟨k, hk⟩ := div_four_of_beyond (h.resolve_left hwhole)
    rw [hk]
    rfl

end

section
variable (s : State)

theorem readRegister_control : readRegister s 0x04 4 = if s.host.enable then 1 else 0 := rfl

theorem readRegister_ifstate : readRegister s 0x08 4 = s.host.ifstate := rfl

theorem readRegister_intCause : readRegister s 0x34 4 = s.host.intCause.setWidth 32 := rfl

theorem readRegister_intMask : readRegister s 0x38 4 = s.host.intMask.setWidth 32 := rfl

variable {n : Nat} (hn : n < 4)
include hn

theorem readRegister_sqTail : readRegister s (0x14 + 4 * n) 4 = BitVec.ofNat 32 (s.host.sq n).tail := by
  interval_cases n <;> rfl

theorem readRegister_cqHead : readRegister s (0x24 + 4 * n) 4 = BitVec.ofNat 32 (s.host.cq n).head := by
  interval_cases n <;> rfl

end

theorem readRegister_control_enable (s : State) : (readRegister s 0x04 4).getLsbD 0 = s.host.enable := by
  rw [readRegister_control]
  cases s.host.enable <;> rfl

theorem readRegister_control_unassigned (s : State) {i : Nat} (hi : 1 ≤ i) :
    (readRegister s 0x04 4).getLsbD i = false := by
  rw [readRegister_control]
  refine getLsbD_eq_false_of_toNat_lt (len := 1) ?_ hi
  cases s.host.enable <;> decide

/-- Settles O11: a read puts each register's fields at their bits, and a write looks at no bit beyond them. -/
theorem registerAccessesAreWholeWords : Obligations.RegisterAccessesAreWholeWords := by
  refine fun s offset width v w => ⟨fun h => ⟨exec_registerWrite_nothing h, readRegister_nothing h⟩, ?ident,
    readRegister_control_enable s, fun _ => readRegister_control_unassigned s, ?state, ?haltCode,
    fun hqueue => ⟨?haltQueue, fun _ => ?unassigned⟩, ?qtableLo, ?qtableHi, fun n hn htail => ?tail,
    fun n hn hhead => ?head, ?cause, ?mask, fun _ hi => ⟨?causeAbove, ?maskAbove⟩, fun hbit => ?controlWrite,
    fun hlow n => ⟨?tailWrite, ?headWrite⟩, fun hsix => ⟨?causeWrite, ?maskWrite⟩, ?identWrite, ?ifstateWrite⟩
  case ident | qtableLo | qtableHi | identWrite | ifstateWrite => rfl
  case state => rw [readRegister_ifstate, ifstate_state, interfaceCode_eq]
  case haltCode => rw [readRegister_ifstate, ifstate_haltCode, haltNumber_eq]
  case haltQueue => exact ifstate_haltQueue hqueue
  case unassigned => exact ifstate_unassigned hqueue
  case tail =>
    rw [readRegister_sqTail s hn]
    exact ofNat_of_lt_halfword htail
  case head =>
    rw [readRegister_cqHead s hn]
    exact ofNat_of_lt_halfword hhead
  case cause => rw [readRegister_intCause, extractLsb_setWidth_six]
  case mask => rw [readRegister_intMask, extractLsb_setWidth_six]
  case causeAbove => exact getLsbD_setWidth_six _ hi
  case maskAbove => exact getLsbD_setWidth_six _ hi
  case controlWrite => rw [exec_controlWrite, exec_controlWrite, hbit]
  case tailWrite => rw [exec_sqTailWrite, exec_sqTailWrite, hlow]
  case headWrite => rw [exec_cqHeadWrite, exec_cqHeadWrite, hlow]
  case causeWrite => rw [exec_intCauseWrite, exec_intCauseWrite, hsix]
  case maskWrite => rw [exec_intMaskWrite, exec_intMaskWrite, hsix]

end Sys2Proof.Queues
end

section
/-! PROOFS. One step, and the queue of waiting commands: every command answers a next state, and none of the operations
that a command is made of touches the queue. -/

namespace Sys2Proof.Commands

open Machine

/-! ## The front of the queue -/

theorem step_withPending_cons (c : Instr) (rest : List Instr) (s : State) :
    step (s.withPending (c :: rest)) = exec c (s.withPending rest) := rfl

theorem step_of_pending_nil {s : State} (h : s.pending = []) : step s = .next s := by
  unfold step
  rw [h]

/-- Settles O1: a step takes the front of the queue, and idles where there is none. -/
theorem stepTakesTheFrontCommand : Obligations.StepTakesTheFrontCommand :=
  ⟨step_withPending_cons, fun _ => step_of_pending_nil⟩

/-! ## What leaves the queue as it was -/

section

variable (s : State)

/-- A choice leaves the queue if both its branches do. -/
theorem ite_pending {s : State} {p : Prop} [Decidable p] {t u : State} (ht : t.pending = s.pending)
    (hu : u.pending = s.pending) : (if p then t else u).pending = s.pending := by
  split
  · exact ht
  · exact hu

/-! ### The supply (R143 to R154) -/

theorem finishSequence_pending (o : Option Owed) (status : Status) (detail : Nat) :
    (s.finishSequence o status detail).pending = s.pending := by
  cases o <;> rfl

theorem becomeDown_pending : s.becomeDown.pending = s.pending := finishSequence_pending _ _ _ _

theorem fallOn_pending (turns : Nat) (s : State) : (State.fallOn turns s).pending = s.pending := by
  induction turns generalizing s with
  | zero => rfl
  | succ turns ih =>
    unfold State.fallOn
    refine ite_pending ?_ rfl
    split
    · exact ih _
    · exact becomeDown_pending s

theorem beginFall_pending : s.beginFall.pending = s.pending := by
  unfold State.beginFall
  split
  · exact becomeDown_pending s
  · split
    · exact fallOn_pending 9 _
    · exact fallOn_pending 9 _

theorem endRise_pending : s.endRise.pending = s.pending := finishSequence_pending _ _ _ _

theorem riseOn_pending (turns : Nat) (s : State) : (State.riseOn turns s).pending = s.pending := by
  induction turns generalizing s with
  | zero => rfl
  | succ turns ih =>
    unfold State.riseOn
    refine ite_pending ?_ rfl
    split
    · exact ih _
    · exact endRise_pending s

theorem riseProgress_pending : s.riseProgress.pending = s.pending := riseOn_pending 9 s

theorem trip_pending (n : Nat) : (s.trip n).pending = s.pending :=
  (beginFall_pending _).trans (ite_pending (finishSequence_pending _ _ _ _) rfl)

theorem applyPolicy_pending (n : Nat) : (s.applyPolicy n).pending = s.pending := by
  unfold State.applyPolicy
  split
  · exact riseProgress_pending s
  · exact trip_pending s n
  · exact trip_pending s n
  · rfl

theorem feedFault_pending (n : Nat) (cause : FaultCause) : (s.feedFault n cause).pending = s.pending :=
  applyPolicy_pending _ n

theorem goodAsserted_pending (n : Nat) : (s.goodAsserted n).pending = s.pending :=
  ite_pending (riseProgress_pending _) rfl

theorem goodDeasserted_pending (n : Nat) : (s.goodDeasserted n).pending = s.pending :=
  ite_pending (feedFault_pending _ _ _) rfl

theorem goodTimeout_pending (n : Nat) : (s.goodTimeout n).pending = s.pending :=
  ite_pending (feedFault_pending _ _ _) rfl

theorem riseIntervalEnds_pending : s.riseIntervalEnds.pending = s.pending := ite_pending (riseProgress_pending _) rfl

theorem fallIntervalEnds_pending : s.fallIntervalEnds.pending = s.pending := ite_pending (fallOn_pending 9 _) rfl

theorem beginRise_pending (c : Ctx) : (s.beginRise c).pending = s.pending := by
  unfold State.beginRise
  refine ite_pending rfl ?_
  dsimp only
  split
  · exact riseProgress_pending _
  · rfl

theorem takePowerUp_pending (c : Ctx) : (s.takePowerUp c).pending = s.pending :=
  ite_pending rfl (ite_pending rfl (beginRise_pending s c))

theorem takePowerDown_pending (c : Ctx) : (s.takePowerDown c).pending = s.pending := by
  unfold State.takePowerDown
  split
  · rfl
  · rfl
  · exact (beginFall_pending _).trans (finishSequence_pending _ _ _ _)
  · exact beginFall_pending _

/-! ### Requests at their owners (R165) -/

theorem cancelHeld_pending (held : List HeldRequest) : (s.cancelHeld held).pending = s.pending :=
  List.foldlRecOn (motive := fun t : State => t.pending = s.pending) held _ rfl fun _ ht _ _ => ht

theorem takeLoadScene_pending (c : Ctx) (i n : Nat) (a : HostAddress) :
    (s.takeLoadScene c i n a).pending = s.pending := by
  unfold State.takeLoadScene
  split <;> rfl

theorem takeDeleteScene_pending (c : Ctx) (i : Nat) : (s.takeDeleteScene c i).pending = s.pending := by
  unfold State.takeDeleteScene
  dsimp only
  split
  · rfl
  · rfl
  · exact ite_pending rfl rfl

theorem takeLoadBand_pending (c : Ctx) (r : BandLoadRequest) : (s.takeLoadBand c r).pending = s.pending := by
  unfold State.takeLoadBand
  split <;> rfl

theorem takeConfigPort_pending (c : Ctx) (r : PortRequest) : (s.takeConfigPort c r).pending = s.pending := by
  unfold State.takeConfigPort
  split
  · rfl
  · exact ite_pending rfl rfl

theorem takeGroupable_pending (c : Ctx) (r : GroupRequest) : (s.takeGroupable c r).pending = s.pending := by
  cases r <;> rfl

/-- Whatever the request, its owner answers it, stages it or begins its work. -/
theorem route_pending (c : Ctx) (g : Nat) (r : Request) : (s.route c g r).pending = s.pending := by
  cases r with
  | groupable r => exact ite_pending (takeGroupable_pending s c r) (ite_pending rfl rfl)
  | nop | queryScene | queryPlayback | queryFeeds | showReset | commit => rfl
  | restartQueue | configPlayback | setFramePeriod | readLevels | configFeed | configSupply | clearFault =>
    exact ite_pending rfl rfl
  | runCue => exact ite_pending rfl (ite_pending rfl rfl)
  | loadScene i n a => exact takeLoadScene_pending s c i n a
  | deleteScene i => exact takeDeleteScene_pending s c i
  | loadBand r => exact takeLoadBand_pending s c r
  | abortGroup => exact cancelHeld_pending _ _
  | configPort r => exact takeConfigPort_pending s c r
  | powerUp => exact takePowerUp_pending s c
  | powerDown => exact takePowerDown_pending s c

/-! ### Records at intake (R164 to R166) -/

theorem takeRecord_pending (q : Nat) (r : RequestRecord) : (s.takeRecord q r).pending = s.pending := by
  unfold State.takeRecord
  rw [State.checkAndRoute_of_check]
  split
  · rfl
  · rfl
  · exact route_pending _ _ _ _

theorem recordArrives_pending (r : RequestRecord) : (s.recordArrives r).pending = s.pending := by
  unfold State.recordArrives
  split
  · rfl
  · exact ite_pending rfl (ite_pending rfl (takeRecord_pending _ _ r))

theorem takeFenced_pending (q : Nat) : (s.takeFenced q).pending = s.pending := by
  unfold State.takeFenced
  split
  · rfl
  · exact ite_pending (takeRecord_pending s q _) rfl

theorem intakeArrival_pending (a : IntakeArrival) : (s.intakeArrival a).pending = s.pending := by
  obtain ⟨host, hold, heq, -⟩ := s.intakeArrival_joins a
  rw [heq]

theorem intakeGrant_pending : s.intakeGrant.pending = s.pending := intakeArrival_pending s .grant

theorem staleReturn_pending : s.staleReturn.pending = s.pending := by
  unfold State.staleReturn
  split
  · exact ite_pending rfl rfl
  · rfl

theorem fetchError_pending : s.fetchError.pending = s.pending := by
  unfold State.fetchError
  split
  · exact ite_pending rfl rfl
  · rfl

/-! ### Resets, registers and record writes (R159 to R163, R168 to R174) -/

theorem hostInterfaceReset_pending : s.hostInterfaceReset.pending = s.pending := by
  obtain ⟨t, ht, heq⟩ := hostInterfaceReset_eq s
  rw [heq]
  exact ht.pending

theorem turnOff_pending : s.turnOff.pending = s.pending :=
  s.turnOff_pending.trans (hostInterfaceReset_pending s)

theorem halt_pending (code : HaltCode) (queue : Nat) : (s.halt code queue).pending = s.pending :=
  (s.halt_pending code queue).trans (hostInterfaceReset_pending s)

theorem enableSet_pending : s.enableSet.pending = s.pending := ite_pending rfl rfl

theorem enableClear_pending : s.enableClear.pending = s.pending := ite_pending rfl (turnOff_pending s)

theorem queueTableAnswered_pending (answer : Option (List Byte)) :
    (s.queueTableAnswered answer).pending = s.pending := by
  refine ite_pending ?_ rfl
  cases answer with
  | none => exact halt_pending s _ _
  | some bytes =>
    dsimp only
    split
    · exact halt_pending s _ _
    · rfl

theorem writeQtable_pending (high : Bool) (v : Word32) : (s.writeQtable high v).pending = s.pending :=
  ite_pending rfl rfl

theorem writeTailNow_pending (q v : Nat) : (s.writeTailNow q v).pending = s.pending := by
  refine ite_pending rfl ?_
  split
  · rfl
  · exact ite_pending rfl rfl
  · exact ite_pending (ite_pending rfl rfl) rfl

theorem writeTail_pending (q v : Nat) : (s.writeTail q v).pending = s.pending :=
  (writeTailNow_pending _ q v).trans (takeFenced_pending s q)

theorem writeHead_pending (m v : Nat) : (s.writeHead m v).pending = s.pending := ite_pending rfl (ite_pending rfl rfl)

/-- A register with behaviour of its own behaves as its own command; every other write counts for nothing (R179). -/
theorem writeRegister_pending (offset width : Nat) (v : Word32) :
    (s.writeRegister offset width v).pending = s.pending := by
  refine ite_pending rfl ?_
  split
  · exact ite_pending (enableSet_pending s) (enableClear_pending s)
  iterate 2 exact writeQtable_pending s _ v
  iterate 4 exact writeTail_pending s _ _
  iterate 4 exact writeHead_pending s _ _
  · rfl
  · rfl
  · rfl

theorem postEvent_pending : s.postEvent.pending = s.pending := by
  unfold State.postEvent
  split
  · rfl
  · exact ite_pending rfl rfl

theorem writeAccepted_pending (m : Nat) : (s.writeAccepted m).pending = s.pending := ite_pending rfl rfl

theorem writeFailed_pending (m : Nat) : (s.writeFailed m).pending = s.pending := ite_pending (halt_pending s _ m) rfl

/-! ### Frames, ports and load data (R25, R92, R100, R101, R114, R135) -/

theorem frameEdit_pending {s t : State} (h : FrameEdit s t) : t.pending = s.pending := by
  cases h with
  | arrival a => exact intakeArrival_pending s a
  | _ => rfl

theorem frameStart_pending (course : FrameCourse) : (s.frameStart course).pending = s.pending :=
  (frameStart_edits s course).keeps (P := fun t => t.pending = s.pending)
    (fun _ _ hedit ht => (frameEdit_pending hedit).trans ht) rfl

theorem latchFrame_pending (safeIn : Bool) : (s.latchFrame safeIn).pending = s.pending := by
  unfold State.latchFrame State.raiseSafe
  dsimp only
  split <;> rfl

theorem endSnapshot_pending (i : Nat) (status : Status) : (s.endSnapshot i status).pending = s.pending := by
  unfold State.endSnapshot
  split <;> rfl

theorem echoWindowCloses_pending (k : Nat) : (s.echoWindowCloses k).pending = s.pending := by
  unfold State.echoWindowCloses
  dsimp only
  split
  · split <;> rfl
  · rfl

theorem loadAnswer_pending (f : Nat) (a : LoadAnswer) : (s.loadAnswer f a).pending = s.pending := by
  obtain ⟨store, records, -, -, heq | ⟨c, status, detail, heq⟩⟩ := loadAnswer_answered s f a
  · rw [heq]
  · rw [heq, State.finishNow_pending]

end

/-! ## Every command -/

/-- Settles O2: a command that brings a record does what its arrival does, and each other command is one operation of
its own. -/
theorem everyCommandAnswersANextState : Obligations.EveryCommandAnswersANextState := by
  intro c s
  cases hrecord : c.record with
  | some r => exact ⟨_, exec_of_record c r s hrecord, recordArrives_pending s r⟩
  | none =>
    match c, hrecord with
    | .coldReset, _ => exact ⟨_, rfl, rfl⟩
    | .linkReset, _ => exact ⟨_, rfl, turnOff_pending s⟩
    | .controlEnableSet, _ => exact ⟨_, rfl, enableSet_pending s⟩
    | .controlEnableClear, _ => exact ⟨_, rfl, enableClear_pending s⟩
    | .queueTableRead answer, _ => exact ⟨_, rfl, queueTableAnswered_pending s answer⟩
    | .qtableWrite high v, _ => exact ⟨_, rfl, writeQtable_pending s high v⟩
    | .sqTailWrite q _, _ => exact ⟨_, rfl, writeTail_pending s q _⟩
    | .cqHeadWrite q _, _ => exact ⟨_, rfl, writeHead_pending s q _⟩
    | .intCauseWrite _, _ => exact ⟨_, rfl, rfl⟩
    | .registerWrite offset width v, _ => exact ⟨_, rfl, writeRegister_pending s offset width v⟩
    | .intakeGrant, _ => exact ⟨_, rfl, intakeGrant_pending s⟩
    | .fetchReadError, _ => exact ⟨_, rfl, fetchError_pending s⟩
    | .staleFetchReturn, _ => exact ⟨_, rfl, staleReturn_pending s⟩
    | .fencedRecordTaken q, _ => exact ⟨_, rfl, takeFenced_pending s q⟩
    | .frameStart course, _ => exact ⟨_, rfl, frameStart_pending s course⟩
    | .latch safeIn, _ => exact ⟨_, rfl, latchFrame_pending s safeIn⟩
    | .readLevelsWriteDone which, _ => exact ⟨_, rfl, endSnapshot_pending s which _⟩
    | .readLevelsWriteError which, _ => exact ⟨_, rfl, endSnapshot_pending s which _⟩
    | .echoRecord _ _ _, _ => exact ⟨_, rfl, rfl⟩
    | .echoWindowClose port, _ => exact ⟨_, rfl, echoWindowCloses_pending s port⟩
    | .transmissionEnd _, _ => exact ⟨_, rfl, rfl⟩
    | .loadItemReceived item, _ => exact ⟨_, rfl, loadAnswer_pending s _ (.item item)⟩
    | .loadHostReadError, _ => exact ⟨_, rfl, loadAnswer_pending s _ .error⟩
    | .feedGoodAsserted feed, _ => exact ⟨_, rfl, goodAsserted_pending s feed⟩
    | .feedGoodDeasserted feed, _ => exact ⟨_, rfl, goodDeasserted_pending s feed⟩
    | .goodTimeout feed, _ => exact ⟨_, rfl, goodTimeout_pending s feed⟩
    | .riseIntervalEnd, _ => exact ⟨_, rfl, riseIntervalEnds_pending s⟩
    | .fallIntervalEnd, _ => exact ⟨_, rfl, fallIntervalEnds_pending s⟩
    | .eventPost, _ => exact ⟨_, rfl, postEvent_pending s⟩
    | .recordWriteAccepted q, _ => exact ⟨_, rfl, writeAccepted_pending s q⟩
    | .cqWriteError q, _ => exact ⟨_, rfl, writeFailed_pending s q⟩

end Sys2Proof.Commands
end

section
/-! PROOFS. The Supply Sequencer: its settings and its report, and how a rise and a fall go on. The model's numbered
turns are the relations `Claims.RiseGoesOn` and `Claims.FallGoesOn`, since nine turns are enough for slots 0 to 8. -/

namespace Sys2Proof.Feeds

open Machine Safety Claims Playbacks

/-! ## The feeds by number -/

theorem mem_feedNumbers {n : Nat} : n ∈ feedNumbers ↔ n < 6 := List.mem_range

theorem feedNumbers_eq : feedNumbers = [0, 1, 2, 3, 4, 5] := rfl

/-- A sum over the feeds, written out. -/
theorem sum_feedNumbers (g : Nat → Nat) : (feedNumbers.map g).sum = g 0 + g 1 + g 2 + g 3 + g 4 + g 5 := by
  simp only [feedNumbers_eq, List.map_cons, List.map_nil, List.sum_cons, List.sum_nil]
  omega

section updateFeeds

variable (p : Nat → Bool) (g : Feed → Feed)

theorem feed_foldl_update (l : List Nat) (hl : l.Nodup) (n : Nat) : ∀ u : Supply,
    (l.foldl (fun acc n => if p n then acc.setFeed n (g (acc.feed n)) else acc) u).feed n =
      if n ∈ l ∧ p n = true then g (u.feed n) else u.feed n := by
  induction l with
  | nil => intro u; simp
  | cons k l ih =>
    obtain ⟨hk, hl⟩ := List.nodup_cons.1 hl
    intro u
    rw [List.foldl_cons, ih hl]
    by_cases hnk : n = k
    · subst hnk
      cases hp : p n <;> simp [hk]
    · cases hp : p k <;> simp [hnk]

theorem feed_updateFeeds (u : Supply) (n : Nat) :
    (u.updateFeeds p g).feed n = if n < 6 ∧ p n = true then g (u.feed n) else u.feed n := by
  simp only [Supply.updateFeeds, feed_foldl_update p g feedNumbers List.nodup_range, mem_feedNumbers]

/-- Nothing but the feeds is changed. -/
theorem updateFeeds_eq (u : Supply) : u.updateFeeds p g = { u with feeds := (u.updateFeeds p g).feeds } := by
  have hfold (l : List Nat) : ∀ u : Supply,
      l.foldl (fun acc n => if p n then acc.setFeed n (g (acc.feed n)) else acc) u =
        { u with
          feeds := (l.foldl (fun acc n => if p n then acc.setFeed n (g (acc.feed n)) else acc) u).feeds } := by
    induction l with
    | nil => exact fun _ => rfl
    | cons k l ih =>
      intro u
      rw [List.foldl_cons, ih]
      split <;> rfl
  exact hfold feedNumbers u

theorem updateFeeds_wf (u : Supply) (h : u.feeds.wf Feed.atReset = true) :
    (u.updateFeeds p g).feeds.wf Feed.atReset = true := by
  have hfold (l : List Nat) : ∀ u : Supply, u.feeds.wf Feed.atReset = true →
      (l.foldl (fun acc n => if p n then acc.setFeed n (g (acc.feed n)) else acc) u).feeds.wf Feed.atReset = true := by
    induction l with
    | nil => exact fun _ h => h
    | cons k l ih =>
      intro u h
      rw [List.foldl_cons]
      refine ih _ ?_
      split
      · exact Table.set_wf _ _ _ _ h
      · exact h
  exact hfold feedNumbers u h

end updateFeeds

/-! ## What the sequencer reads of the feeds -/

section reads

variable (u : Supply)

theorem faultMask_eq_faultsOf : u.faultMask = faultsOf u := by
  simp only [Supply.faultMask, Supply.maskOf, sum_feedNumbers, faultsOf, Feed.sequenced, Bool.and_eq_true,
    decide_eq_true_eq, Nat.reducePow]

theorem allOn_iff : u.allOn = true ↔ everyFeedOn u := by
  simp only [Supply.allOn, List.all_eq_true, mem_feedNumbers, everyFeedOn, Feed.sequenced, Bool.or_eq_true,
    Bool.not_eq_true', decide_eq_false_iff_not, decide_eq_true_eq]
  exact forall₂_congr fun n _ => by rw [← imp_iff_not_or]

theorem enabled_iff (f : Feed) : f.enabled = true ↔ isEnabled f := decide_eq_true_iff

theorem and_enabled_iff (a : Prop) [Decidable a] (f : Feed) : (decide a && f.enabled) = true ↔ a ∧ isEnabled f := by
  rw [Bool.and_eq_true, decide_eq_true_eq, enabled_iff]

theorem slotEnabled_iff (k : Nat) : u.slotEnabled k = true ↔ ∃ n < 6, (u.feed n).slot = k ∧ isEnabled (u.feed n) := by
  simp only [Supply.slotEnabled, List.any_eq_true, mem_feedNumbers, Bool.and_eq_true, decide_eq_true_eq, enabled_iff]

variable {u} {k j : Nat}

/-- No slot from 1 to `k` is enabled. -/
theorem highestEnabled_none (h : u.highestEnabled k = none) :
    ∀ n < 6, isEnabled (u.feed n) → (u.feed n).slot ≤ k → (u.feed n).slot = 0 := by
  induction k with
  | zero => intro n _ _ hs; omega
  | succ k ih =>
    rw [Supply.highestEnabled] at h
    split at h
    case isTrue => cases h
    case isFalse hoff =>
      intro n hn he hs
      by_cases hk : (u.feed n).slot = k + 1
      · exact absurd ((slotEnabled_iff u (k + 1)).2 ⟨n, hn, hk, he⟩) hoff
      · exact ih h n hn he (by omega)

theorem nextDown_of_highestEnabled (h : u.highestEnabled k = some j) : nextDown u k j := by
  induction k with
  | zero => cases h
  | succ k ih =>
    rw [Supply.highestEnabled] at h
    split at h
    case isTrue hon =>
      obtain rfl : k + 1 = j := Option.some.inj h
      exact ⟨⟨by omega, le_refl _⟩, (slotEnabled_iff u _).1 hon, fun _ _ _ hs => hs⟩
    case isFalse hoff =>
      obtain ⟨⟨h1, hk⟩, hex, hmax⟩ := ih h
      refine ⟨⟨h1, by omega⟩, hex, fun n hn he hs => ?_⟩
      by_cases hs' : (u.feed n).slot = k + 1
      · exact absurd ((slotEnabled_iff u (k + 1)).2 ⟨n, hn, hs', he⟩) hoff
      · exact hmax n hn he (by omega)

theorem not_nextDown_of_highestEnabled (h : u.highestEnabled k = none) (j : Nat) : ¬nextDown u k j := by
  rintro ⟨⟨h1, hk⟩, ⟨n, hn, hs, he⟩, -⟩
  have := highestEnabled_none h n hn he (by omega)
  omega

theorem nextDown_unique {i : Nat} (hi : nextDown u k i) (hj : nextDown u k j) : i = j := by
  obtain ⟨⟨_, hik⟩, ⟨n, hn, hns, hne⟩, himax⟩ := hi
  obtain ⟨⟨_, hjk⟩, ⟨m, hm, hms, hme⟩, hjmax⟩ := hj
  have h1 := himax m hm hme (by omega)
  have h2 := hjmax n hn hne (by omega)
  omega

theorem nextUp_of_nextRiseSlot (h : u.nextRiseSlot k = some j) : nextUp u k j := by
  obtain ⟨hj, hlow⟩ := List.find?_eq_some_iff_getElem.1 h
  obtain ⟨i, hi, hij, hbefore⟩ := hlow
  rw [List.getElem_range] at hij
  subst hij
  simp only [Bool.and_eq_true, decide_eq_true_eq, List.any_eq_true] at hj
  obtain ⟨hk, n, hn, hs⟩ := hj
  refine ⟨hk, ⟨n, hn, hs⟩, fun m hm hkm => ?_⟩
  by_contra hlt
  have := hbefore (u.feed m).slot (by omega)
  simp only [List.getElem_range, Bool.not_eq_true', Bool.and_eq_false_iff, decide_eq_false_iff_not,
    List.any_eq_false, decide_eq_true_eq] at this
  rcases this with h | h
  · exact h hkm
  · exact h m hm rfl

theorem not_nextUp_of_nextRiseSlot (hu : legalSlots u) (h : u.nextRiseSlot k = none) (j : Nat) : ¬nextUp u k j := by
  rintro ⟨hk, ⟨n, hn, hs⟩, -⟩
  have hj : j ≤ 8 := hs ▸ hu.1 n (hu.2 n hn)
  have := List.find?_eq_none.1 h j (List.mem_range.2 (by change j < 9; omega))
  simp only [Bool.and_eq_true, decide_eq_true_eq, List.any_eq_true, not_and, not_exists] at this
  exact this hk n hn hs

theorem intervalReached_iff : u.intervalReached = true ↔ ∃ i, u.interval = some i ∧ i.reached = true := by
  unfold Supply.intervalReached
  cases h : u.interval <;> simp

theorem slotCompletes_iff : u.slotCompletes = true ↔ slotDone u := by
  simp only [Supply.slotCompletes, Bool.and_eq_true, intervalReached_iff, List.all_eq_true, Bool.or_eq_true,
    Bool.not_eq_true', decide_eq_false_iff_not, decide_eq_true_eq, Supply.settled, slotDone]
  exact and_congr_right fun _ => forall₂_congr fun n _ => by rw [← imp_iff_not_or]

end reads

/-! ## The steps of a sequence -/

theorem finishSequence_eq_finished (s : State) (o : Option Owed) (status : Status) (detail : Nat) :
    s.finishSequence o status detail = finished s o status detail := rfl

@[simp] theorem finished_supply (s : State) (o : Option Owed) (status : Status) (detail : Nat) :
    (finished s o status detail).supply = s.supply := by
  unfold finished
  split <;> rfl

theorem becomeDown_eq_comesDown (s : State) : s.becomeDown = comesDown s := by
  rw [State.becomeDown, faultMask_eq_faultsOf]
  rfl

theorem ramp_eq_ramped (f : Feed) : f.ramp = ramped f := by
  unfold Feed.ramp ramped
  split <;> simp_all

/-- A falling step at slot `k`. -/
theorem stepFalls_fallStep (s : State) (k : Nat) :
    stepFalls s { s with supply := s.supply.fallStep k } k (fun f => f.slot = k) := by
  have hfeed (n : Nat) : (s.supply.fallStep k).feed n =
      if n < 6 ∧ (decide ((s.supply.feed n).slot = k) && (s.supply.feed n).enabled) = true
        then (s.supply.feed n).switchOff else s.supply.feed n :=
    feed_updateFeeds _ _ s.supply n
  refine ⟨?_, fun n hn h => (hfeed n).trans (if_pos ⟨hn, (and_enabled_iff _ _).2 h⟩),
    fun n h => (hfeed n).trans (if_neg fun ⟨hn, he⟩ => h ⟨hn, (and_enabled_iff _ _).1 he⟩)⟩
  unfold Supply.fallStep
  rw [updateFeeds_eq]
  rfl

/-- The one step of a TOGETHER fall. -/
theorem stepFalls_fallTogether (s : State) :
    stepFalls s { s with supply := s.supply.fallTogether } 0 (fun f => 1 ≤ f.slot) := by
  have hfeed (n : Nat) : s.supply.fallTogether.feed n =
      if n < 6 ∧ ((s.supply.feed n).sequenced && (s.supply.feed n).enabled) = true
        then (s.supply.feed n).switchOff else s.supply.feed n :=
    feed_updateFeeds _ _ s.supply n
  refine ⟨?_, fun n hn h => (hfeed n).trans (if_pos ⟨hn, (and_enabled_iff _ _).2 h⟩),
    fun n h => (hfeed n).trans (if_neg fun ⟨hn, he⟩ => h ⟨hn, (and_enabled_iff _ _).1 he⟩)⟩
  unfold Supply.fallTogether
  rw [updateFeeds_eq]
  rfl

/-- A slot of a rise. -/
theorem slotBegins_riseStep (s : State) (k : Nat) (h : ∀ n ∈ s.supply.riseSet, n < 6) :
    slotBegins s { s with supply := s.supply.riseStep k } k := by
  have hfeed (n : Nat) : (s.supply.riseStep k).feed n =
      if n < 6 ∧ (s.supply.riseSet.contains n && decide ((s.supply.feed n).slot = k)) = true
        then (s.supply.feed n).ramp else s.supply.feed n :=
    feed_updateFeeds _ _ s.supply n
  simp only [Bool.and_eq_true, List.contains_iff_mem, decide_eq_true_eq, ramp_eq_ramped] at hfeed
  refine ⟨?_, fun n hn => (hfeed n).trans (if_pos ⟨h n hn.1, hn⟩), fun n hn => (hfeed n).trans (if_neg (hn ·.2))⟩
  unfold Supply.riseStep
  rw [updateFeeds_eq]
  rfl

/-- A step that falls keeps the slots legal. -/
theorem legalSlots_of_stepFalls {s m : State} {c : Nat} {p : Feed → Prop} (h : stepFalls s m c p)
    (hs : legalSlots s.supply) : legalSlots m.supply := by
  obtain ⟨hm, hoff, hkept⟩ := h
  refine ⟨fun n hn => ?_, fun n hn => hs.2 n (by rw [hm] at hn; exact hn)⟩
  by_cases hp : p (s.supply.feed n) ∧ isEnabled (s.supply.feed n)
  · rw [hoff n hn hp]; exact hs.1 n hn
  · rw [hkept n (hp ·.2)]; exact hs.1 n hn

theorem legalSlots_of_slotBegins {s m : State} {j : Nat} (h : slotBegins s m j) (hs : legalSlots s.supply) :
    legalSlots m.supply := by
  obtain ⟨hm, hramped, hkept⟩ := h
  refine ⟨fun n hn => ?_, fun n hn => hs.2 n (by rw [hm] at hn; exact hn)⟩
  by_cases hp : n ∈ s.supply.riseSet ∧ (s.supply.feed n).slot = j
  · rw [hramped n hp]; exact hs.1 n hn
  · rw [hkept n hp]; exact hs.1 n hn

/-- Every fall step is at a slot that holds a feed, so at 8 at most. -/
theorem nextDown_le {u : Supply} {k j : Nat} (hu : legalSlots u) (h : nextDown u k j) : j ≤ 8 := by
  obtain ⟨-, ⟨n, hn, hs, -⟩, -⟩ := h
  exact hs ▸ hu.1 n hn

theorem nextUp_le {u : Supply} {k j : Nat} (hu : legalSlots u) (h : nextUp u k j) : j ≤ 8 := by
  obtain ⟨-, ⟨n, hn, hs⟩, -⟩ := h
  exact hs ▸ hu.1 n (hu.2 n hn)

/-! ## A sequence goes on -/

/-- With as many turns as slots are left below, a fall goes on as far as it can (R149). -/
theorem fallOn_goesOn : (turns : Nat) → (s : State) → legalSlots s.supply → 1 ≤ turns →
    (s.supply.currentSlot ≤ turns ∨ 9 ≤ turns) → FallGoesOn s (State.fallOn turns s)
  | 0, _, _, h, _ => absurd h (by omega)
  | turns + 1, s, hs, _, hturns => by
    unfold State.fallOn
    split
    case isFalse hwait =>
      refine .waits s ?_
      by_cases hf : s.supply.state = .falling
      · refine .inr fun i hi => ?_
        cases hr : i.reached with
        | false => rfl
        | true => exact absurd ⟨hf, intervalReached_iff.2 ⟨i, hi, hr⟩⟩ hwait
      · exact .inl hf
    case isTrue hgo =>
      obtain ⟨hf, hr⟩ := hgo
      obtain ⟨i, hi, hir⟩ := intervalReached_iff.1 hr
      split
      case h_1 k hm hk =>
        have hj := nextDown_of_highestEnabled hk
        have hb := stepFalls_fallStep s k
        refine .next s _ _ i k hf hi hir hm hj hb ?_
        have hle := nextDown_le hs hj
        obtain ⟨⟨h1, hlt⟩, -, -⟩ := hj
        refine fallOn_goesOn turns _ (legalSlots_of_stepFalls hb hs) (by omega) ?_
        change k ≤ turns ∨ 9 ≤ turns
        omega
      case h_2 hno =>
        rw [becomeDown_eq_comesDown]
        refine .ends s i hf hi hir ?_
        cases hm : s.supply.mode with
        | together => exact .inl rfl
        | sequential =>
          cases hk : s.supply.highestEnabled (s.supply.currentSlot - 1) with
          | none => exact .inr (not_nextDown_of_highestEnabled hk)
          | some k => exact absurd hk (hno k hm)

/-- The same of a rise (R147). -/
theorem riseOn_goesOn : (turns : Nat) → (s : State) → legalSlots s.supply → 1 ≤ turns →
    8 < turns + s.supply.currentSlot → RiseGoesOn s (State.riseOn turns s)
  | 0, _, _, h, _ => absurd h (by omega)
  | turns + 1, s, hs, _, hturns => by
    unfold State.riseOn
    split
    case isFalse hwait =>
      refine .waits s ?_
      rw [slotCompletes_iff] at hwait
      exact not_and_or.1 hwait
    case isTrue hgo =>
      obtain ⟨hr, hd⟩ := hgo
      rw [slotCompletes_iff] at hd
      split
      case h_1 k hk =>
        have hj := nextUp_of_nextRiseSlot hk
        have hb := slotBegins_riseStep s k hs.2
        refine .next s _ _ k hr hd hj hb ?_
        have hle := nextUp_le hs hj
        have hlt := hj.1
        refine riseOn_goesOn turns _ (legalSlots_of_slotBegins hb hs) (by omega) ?_
        change 8 < turns + k
        omega
      case h_2 hk =>
        have hn := not_nextUp_of_nextRiseSlot hs hk
        by_cases ho : everyFeedOn s.supply
        · have hend : s.endRise = finished { s with supply := risen s.supply } s.supply.rise .ok 0 := by
            unfold State.endRise
            rw [Supply.riseOutcome, if_pos ((allOn_iff _).2 ho)]
            rfl
          rw [hend]
          exact .endsGood s hr hd hn ho
        · have hend : s.endRise =
              finished { s with supply := risen s.supply } s.supply.rise .feedFault (faultsOf s.supply) := by
            unfold State.endRise
            rw [Supply.riseOutcome, if_neg (fun h => ho ((allOn_iff _).1 h)), faultMask_eq_faultsOf]
            rfl
          rw [hend]
          exact .endsFaulted s hr hd hn ho

theorem riseProgress_goesOn {s : State} (h : legalSlots s.supply) : RiseGoesOn s s.riseProgress :=
  riseOn_goesOn 9 s h (by omega) (by omega)

theorem fallOn_nine_goesOn {s : State} (h : legalSlots s.supply) : FallGoesOn s (State.fallOn 9 s) :=
  fallOn_goesOn 9 s h (by omega) (by omega)

theorem beginFall_begins {s : State} (h : legalSlots s.supply) : FallBegins s s.beginFall := by
  unfold State.beginFall
  split
  case h_1 hk =>
    rw [becomeDown_eq_comesDown]
    exact .nothing s (not_nextDown_of_highestEnabled hk)
  case h_2 k hk =>
    have hj := nextDown_of_highestEnabled hk
    split
    case h_1 hm =>
      have hb := stepFalls_fallStep s k
      exact .sequential s _ _ k hm hj hb (fallOn_nine_goesOn (legalSlots_of_stepFalls hb h))
    case h_2 hm =>
      have hb := stepFalls_fallTogether s
      exact .together s _ _ k hm hj hb (fallOn_nine_goesOn (legalSlots_of_stepFalls hb h))

/-! ## Faults and trips -/

theorem tripSlot_startSlot (u : Supply) : startSlot u u.tripSlot := by
  unfold Supply.tripSlot
  split
  case h_1 hk => exact ⟨fun _ => rfl, fun j hj => absurd hj (not_nextDown_of_highestEnabled hk j)⟩
  case h_2 k hk =>
    have hd := nextDown_of_highestEnabled hk
    refine ⟨fun hno => absurd hd (hno k), fun j hj => ?_⟩
    obtain rfl := nextDown_unique hd hj
    cases u.mode <;> simp

theorem raiseEvent_eq_raised (s : State) (kind : EventKind) (object detail : Nat) :
    s.raiseEvent kind object s.clock.frame detail = raised s kind object detail := by
  unfold State.raiseEvent
  rw [Frames.raiseEvent_joined]
  rfl

theorem trip_trips {s : State} (h : legalSlots s.supply) (n : Nat) : trips s (s.trip n) n := by
  refine ⟨s.supply.tripSlot, tripSlot_startSlot s.supply, fun hr => ⟨_, rfl, ?rising⟩, fun hr => ?other⟩ <;>
    unfold State.trip <;> rw [raiseEvent_eq_raised]
  case rising =>
    dsimp only
    rw [if_pos (by exact hr), faultMask_eq_faultsOf]
    refine beginFall_begins ?_
    simp only [finished_supply]
    exact ⟨h.1, fun n hn => absurd hn List.not_mem_nil⟩
  case other =>
    dsimp only
    rw [if_neg (by exact hr)]
    exact beginFall_begins h

theorem applyPolicy_isolate {s : State} (h : s.supply.state = .rising ∧ s.supply.policy = .isolate) (n : Nat) :
    s.applyPolicy n = s.riseProgress := by
  unfold State.applyPolicy
  rw [h.1, h.2]

theorem applyPolicy_all {s : State} (h : (s.supply.state = .rising ∨ s.supply.state = .up) ∧ s.supply.policy = .all)
    (n : Nat) : s.applyPolicy n = s.trip n := by
  unfold State.applyPolicy
  rw [h.2]
  rcases h.1 with h | h <;> rw [h]

theorem applyPolicy_none {s : State} (h : s.supply.state = .down ∨ s.supply.state = .falling ∨
    (s.supply.state = .up ∧ s.supply.policy = .isolate)) (n : Nat) : s.applyPolicy n = s := by
  unfold State.applyPolicy
  rcases h with h | h | ⟨h, hp⟩
  · rw [h]
  · rw [h]
  · rw [h, hp]

/-- A feed set to another that is in the same slot leaves the slots legal. -/
theorem legalSlots_setFeed {u : Supply} (h : legalSlots u) (n : Nat) (f : Feed) (hf : f.slot = (u.feed n).slot) :
    legalSlots (u.setFeed n f) := by
  refine ⟨fun j hj => ?_, h.2⟩
  rw [Supply.feed_setFeed]
  split
  case isTrue hjn => rw [hf, ← hjn]; exact h.1 j hj
  case isFalse => exact h.1 j hj

theorem feedFault_follows {s : State} (h : legalSlots s.supply) (n : Nat) (cause : FaultCause) :
    faultFollows s (s.feedFault n cause) n cause := by
  refine ⟨_, rfl, ?_⟩
  have hm : s.feedFault n cause = State.applyPolicy (raised
      { s with supply := s.supply.setFeed n ((s.supply.feed n).fail cause) } .feedFault n
        ((match cause with
          | .timeout => 1
          | .dropped => 2) + 256 *
          (match s.supply.state with
          | .down => 0
          | .rising => 1
          | .up => 2
          | .falling => 3))) n := by
    unfold State.feedFault
    dsimp only
    rw [← raiseEvent_eq_raised]
    cases cause <;> cases s.supply.state <;> rfl
  rw [hm]
  have hlegal := legalSlots_setFeed h n ((s.supply.feed n).fail cause) rfl
  refine ⟨fun hp => ?isolate, fun hp => ?all, fun hp => ?none⟩
  case isolate =>
    rw [applyPolicy_isolate (by exact hp)]
    exact riseProgress_goesOn hlegal
  case all =>
    rw [applyPolicy_all (by exact hp)]
    exact trip_trips hlegal n
  case none =>
    rw [applyPolicy_none (by exact hp)]
    rfl

/-- Settles O29: a RAMPING feed goes on with its rise, a fault is followed by the policy, and any other feed keeps its
level alone. -/
theorem goodInputsAndDeadlines : Obligations.GoodInputsAndDeadlines := by
  refine fun s n h => ⟨fun hr => ⟨_, rfl, ?asserted⟩, fun hr => ?keeps, fun ho => ⟨_, rfl, ?dropped⟩, fun ho => ?stays,
    fun hr => ⟨_, rfl, ?timeout⟩, fun hr => ?late⟩
  case asserted =>
    unfold State.goodAsserted
    dsimp only
    rw [if_pos hr]
    exact riseProgress_goesOn (legalSlots_setFeed h n _ rfl)
  case keeps =>
    refine congrArg Host.Outcome.next ?_
    unfold State.goodAsserted
    exact if_neg hr
  case dropped =>
    unfold State.goodDeasserted
    dsimp only
    rw [if_pos ho]
    exact feedFault_follows (legalSlots_setFeed h n { s.supply.feed n with good := false } rfl) n .dropped
  case stays =>
    refine congrArg Host.Outcome.next ?_
    unfold State.goodDeasserted
    exact if_neg ho
  case timeout =>
    unfold State.goodTimeout
    rw [if_pos hr]
    exact feedFault_follows h n .timeout
  case late =>
    refine congrArg Host.Outcome.next ?_
    unfold State.goodTimeout
    exact if_neg hr

/-! ## The ends of the intervals -/

/-- Settles O30: the interval is over, and the sequence that it belongs to goes on. -/
theorem slotIntervalsEnd : Obligations.SlotIntervalsEnd := by
  intro s
  refine ⟨fun i h hi hr => ⟨_, rfl, ?rise⟩, fun i h hi hf => ⟨_, rfl, ?fall⟩,
    fun hr => congrArg Host.Outcome.next (if_neg hr), fun hf => congrArg Host.Outcome.next (if_neg hf)⟩
  case rise =>
    unfold State.riseIntervalEnds Supply.reachInterval
    rw [if_pos hr, hi]
    exact riseProgress_goesOn h
  case fall =>
    unfold State.fallIntervalEnds Supply.reachInterval
    rw [if_pos hf, hi]
    exact fallOn_nine_goesOn h

/-! ## POWER_UP and POWER_DOWN -/

theorem mem_offFeeds {u : Supply} {n : Nat} :
    n ∈ u.offFeeds ↔ n < 6 ∧ 1 ≤ (u.feed n).slot ∧ (u.feed n).state = .off := by
  simp only [Supply.offFeeds, List.mem_filter, mem_feedNumbers, Feed.sequenced, Bool.and_eq_true, decide_eq_true_eq]

section power

variable {s : State} {c : Ctx}

theorem takePowerUp_busy (h : s.supply.state = .rising ∨ s.supply.state = .falling) :
    s.takePowerUp c = s.finishNow c .busy 0 := if_pos h

theorem takePowerUp_faulted (h : s.supply.state = .down ∨ s.supply.state = .up)
    (hf : s.supply.policy = .all ∧ faultsOf s.supply ≠ 0) :
    s.takePowerUp c = s.finishNow c .feedFault (faultsOf s.supply) := by
  unfold State.takePowerUp
  rw [faultMask_eq_faultsOf, if_neg (by rcases h with h | h <;> simp [h]), if_pos hf]

theorem takePowerUp_passes (h : s.supply.state = .down ∨ s.supply.state = .up)
    (hf : s.supply.policy = .isolate ∨ faultsOf s.supply = 0) : s.takePowerUp c = s.beginRise c := by
  unfold State.takePowerUp
  rw [faultMask_eq_faultsOf, if_neg (by rcases h with h | h <;> simp [h]), if_neg ?_]
  rintro ⟨hall, hne⟩
  rcases hf with hf | hf
  · rw [hf] at hall; cases hall
  · exact hne hf

theorem beginRise_nothing (h : ∀ n < 6, 1 ≤ (s.supply.feed n).slot → (s.supply.feed n).state ≠ .off) :
    s.beginRise c =
      State.finishNow { s with supply := { s.supply with state := .up } } c s.supply.riseOutcome.1
        s.supply.riseOutcome.2 := by
  refine if_pos (List.eq_nil_iff_forall_not_mem.2 fun n hn => ?_)
  obtain ⟨hn, h1, hoff⟩ := mem_offFeeds.1 hn
  exact h n hn h1 hoff

/-- The supply of a rise that is about to begin its first slot. -/
def rising (u : Supply) (c : Ctx) : Supply := { u with riseSet := u.offFeeds, rise := some (owes c) }

theorem legalSlots_rising (h : legalSlots s.supply) : legalSlots (rising s.supply c) :=
  ⟨h.1, fun _ hn => (mem_offFeeds.1 hn).1⟩

/-- A rise with something to raise begins at its lowest slot and goes on. -/
theorem beginRise_begins (hs : legalSlots s.supply)
    (h : ∃ n < 6, 1 ≤ (s.supply.feed n).slot ∧ (s.supply.feed n).state = .off) :
    ∃ m j, nextUp (rising s.supply c) 0 j ∧ slotBegins { s with supply := rising s.supply c } m j ∧
      RiseGoesOn m (s.beginRise c) := by
  obtain ⟨n, hn, h1, hoff⟩ := h
  have hne : s.supply.offFeeds ≠ [] := List.ne_nil_of_mem (mem_offFeeds.2 ⟨hn, h1, hoff⟩)
  have hlegal : legalSlots (rising s.supply c) := legalSlots_rising hs
  cases hk : (rising s.supply c).nextRiseSlot 0 with
  | none =>
    -- the lowest slot of the set is one that the search would find
    let slots := (rising s.supply c).riseSet.map fun n => (s.supply.feed n).slot
    have hslots : slots ≠ [] := fun h => hne (List.map_eq_nil_iff.1 h)
    have hmin := List.min_mem hslots
    obtain ⟨m, hm, hms⟩ := List.mem_map.1 hmin
    refine absurd ⟨?_, ⟨m, hm, hms⟩, fun x hx _ => List.min_le_of_mem (List.mem_map.2 ⟨x, hx, rfl⟩)⟩
      (not_nextUp_of_nextRiseSlot hlegal hk (slots.min hslots))
    rw [← hms]
    exact (mem_offFeeds.1 hm).2.1
  | some k =>
    have hb := slotBegins_riseStep { s with supply := rising s.supply c } k hlegal.2
    refine ⟨_, k, nextUp_of_nextRiseSlot hk, hb, ?_⟩
    have heq : s.beginRise c = State.riseProgress { s with supply := (rising s.supply c).riseStep k } := by
      change (if s.supply.offFeeds = [] then _ else match (rising s.supply c).nextRiseSlot 0 with
        | some k => State.riseProgress { s with supply := (rising s.supply c).riseStep k }
        | none => s) = _
      rw [if_neg hne, hk]
    rw [heq]
    exact riseProgress_goesOn (legalSlots_of_slotBegins hb hlegal)

end power

/-- Settles O28: a request is refused, completes at once, or begins a rise or a fall, which goes on as far as it can. -/
theorem powerUpAndDownBeginSequences : Obligations.PowerUpAndDownBeginSequences := by
  refine ⟨fun s q b ht hp hs => ?up, fun s q b ht hp hs => ?down⟩
  case up =>
    have hroute : exec (.powerUp b) s = .next ((taken s q).takePowerUp (noted s q b)) := exec_of_passes rfl ht hp
    rw [hroute]
    refine ⟨fun h => congrArg _ (takePowerUp_busy h), fun h => ⟨fun hf => congrArg _ (takePowerUp_faulted h hf),
      fun hf => ?_⟩⟩
    rw [takePowerUp_passes (s := taken s q) h hf]
    refine ⟨fun hnone => ?nothing, fun hsome => ?begins⟩
    case nothing =>
      rw [beginRise_nothing (s := taken s q) hnone]
      change (everyFeedOn s.supply → Host.Outcome.next (State.finishNow _ _ s.supply.riseOutcome.1
        s.supply.riseOutcome.2) = _) ∧ (¬everyFeedOn s.supply → Host.Outcome.next (State.finishNow _ _
        s.supply.riseOutcome.1 s.supply.riseOutcome.2) = _)
      rw [Supply.riseOutcome, faultMask_eq_faultsOf]
      refine ⟨fun hon => ?_, fun hon => ?_⟩
      · rw [if_pos ((allOn_iff _).2 hon)]; rfl
      · rw [if_neg (fun h => hon ((allOn_iff _).1 h))]; rfl
    case begins =>
      obtain ⟨m, j, hj, hb, hgo⟩ := beginRise_begins (s := taken s q) (c := noted s q b) hs hsome
      exact ⟨_, m, _, j, rfl, fun n => mem_offFeeds, hj, hb, hgo, rfl⟩
  case down =>
    have hroute : exec (.powerDown b) s = .next ((taken s q).takePowerDown (noted s q b)) := exec_of_passes rfl ht hp
    have hstate : (taken s q).supply = s.supply := rfl
    rw [hroute, State.takePowerDown]
    refine ⟨fun h => ?_, fun h => ?_, fun h => ?_, fun h => ?_⟩ <;> rw [hstate, h]
    · rw [faultMask_eq_faultsOf]
    · exact ⟨_, rfl, beginFall_begins hs⟩
    · rw [faultMask_eq_faultsOf]
      refine ⟨_, _, rfl, rfl, beginFall_begins ?_⟩
      simp only [finished_supply]
      exact ⟨hs.1, fun n hn => absurd hn List.not_mem_nil⟩

/-! ## The settings and the report -/

section settings

variable {s : State} {c : Ctx}

theorem takeConfigSupply_idle (h : s.supply.state = .down ∨ s.supply.state = .up) (interval : Nat)
    (mode : PowerDownMode) (policy : TripPolicy) :
    s.takeConfigSupply c interval mode policy =
      State.finishNow
        { s with supply := { s.supply with slotIntervalMs := 10 * interval, mode := mode, policy := policy } } c .ok
        0 :=
  if_neg (by rcases h with h | h <;> simp [h])

theorem takeClearFault_idle (h : s.supply.state = .down ∨ s.supply.state = .up) (mask : Nat) :
    s.takeClearFault c mask =
      State.finishNow { s with supply := s.supply.updateFeeds (s.supply.clears mask) Feed.switchOff } c .ok
        ((feedNumbers.map (fun n => if s.supply.clears mask n then 2 ^ n else 0)).sum) :=
  if_neg (by rcases h with h | h <;> simp [h])

theorem modeOf_getD {n : Nat} (h : (modeOf n).isSome = true) :
    (modeOf n).getD .sequential = if n = 0 then .sequential else .together := by
  match n, h with
  | 0, _ => rfl
  | 1, _ => rfl

theorem policyOf_getD {n : Nat} (h : (policyOf n).isSome = true) :
    (policyOf n).getD .isolate = if n = 0 then .isolate else .all := by
  match n, h with
  | 0, _ => rfl
  | 1, _ => rfl

/-- A record that passes meets every condition on its parameters (R165). -/
theorem paramChecks_of_passes {s : State} {k : Kind} {b : RecordBody} (h : passes s k b) :
    ∀ x ∈ paramChecks s.componentsAt k b, x.2 = true := by
  have hcheck : checkKind s.componentsAt k { kind := k.code, body := b } = .passed (requestOf k b) := by
    unfold passes formatCheck at h
    rw [show Kind.ofCode k.code = some k from Queues.ofCode_code k] at h
    exact h
  unfold checkKind at hcheck
  split at hcheck
  · cases hcheck
  · split at hcheck
    · cases hcheck
    · split at hcheck
      · cases hcheck
      · split at hcheck
        · cases hcheck
        case h_2 hnone =>
          unfold firstFailing at hnone
          intro x hx
          have := List.find?_eq_none.1 (Option.map_eq_none_iff.1 hnone) x hx
          simpa using this

/-- Bits of a sum of six distinct powers of two. -/
theorem sum_bits (p : Nat → Bool) :
    (feedNumbers.map (fun n => if p n then 2 ^ n else 0)).sum < 64 ∧
      ∀ n < 6, ((feedNumbers.map (fun n => if p n then 2 ^ n else 0)).sum).testBit n = p n := by
  have hbits : ∀ b0 b1 b2 b3 b4 b5 : Bool,
      ((if b0 then 1 else 0) + (if b1 then 2 else 0) + (if b2 then 4 else 0) + (if b3 then 8 else 0) +
        (if b4 then 16 else 0) + (if b5 then 32 else 0) : Nat) < 64 ∧
      ∀ n < 6, ((if b0 then 1 else 0) + (if b1 then 2 else 0) + (if b2 then 4 else 0) + (if b3 then 8 else 0) +
        (if b4 then 16 else 0) + (if b5 then 32 else 0) : Nat).testBit n = [b0, b1, b2, b3, b4, b5].getD n false := by
    decide
  rw [sum_feedNumbers]
  obtain ⟨hlt, hn⟩ := hbits (p 0) (p 1) (p 2) (p 3) (p 4) (p 5)
  refine ⟨hlt, fun n h => (hn n h).trans ?_⟩
  match n, h with
  | 0, _ | 1, _ | 2, _ | 3, _ | 4, _ | 5, _ => rfl

end settings

/-- Settles O26: each setting is taken in the states that allow it. -/
theorem feedAndSupplySettings : Obligations.FeedAndSupplySettings := by
  refine fun s q b ht => ⟨fun hp => ?feed, fun hp => ?supply, fun hp => ?clear⟩
  case feed =>
    have hroute : exec (.configFeed b) s =
        .next ((taken s q).takeConfigFeed (noted s q b) (field b 8 1) (field b 9 1) (field b 10 1)) :=
      exec_of_passes rfl ht hp
    rw [hroute]
    exact ⟨fun h => congrArg _ (if_pos h), fun h => congrArg _ (if_neg h)⟩
  case supply =>
    have hroute : exec (.configSupply b) s = .next ((taken s q).takeConfigSupply (noted s q b) (field b 8 1)
        ((modeOf (field b 9 1)).getD .sequential) ((policyOf (field b 10 1)).getD .isolate)) :=
      exec_of_passes rfl ht hp
    have hchecks := paramChecks_of_passes hp
    have hmode : (modeOf (field b 9 1)).isSome = true := hchecks (9, _) (.head _)
    have hpolicy : (policyOf (field b 10 1)).isSome = true := hchecks (10, _) (.tail _ (.head _))
    rw [hroute, modeOf_getD hmode, policyOf_getD hpolicy]
    exact ⟨fun h => congrArg _ (takeConfigSupply_idle (s := taken s q) h _ _ _), fun h => congrArg _ (if_pos h)⟩
  case clear =>
    have hroute : exec (.clearFault b) s = .next ((taken s q).takeClearFault (noted s q b) (field b 8 1)) :=
      exec_of_passes rfl ht hp
    rw [hroute]
    refine ⟨fun h => ⟨_, _, congrArg _ (takeClearFault_idle (s := taken s q) h _), updateFeeds_eq _ _ _, fun n => ?_,
      (sum_bits _).1, (sum_bits _).2⟩, fun h => congrArg _ (if_pos h)⟩
    simp only [feed_updateFeeds, Supply.clears, Bool.and_eq_true, decide_eq_true_eq]
    rfl

/-- Settles O27: the word is the sum that 11.3 gives. -/
theorem queryFeedsReportsTheSupply : Obligations.QueryFeedsReportsTheSupply := by
  intro s q b ht hp
  have hroute : exec (.queryFeeds b) s = .next ((taken s q).takeQueryFeeds (noted s q b)) := exec_of_passes rfl ht hp
  refine ⟨_, hroute, ?_⟩
  have hcode (f : Feed) : f.state.code = feedCode f := by
    unfold feedCode
    cases f.state <;> rfl
  change s.supply.feedsWord = _
  unfold Supply.feedsWord
  rw [sum_feedNumbers]
  simp only [hcode]
  cases s.supply.state <;> cases s.supply.policy <;> cases s.supply.mode <;>
    simp only [SequencerState.code, TripPolicy.code, PowerDownMode.code, reduceCtorEq, if_true, if_false] <;> omega

end Sys2Proof.Feeds
end

section
/-! PROOFS. The eleventh law with what keeps it (R146): what each move of the Supply Sequencer leaves of it. -/

namespace Sys2Proof.Feeds

open Machine Safety Claims

/-! ## The law, from the feeds at rest -/

/-- The law is about the Supply Sequencer alone. -/
theorem sequencerLaw_of_supply_eq {s t : State} (h : t.supply = s.supply) (hs : sequencerLaw s) : sequencerLaw t := by
  unfold sequencerLaw eleventhLaw at hs ⊢
  rwa [h]

theorem legalSlots_of_law {s : State} (h : sequencerLaw s) : legalSlots s.supply := by
  obtain ⟨-, hslots, -, -, -, -, -, hset⟩ := h
  exact ⟨hslots, hset⟩

/-- A feed rests, or it is enabled. -/
theorem resting_iff_not_enabled (f : Feed) : resting f ↔ ¬isEnabled f := by
  unfold resting isEnabled
  cases f.state <;> simp

theorem resting_switchedOff (f : Feed) : resting (switchedOff f) := .inl rfl

theorem not_ramping_of_resting {f : Feed} (h : resting f) : f.state ≠ .ramping := fun hr =>
  (resting_iff_not_enabled f).1 h (.inl hr)

/-- What a sequence needs to begin: legal slots, and unsequenced feeds at rest. -/
def ready (u : Supply) : Prop := legalSlots u ∧ ∀ n < 6, (u.feed n).slot = 0 → resting (u.feed n)

theorem ready_of_law {s : State} (h : sequencerLaw s) : ready s.supply := by
  have hlegal := legalSlots_of_law h
  obtain ⟨-, -, -, -, -, hzero, -, -⟩ := h
  exact ⟨hlegal, hzero⟩

/-- In DOWN the law says that the feeds rest. -/
theorem law_of_down {s : State} (hd : s.supply.state = .down) (h : legalSlots s.supply)
    (hrest : ∀ n < 6, resting (s.supply.feed n)) : sequencerLaw s := by
  refine ⟨⟨?_, ?_⟩, h.1, fun n hn hr => absurd hr (not_ramping_of_resting (hrest n hn)), ?_, fun _ => hrest,
    fun n hn _ => hrest n hn, ?_, h.2⟩ <;> intro hf <;> rw [hd] at hf <;> cases hf

/-- In UP it says that no feed is RAMPING, and that unsequenced feeds rest. -/
theorem law_of_up {s : State} (hup : s.supply.state = .up) (h : ready s.supply)
    (hramp : ∀ n < 6, (s.supply.feed n).state ≠ .ramping) : sequencerLaw s := by
  refine ⟨⟨?_, ?_⟩, h.1.1, fun n hn hr => absurd hr (hramp n hn), ?_, ?_, h.2, ?_, h.1.2⟩ <;> intro hf <;>
    rw [hup] at hf <;> cases hf

/-- In RISING every RAMPING feed is of the rise set, at the slot that the rise has reached. -/
theorem law_of_rising {s : State} (hr : s.supply.state = .rising) (h : ready s.supply)
    (hramp : ∀ n < 6, (s.supply.feed n).state = .ramping →
      n ∈ s.supply.riseSet ∧ (s.supply.feed n).slot = s.supply.currentSlot) : sequencerLaw s := by
  refine ⟨⟨fun _ n hn hlt hn' => ?_, ?_⟩, h.1.1, fun n hn hn' => .inl ⟨hr, hramp n hn hn'⟩, ?_, ?_, h.2, ?_, h.1.2⟩
  · have := (hramp n hn hn').2
    omega
  all_goals intro hf; rw [hr] at hf; cases hf

/-- In FALLING the feeds rest from the slot that the fall has reached upward, and TOGETHER stands at slot 0. -/
theorem law_of_falling {s : State} (hf : s.supply.state = .falling) (h : ready s.supply)
    (hrest : ∀ n < 6, s.supply.currentSlot ≤ (s.supply.feed n).slot → resting (s.supply.feed n))
    (hmode : s.supply.mode = .together → s.supply.currentSlot = 0) : sequencerLaw s := by
  refine ⟨⟨?_, fun _ n hn hlt => hrest n hn (by omega)⟩, h.1.1, fun n hn hn' => .inr ⟨hf, ?_⟩, fun _ => hrest, ?_, h.2,
    fun _ => hmode, h.1.2⟩
  · intro hr; rw [hf] at hr; cases hr
  · by_contra hle
    exact not_ramping_of_resting (hrest n hn (by omega)) hn'
  · intro hd; rw [hf] at hd; cases hd

/-- In FALLING, what the law says of the slots that the fall has reached. -/
theorem resting_of_falling {s : State} (h : sequencerLaw s) (hf : s.supply.state = .falling) :
    (∀ n < 6, s.supply.currentSlot ≤ (s.supply.feed n).slot → resting (s.supply.feed n)) ∧
      (s.supply.mode = .together → s.supply.currentSlot = 0) := by
  obtain ⟨-, -, -, hrest, -, -, hmode, -⟩ := h
  exact ⟨hrest hf, hmode hf⟩

/-- Outside RISING and FALLING no feed is RAMPING. -/
theorem not_ramping_of_idle {s : State} (h : sequencerLaw s) (hi : s.supply.state = .down ∨ s.supply.state = .up) :
    ∀ n < 6, (s.supply.feed n).state ≠ .ramping := by
  obtain ⟨-, -, hramp, -, -, -, -, -⟩ := h
  intro n hn hr
  rcases hramp n hn hr with ⟨hs, -⟩ | ⟨hs, -⟩ <;> rcases hi with hi | hi <;> rw [hi] at hs <;> cases hs

/-- In RISING, where the RAMPING feeds are. -/
theorem ramping_of_rising {s : State} (h : sequencerLaw s) (hr : s.supply.state = .rising) :
    ∀ n < 6, (s.supply.feed n).state = .ramping → n ∈ s.supply.riseSet ∧ (s.supply.feed n).slot = s.supply.currentSlot := by
  obtain ⟨-, -, hramp, -, -, -, -, -⟩ := h
  intro n hn hn'
  rcases hramp n hn hn' with ⟨-, hset⟩ | ⟨hs, -⟩
  · exact hset
  · rw [hr] at hs; cases hs

/-- Once the current slot of a rise completes, no feed is RAMPING. -/
theorem not_ramping_of_slotDone {s : State} (h : sequencerLaw s) (hr : s.supply.state = .rising)
    (hd : slotDone s.supply) : ∀ n < 6, (s.supply.feed n).state ≠ .ramping := by
  intro n hn hn'
  obtain ⟨hset, hslot⟩ := ramping_of_rising h hr n hn hn'
  rcases hd.2 n hset hslot with hon | ⟨-, hfault⟩
  · rw [hn'] at hon; cases hon
  · rw [hn'] at hfault; cases hfault

/-! ## A rise goes on -/

/-- A slot that begins, with no feed RAMPING before. -/
theorem law_of_slotBegins {s m : State} {j k : Nat} (h : ready s.supply) (hj : nextUp s.supply k j)
    (hramp : ∀ n < 6, (s.supply.feed n).state ≠ .ramping) (hb : slotBegins s m j) : sequencerLaw m := by
  have hlegal := legalSlots_of_slotBegins hb h.1
  obtain ⟨hm, hramped, hkept⟩ := hb
  have hset : m.supply.riseSet = s.supply.riseSet := by rw [hm]
  have hcur : m.supply.currentSlot = j := by rw [hm]
  refine law_of_rising (by rw [hm]) ⟨hlegal, fun n hn hs => ?_⟩ fun n hn hn' => ?_
  · by_cases hp : n ∈ s.supply.riseSet ∧ (s.supply.feed n).slot = j
    · rw [hramped n hp] at hs
      have hsj : (s.supply.feed n).slot = 0 := hs
      have := hj.1
      omega
    · rw [hkept n hp] at hs ⊢
      exact h.2 n hn hs
  · by_cases hp : n ∈ s.supply.riseSet ∧ (s.supply.feed n).slot = j
    · rw [hramped n hp, hset, hcur]
      exact hp
    · rw [hkept n hp] at hn'
      exact absurd hn' (hramp n hn)

theorem law_of_risen {s : State} (h : sequencerLaw s) (hr : s.supply.state = .rising) (hd : slotDone s.supply)
    (o : Option Owed) (x : Status) (d : Nat) : sequencerLaw (finished { s with supply := risen s.supply } o x d) := by
  refine sequencerLaw_of_supply_eq (finished_supply _ o x d) (law_of_up (s := { s with supply := risen s.supply }) rfl ?_
    (not_ramping_of_slotDone (s := s) h hr hd))
  have hready := ready_of_law h
  exact ⟨⟨hready.1.1, fun n hn => absurd hn List.not_mem_nil⟩, hready.2⟩

/-- A rise that goes on keeps the law (R147). -/
theorem law_of_riseGoesOn {s t : State} (hgo : RiseGoesOn s t) : sequencerLaw s → sequencerLaw t := by
  induction hgo with
  | waits s _ => exact id
  | next s m t j hs hd hj hb _ ih =>
    exact fun h => ih (law_of_slotBegins (ready_of_law h) hj (not_ramping_of_slotDone h hs hd) hb)
  | endsGood s hs hd _ _ => exact fun h => law_of_risen h hs hd _ _ _
  | endsFaulted s hs hd _ _ => exact fun h => law_of_risen h hs hd _ _ _

/-! ## A fall goes on -/

/-- An enabled feed of slots 1 to `k` gives a slot to fall to. -/
theorem exists_nextDown {u : Supply} {k n : Nat} (hn : n < 6) (he : isEnabled (u.feed n)) (h1 : 1 ≤ (u.feed n).slot)
    (hk : (u.feed n).slot ≤ k) : ∃ j, nextDown u k j := by
  cases h : u.highestEnabled k with
  | some j => exact ⟨j, nextDown_of_highestEnabled h⟩
  | none =>
    have := highestEnabled_none h n hn he hk
    omega

theorem law_of_comesDown {s : State} (h : legalSlots s.supply) (hrest : ∀ n < 6, resting (s.supply.feed n)) :
    sequencerLaw (comesDown s) :=
  sequencerLaw_of_supply_eq (finished_supply _ _ _ _) (law_of_down
    (s := { s with supply := { s.supply with state := .down, currentSlot := 0, interval := none, fall := none } })
    rfl h hrest)

/-- What a falling step leaves of feed `n`: it rests if the step switches it off. -/
theorem resting_of_stepFalls {s m : State} {c : Nat} {p : Feed → Prop} (hb : stepFalls s m c p) {n : Nat} (hn : n < 6)
    (h : isEnabled (s.supply.feed n) → p (s.supply.feed n)) : resting (m.supply.feed n) := by
  obtain ⟨-, hoff, hkept⟩ := hb
  by_cases he : isEnabled (s.supply.feed n)
  · rw [hoff n hn ⟨h he, he⟩]
    exact resting_switchedOff _
  · rw [hkept n (he ·.2.2)]
    exact (resting_iff_not_enabled _).2 he

theorem slot_of_stepFalls {s m : State} {c : Nat} {p : Feed → Prop} (hb : stepFalls s m c p) (n : Nat) :
    (m.supply.feed n).slot = (s.supply.feed n).slot := by
  obtain ⟨-, hoff, hkept⟩ := hb
  by_cases hp : n < 6 ∧ p (s.supply.feed n) ∧ isEnabled (s.supply.feed n)
  · rw [hoff n hp.1 hp.2]; rfl
  · rw [hkept n hp]

/-- A falling step keeps the law where it switches off all that is enabled from its slot upward. -/
theorem law_of_stepFalls {s m : State} {c : Nat} {p : Feed → Prop} (h : ready s.supply) (hb : stepFalls s m c p)
    (hall : ∀ n < 6, c ≤ (s.supply.feed n).slot → isEnabled (s.supply.feed n) → p (s.supply.feed n))
    (hmode : s.supply.mode = .together → c = 0) : sequencerLaw m := by
  have hlegal := legalSlots_of_stepFalls hb h.1
  have hslot := slot_of_stepFalls hb
  have hm := hb.1
  have hcur : m.supply.currentSlot = c := by rw [hm]
  have hmm : m.supply.mode = s.supply.mode := by rw [hm]
  refine law_of_falling (by rw [hm]) ⟨hlegal, fun n hn hs => ?_⟩ (fun n hn hle => ?_) (by rw [hcur, hmm]; exact hmode)
  · rw [hslot] at hs
    exact resting_of_stepFalls hb hn fun he => absurd he ((resting_iff_not_enabled _).1 (h.2 n hn hs))
  · rw [hcur, hslot] at hle
    exact resting_of_stepFalls hb hn (hall n hn hle)

/-- A fall that goes on keeps the law (R149). -/
theorem law_of_fallGoesOn {s t : State} (hgo : FallGoesOn s t) : sequencerLaw s → sequencerLaw t := by
  induction hgo with
  | waits s _ => exact id
  | next s m t i j hs _ _ hm hj hb _ ih =>
    intro h
    obtain ⟨hrest, -⟩ := resting_of_falling h hs
    refine ih (law_of_stepFalls (ready_of_law h) hb (fun n hn hle he => ?_) fun ht => by rw [hm] at ht; cases ht)
    obtain ⟨-, -, hmax⟩ := hj
    by_cases hlt : (s.supply.feed n).slot ≤ s.supply.currentSlot - 1
    · exact le_antisymm (hmax n hn he hlt) hle
    · exact absurd he ((resting_iff_not_enabled _).1 (hrest n hn (by omega)))
  | ends s i hs _ _ hm =>
    intro h
    obtain ⟨hrest, hmode⟩ := resting_of_falling h hs
    have hready := ready_of_law h
    refine law_of_comesDown hready.1 fun n hn => ?_
    by_contra hno
    have he : isEnabled (s.supply.feed n) := by
      by_contra he
      exact hno ((resting_iff_not_enabled _).2 he)
    have h1 : (s.supply.feed n).slot ≠ 0 := fun h0 => hno (hready.2 n hn h0)
    have hlt : (s.supply.feed n).slot < s.supply.currentSlot := by
      by_contra hle
      exact hno (hrest n hn (by omega))
    rcases hm with hm | hm
    · have := hmode hm; omega
    · obtain ⟨j, hj⟩ := exists_nextDown (k := s.supply.currentSlot - 1) hn he (by omega) (by omega)
      exact hm j hj

/-- A fall that begins leaves the law, from any state that is ready for it (R149). -/
theorem law_of_fallBegins {s t : State} (hgo : FallBegins s t) (h : ready s.supply) : sequencerLaw t := by
  cases hgo with
  | nothing hno =>
    refine law_of_comesDown h.1 fun n hn => ?_
    by_contra hn'
    have he : isEnabled (s.supply.feed n) := by
      by_contra he
      exact hn' ((resting_iff_not_enabled _).2 he)
    have h1 : (s.supply.feed n).slot ≠ 0 := fun h0 => hn' (h.2 n hn h0)
    obtain ⟨j, hj⟩ := exists_nextDown (k := 8) hn he (by omega) (h.1.1 n hn)
    exact hno j hj
  | sequential m _ j hm hj hb hg =>
    refine law_of_fallGoesOn hg (law_of_stepFalls h hb (fun n hn hle he => ?_) fun ht => by rw [hm] at ht; cases ht)
    exact le_antisymm (hj.2.2 n hn he (h.1.1 n hn)) hle
  | together m _ j hm hj hb hg =>
    refine law_of_fallGoesOn hg (law_of_stepFalls h hb (fun n hn _ he => ?_) fun _ => rfl)
    by_contra h1
    exact (resting_iff_not_enabled _).1 (h.2 n hn (by omega)) he

/-! ## Feeds that change, and what follows -/

/-- A feed that changes its good input, or its deadline and its cause with it, is of the same state and slot: the law
stays. A RAMPING or ON feed that becomes ON or enters FAULT keeps it too. -/
theorem law_setFeed {s : State} (h : sequencerLaw s) (n : Nat) (f : Feed) (hslot : f.slot = (s.supply.feed n).slot)
    (hstate : f.state = (s.supply.feed n).state ∨ f.state = .fault ∨
      (f.state = .on ∧ (s.supply.feed n).state = .ramping)) :
    sequencerLaw { s with supply := s.supply.setFeed n f } := by
  have hslots (m : Nat) : ((s.supply.setFeed n f).feed m).slot = (s.supply.feed m).slot := by
    rw [Supply.feed_setFeed]
    split
    case isTrue hm => rw [hslot, hm]
    case isFalse => rfl
  have hrest (m : Nat) (hm : resting (s.supply.feed m)) : resting ((s.supply.setFeed n f).feed m) := by
    rw [Supply.feed_setFeed]
    split
    case isTrue hmn =>
      subst hmn
      rcases hstate with he | he | ⟨-, hr⟩
      · unfold resting at hm ⊢; rwa [he]
      · exact .inr he
      · exact absurd hr (not_ramping_of_resting hm)
    case isFalse => exact hm
  have hramp (m : Nat) (hm : ((s.supply.setFeed n f).feed m).state = .ramping) : (s.supply.feed m).state = .ramping := by
    rw [Supply.feed_setFeed] at hm
    split at hm
    case isTrue hmn =>
      subst hmn
      rcases hstate with he | he | ⟨he, -⟩ <;> rw [he] at hm
      · exact hm
      · cases hm
      · cases hm
    case isFalse => exact hm
  have hready : ready (s.supply.setFeed n f) := by
    have hr := ready_of_law h
    refine ⟨⟨fun m hm => ?_, hr.1.2⟩, fun m hm h0 => ?_⟩
    · rw [hslots]; exact hr.1.1 m hm
    · rw [hslots] at h0; exact hrest m (hr.2 m hm h0)
  cases hs : s.supply.state with
  | down =>
    obtain ⟨-, -, -, -, hdown, -, -, -⟩ := h
    exact law_of_down hs hready.1 fun m hm => hrest m (hdown hs m hm)
  | up =>
    exact law_of_up hs hready fun m hm hr => not_ramping_of_idle h (.inr hs) m hm (hramp m hr)
  | rising =>
    refine law_of_rising hs hready fun m hm hr => ?_
    have := ramping_of_rising h hs m hm (hramp m hr)
    rwa [← hslots m] at this
  | falling =>
    obtain ⟨hr, hmode⟩ := resting_of_falling h hs
    exact law_of_falling hs hready (fun m hm hle => hrest m (hr m hm (by rwa [← hslots m]))) hmode

/-- A trip keeps the law (R148). -/
theorem law_of_trips {s t : State} {n : Nat} (h : sequencerLaw s) (ht : trips s t n) : sequencerLaw t := by
  have hready := ready_of_law h
  obtain ⟨d, -, hrising, hother⟩ := ht
  by_cases hr : s.supply.state = .rising
  · obtain ⟨m, hm, hgo⟩ := hrising hr
    refine law_of_fallBegins hgo ?_
    rw [hm]
    simp only [finished_supply]
    exact ⟨⟨hready.1.1, fun n hn => absurd hn List.not_mem_nil⟩, hready.2⟩
  · exact law_of_fallBegins (hother hr) hready

/-- So does a fault with what follows it (R145). -/
theorem law_of_faultFollows {s t : State} {n : Nat} {cause : FaultCause} (h : sequencerLaw s)
    (ht : faultFollows s t n cause) : sequencerLaw t := by
  obtain ⟨m, hm, hisolate, hall, hnone⟩ := ht
  have hlaw : sequencerLaw m :=
    sequencerLaw_of_supply_eq (by rw [hm]; rfl)
      (law_setFeed h n { s.supply.feed n with state := .fault, deadline := none, cause := some cause } rfl (.inr (.inl rfl)))
  have hstate : m.supply.state = s.supply.state := by rw [hm]; rfl
  cases hs : s.supply.state <;> cases hp : s.supply.policy
  case rising.isolate => exact law_of_riseGoesOn (hisolate ⟨hs, hp⟩) hlaw
  case rising.all => exact law_of_trips hlaw (hall ⟨.inl hs, hp⟩)
  case up.all => exact law_of_trips hlaw (hall ⟨.inr hs, hp⟩)
  case up.isolate => rw [hnone (.inr (.inr ⟨hs, hp⟩))]; exact hlaw
  case down.isolate | down.all => rw [hnone (.inl hs)]; exact hlaw
  case falling.isolate | falling.all => rw [hnone (.inr (.inl hs))]; exact hlaw

/-! ## The operations of the sequencer -/

section operations

variable {s : State} (h : sequencerLaw s)
include h

theorem goodAsserted_law (n : Nat) : sequencerLaw (s.goodAsserted n) := by
  unfold State.goodAsserted
  dsimp only
  split
  case isTrue hr =>
    have hlaw := law_setFeed h n { s.supply.feed n with state := .on, deadline := none, good := true } rfl
      (.inr (.inr ⟨rfl, hr⟩))
    exact law_of_riseGoesOn (riseProgress_goesOn (legalSlots_of_law hlaw)) hlaw
  case isFalse => exact law_setFeed h n _ rfl (.inl rfl)

theorem goodDeasserted_law (n : Nat) : sequencerLaw (s.goodDeasserted n) := by
  unfold State.goodDeasserted
  dsimp only
  have hlaw := law_setFeed h n { s.supply.feed n with good := false } rfl (.inl rfl)
  split
  case isTrue => exact law_of_faultFollows hlaw (feedFault_follows (legalSlots_of_law hlaw) n .dropped)
  case isFalse => exact hlaw

theorem goodTimeout_law (n : Nat) : sequencerLaw (s.goodTimeout n) := by
  unfold State.goodTimeout
  split
  case isTrue => exact law_of_faultFollows h (feedFault_follows (legalSlots_of_law h) n .timeout)
  case isFalse => exact h

/-- The law does not look at the interval. -/
theorem reachInterval_law : sequencerLaw { s with supply := s.supply.reachInterval } := h

theorem riseIntervalEnds_law : sequencerLaw s.riseIntervalEnds := by
  unfold State.riseIntervalEnds
  split
  case isTrue =>
    have hlaw := reachInterval_law h
    exact law_of_riseGoesOn (riseProgress_goesOn (legalSlots_of_law hlaw)) hlaw
  case isFalse => exact h

theorem fallIntervalEnds_law : sequencerLaw s.fallIntervalEnds := by
  unfold State.fallIntervalEnds
  split
  case isTrue =>
    have hlaw := reachInterval_law h
    exact law_of_fallGoesOn (fallOn_nine_goesOn (legalSlots_of_law hlaw)) hlaw
  case isFalse => exact h

theorem finishNow_law (c : Ctx) (x : Status) (d : Nat) : sequencerLaw (s.finishNow c x d) :=
  sequencerLaw_of_supply_eq (State.finishNow_supply s c x d) h

theorem takeConfigFeed_law (c : Ctx) {n slot : Nat} (hslot : slot ≤ 8) (timeout : Nat) :
    sequencerLaw (s.takeConfigFeed c n slot timeout) := by
  unfold State.takeConfigFeed
  split
  case isFalse => exact finishNow_law h c _ _
  case isTrue hd =>
    have hready := ready_of_law h
    obtain ⟨-, -, -, -, hdown, -, -, -⟩ := h
    let f : Feed := { s.supply.feed n with slot := slot, timeoutMs := 10 * timeout }
    refine finishNow_law (s := { s with supply := s.supply.setFeed n f })
      (law_of_down hd ⟨fun m hm => ?_, hready.1.2⟩ fun m hm => ?_) c _ _ <;>
      simp only [Supply.feed_setFeed] <;> split
    · exact hslot
    · exact hready.1.1 m hm
    case isTrue hmn => subst hmn; exact hdown hd m hm
    case isFalse => exact hdown hd m hm

theorem takeConfigSupply_law (c : Ctx) (interval : Nat) (mode : PowerDownMode) (policy : TripPolicy) :
    sequencerLaw (s.takeConfigSupply c interval mode policy) := by
  unfold State.takeConfigSupply
  split
  case isTrue => exact finishNow_law h c _ _
  case isFalse hidle =>
    have hready := ready_of_law h
    refine finishNow_law ?_ c _ _
    cases hs : s.supply.state with
    | down =>
      obtain ⟨-, -, -, -, hdown, -, -, -⟩ := h
      exact law_of_down hs hready.1 (hdown hs)
    | up => exact law_of_up hs hready (not_ramping_of_idle (s := s) h (.inr hs))
    | rising => exact absurd (.inl hs) hidle
    | falling => exact absurd (.inr hs) hidle

theorem takeClearFault_law (c : Ctx) (mask : Nat) : sequencerLaw (s.takeClearFault c mask) := by
  unfold State.takeClearFault
  split
  case isTrue => exact finishNow_law h c _ _
  case isFalse hidle =>
    have hready := ready_of_law h
    have hfeed (n : Nat) := feed_updateFeeds (s.supply.clears mask) Feed.switchOff s.supply n
    have hslot (n : Nat) :
        ((s.supply.updateFeeds (s.supply.clears mask) Feed.switchOff).feed n).slot = (s.supply.feed n).slot := by
      rw [hfeed]; split <;> rfl
    have hrest (n : Nat) (hn : resting (s.supply.feed n)) :
        resting ((s.supply.updateFeeds (s.supply.clears mask) Feed.switchOff).feed n) := by
      rw [hfeed]; split
      · exact .inl rfl
      · exact hn
    have hramp (n : Nat) (hn : (s.supply.feed n).state ≠ .ramping) :
        ((s.supply.updateFeeds (s.supply.clears mask) Feed.switchOff).feed n).state ≠ .ramping := by
      rw [hfeed]; split
      · exact nofun
      · exact hn
    have hset : ∀ n ∈ (s.supply.updateFeeds (s.supply.clears mask) Feed.switchOff).riseSet, n < 6 := by
      rw [updateFeeds_eq]; exact hready.1.2
    have hready' : ready (s.supply.updateFeeds (s.supply.clears mask) Feed.switchOff) :=
      ⟨⟨fun n hn => by rw [hslot]; exact hready.1.1 n hn, hset⟩, fun n hn h0 => by
        rw [hslot] at h0; exact hrest n (hready.2 n hn h0)⟩
    have hstate : (s.supply.updateFeeds (s.supply.clears mask) Feed.switchOff).state = s.supply.state := by
      rw [updateFeeds_eq]
    refine finishNow_law ?_ c _ _
    cases hs : s.supply.state with
    | down =>
      obtain ⟨-, -, -, -, hdown, -, -, -⟩ := h
      exact law_of_down (hstate.trans hs) hready'.1 fun n hn => hrest n (hdown hs n hn)
    | up => exact law_of_up (hstate.trans hs) hready' fun n hn => hramp n (not_ramping_of_idle h (.inr hs) n hn)
    | rising => exact absurd (.inl hs) hidle
    | falling => exact absurd (.inr hs) hidle

theorem takePowerUp_law (c : Ctx) : sequencerLaw (s.takePowerUp c) := by
  unfold State.takePowerUp
  split
  case isTrue => exact finishNow_law h c _ _
  case isFalse hidle =>
    have hready := ready_of_law h
    have hidle : s.supply.state = .down ∨ s.supply.state = .up := by
      cases hs : s.supply.state <;> simp_all
    have hramp := not_ramping_of_idle h hidle
    split
    case isTrue => exact finishNow_law h c _ _
    case isFalse =>
      by_cases hnone : ∀ n < 6, 1 ≤ (s.supply.feed n).slot → (s.supply.feed n).state ≠ .off
      · rw [beginRise_nothing hnone]
        exact finishNow_law (law_of_up (s := { s with supply := { s.supply with state := .up } }) rfl hready hramp) c _ _
      · push Not at hnone
        obtain ⟨m, j, hj, hb, hgo⟩ := beginRise_begins (c := c) hready.1 hnone
        exact law_of_riseGoesOn hgo (law_of_slotBegins (s := { s with supply := rising s.supply c }) ⟨legalSlots_rising hready.1, hready.2⟩ hj hramp hb)

theorem takePowerDown_law (c : Ctx) : sequencerLaw (s.takePowerDown c) := by
  have hready := ready_of_law h
  unfold State.takePowerDown
  dsimp only
  split
  · exact finishNow_law h c _ _
  · exact finishNow_law h c _ _
  · refine law_of_fallBegins (beginFall_begins ?_) ?_ <;> simp only [finishSequence_eq_finished, finished_supply]
    · exact ⟨hready.1.1, fun n hn => absurd hn List.not_mem_nil⟩
    · exact ⟨⟨hready.1.1, fun n hn => absurd hn List.not_mem_nil⟩, hready.2⟩
  · exact law_of_fallBegins (beginFall_begins hready.1) hready

end operations

end Sys2Proof.Feeds
end

section
/-! PROOFS. Cold reset, the laws that hold after it, and the resets of the host interface (R18, R34, R51, R99, R118,
R129, R140, R158, R159, R174). -/

namespace Sys2Proof.Resets

open Machine Safety Claims

/-- Cold reset keeps the level of a feed's good input alone (log entry 7). -/
theorem feed_coldReset {s : State} (h : s.supply.feeds.wf Feed.atReset = true) (n : Nat) :
    s.coldReset.supply.feed n = (s.supply.feed n).coldReset :=
  Table.get_mapCells Feed.atReset (fun _ f => f.coldReset) _ n rfl h

/-- Settles O3: cold reset writes each block's reset value. -/
theorem coldResetReturnsEveryBlock : Obligations.ColdResetReturnsEveryBlock := by
  intro s hc
  obtain ⟨-, -, -, -, -, -, hfeeds, -⟩ := hc
  exact ⟨s.coldReset, rfl, fun _ => rfl, fun _ => rfl, rfl, rfl, rfl, rfl, fun _ => rfl, fun _ => rfl, rfl, fun _ => rfl,
    rfl, rfl, rfl, rfl, fun _ => rfl, rfl, feed_coldReset hfeeds, rfl, rfl, rfl⟩

/-! ## The laws right after cold reset -/

theorem canonical_reset : canonical State.reset := by
  refine ⟨?_, ?_, ?_, ?_, ?_, ?_, ?_, ?_, ?_⟩ <;> rfl

/-- No slot is IN_USE and no channel is FADING: the show's laws have nothing to say. -/
theorem showLaws_reset : showLaws State.reset := by
  refine ⟨fun k => ⟨nofun, nofun⟩, fun i => ⟨rfl, fun h => absurd rfl h⟩, nofun, fun i => ?_, ?_⟩
  · exact ⟨List.nodup_nil, nofun, show 0 = (0 + 15) / 16 by decide, fun _ => rfl, nofun⟩
  · exact ⟨Nat.zero_le 4, List.nodup_nil, nofun, fun i => ⟨nofun, nofun⟩, fun n => ⟨nofun, nofun⟩, nofun, .nil, nofun⟩

theorem sequencerLaw_reset : sequencerLaw State.reset :=
  ⟨⟨nofun, nofun⟩, fun _ _ => Nat.zero_le 8, nofun, nofun, fun _ _ _ => .inl rfl, fun _ _ _ => .inl rfl, nofun, nofun⟩

/-- Settles O4: the state after cold reset holds nothing, waits for nothing, and is OFF. -/
theorem lawsHoldAfterReset : Obligations.LawsHoldAfterReset :=
  ⟨canonical_reset, rfl, fun _ => ⟨Nat.zero_le 16, Nat.zero_le 4⟩, fun _ => Nat.le_refl 0, ⟨Nat.zero_le 128, nofun⟩,
    ⟨Nat.zero_le 32, .nil⟩, sequencerLaw_reset, .nil, ⟨⟨by decide, by decide⟩, ⟨by decide, by decide⟩, nofun⟩,
    ⟨fun _ => ⟨rfl, rfl, rfl, rfl, rfl, fun _ => rfl, fun _ => rfl⟩, nofun, fun h => absurd rfl h⟩,
    ⟨by decide, fun _ => Nat.zero_lt_succ _, fun _ => Nat.zero_lt_succ _⟩, showLaws_reset⟩

/-! ## CONTROL.ENABLE and the link (R159, R174) -/

/-- Turning the interface off is a host interface reset that leaves it OFF with ENABLE 0. -/
theorem turnOff_resets {s : State} (hc : canonical s) :
    blocksReset s s.turnOff ∧ unitReset s.host s.turnOff.host ∧ s.turnOff.host.state = .off ∧
      s.turnOff.host.enable = false ∧ s.turnOff.host.intCause = 0 ∧ s.turnOff.host.haltCode = s.host.haltCode ∧
      s.turnOff.host.haltQueue = s.host.haltQueue := by
  rw [State.turnOff_eq]
  refine ⟨Queues.blocksReset_host (Queues.hostInterfaceReset_blocks hc) _, ?_⟩
  rw [Queues.hostInterfaceReset_host]
  exact ⟨⟨fun _ => rfl, fun _ => rfl, rfl, rfl, rfl, rfl, rfl, rfl, rfl, rfl⟩, rfl, rfl, rfl, rfl, rfl⟩

/-- Settles O5: LINK_RESET turns the interface off, and ENABLE written 0 does so unless it is OFF already. -/
theorem enableAndLinkResetMoveTheInterface : Obligations.EnableAndLinkResetMoveTheInterface := by
  refine fun s hc => ⟨fun hoff => ⟨congrArg Host.Outcome.next (if_pos hoff), congrArg Host.Outcome.next (if_pos hoff)⟩,
    fun hother => congrArg Host.Outcome.next (if_neg hother), s.turnOff, rfl,
    fun hother => congrArg Host.Outcome.next (if_neg hother), turnOff_resets hc⟩

/-! ## The latch (R2) -/

/-- The safe look writes the event list alone. -/
theorem raiseSafe_events (s : State) (n : Nat) (before sample : Bool) :
    ∃ l, s.raiseSafe n before sample = { s with host := { s.host with events := l } } := by
  by_cases h : sample = before
  · subst h
    exact ⟨s.host.events, Frames.raiseSafe_same s n sample⟩
  · rw [Frames.raiseSafe_changed s n h]
    obtain ⟨l, hl⟩ := HostUnit.raiseEvent_eq s.host
      { kind := if sample then .safeEntered else .safeLeft, object := 0, frame := BitVec.ofNat 32 n, detail := 0 }
    exact ⟨l, congrArg (fun u => { s with host := u }) hl⟩

theorem latchFrame_arbiter (s : State) (safe : Bool) :
    (s.latchFrame safe).arbiter.channels = s.writeLastLevels s.clock.frame := by
  obtain ⟨l, hl⟩ := raiseSafe_events (Frames.latched s safe) s.clock.frame s.clock.safe safe
  exact congrArg (fun t : State => t.arbiter.channels) hl

/-- A latch keeps every entry's holding, and writes its engine level. -/
theorem channel_latchFrame {s : State} (hc : canonical s) (safe : Bool) (c : Nat) :
    (s.latchFrame safe).arbiter.channel c =
      { s.arbiter.channel c with last := s.engineLevel s.clock.frame c (s.arbiter.channel c) } := by
  obtain ⟨hwf, -⟩ := hc
  rw [Arbiter.channel, latchFrame_arbiter]
  exact Table.get_mapCells Channel.dark _ s.arbiter.channels c rfl hwf

/-- Settles O33: the last level is the engine level, which is the level of the entry's holding. -/
theorem latchWritesLastLevels : Obligations.LatchWritesLastLevels := by
  intro safe s hc
  obtain ⟨l, hl⟩ := raiseSafe_events (Frames.latched s safe) s.clock.frame s.clock.safe safe
  have hlast (c : Nat) : ((s.latchFrame safe).arbiter.channel c).last = s.engineLevel s.clock.frame c (s.arbiter.channel c) :=
    congrArg Channel.last (channel_latchFrame hc safe c)
  refine ⟨s.latchFrame safe, rfl, fun c => by rw [channel_latchFrame hc], fun c level h => ?_, fun c p q level h => ?_,
    fun c p q k a b r h hk => ?_, fun c g q d r h hg => ?_, ?_⟩
  case refine_5 =>
    rw [Frames.latchFrame_eq]
    rw [show (Frames.latched s safe).raiseSafe (Frames.latched s safe).clock.frame s.clock.safe safe = _ from hl]
    exact ⟨rfl, rfl, rfl, rfl, rfl, rfl, rfl, rfl, rfl, rfl⟩
  all_goals rw [hlast, State.engineLevel, h]
  · simp only [hk]
  · simp only [hg]

end Sys2Proof.Resets
end

section
/-! PROOFS. The requests of the Scene Store and LOAD_BAND, at intake (R20, R21, R24, R27, R29, R30, R91). -/

namespace Sys2Proof.Stores

open Machine Safety Claims Playbacks

theorem blocksFor_eq_blocksNeeded (n : Nat) : blocksFor n = blocksNeeded n := by
  unfold blocksFor blocksNeeded
  split <;> omega

/-- A load joins the tail, FETCHING if the queue was empty (R24). -/
theorem loads_joinQueue (t : SceneStore) (l : Load) : (t.joinQueue l).loads = queued t.loads l := by
  unfold SceneStore.joinQueue queued
  cases t.loads <;> rfl

/-! ## LOAD_SCENE (R27) -/

section loadScene

variable {s : State} {id count : Nat}

theorem takeLoadScene_refused {x : Status} {d : Nat} (h : s.store.loadSceneRefusal id count = some (x, d)) (c : Ctx)
    (a : HostAddress) : s.takeLoadScene c id count a = s.finishNow c x d := by
  rw [State.takeLoadScene, h]

theorem takeLoadScene_accepted (h : s.store.loadSceneRefusal id count = none) (c : Ctx) (a : HostAddress) :
    s.takeLoadScene c id count a = { s with store := s.store.acceptLoadScene c id count a } := by
  rw [State.takeLoadScene, h]

theorem loadSceneRefusal_loading (h : (s.store.scene id).state = .loading) :
    s.store.loadSceneRefusal id count = some (.busy, 0) := if_pos h

theorem loadSceneRefusal_inUse (h : (s.store.scene id).state = .ready) (hu : 0 < (s.store.scene id).useCount) :
    s.store.loadSceneRefusal id count = some (.inUse, (s.store.scene id).useCount) := by
  simp only [SceneStore.loadSceneRefusal, h, hu, and_self, if_true, reduceCtorEq, if_false]

/-- A scene that is EMPTY, or READY with no use, leaves the checks of the queue and of the blocks. -/
theorem loadSceneRefusal_of_loadable (h : (s.store.scene id).state = .empty ∨
      ((s.store.scene id).state = .ready ∧ (s.store.scene id).useCount = 0)) :
    s.store.loadSceneRefusal id count =
      if 4 ≤ s.store.loads.length then some (.busy, 0)
      else if s.store.freeBlocks + (s.store.scene id).blocks < blocksNeeded count then
        some (.noSpace, s.store.freeBlocks + (s.store.scene id).blocks)
      else none := by
  rw [← blocksFor_eq_blocksNeeded]
  have hloading : (s.store.scene id).state ≠ .loading := by rcases h with h | ⟨h, -⟩ <;> rw [h] <;> exact nofun
  have huse : ¬((s.store.scene id).state = .ready ∧ 0 < (s.store.scene id).useCount) := by
    rintro ⟨hr, hu⟩
    rcases h with h | ⟨-, h⟩
    · rw [h] at hr; cases hr
    · omega
  exact (if_neg hloading).trans (if_neg huse)

end loadScene

theorem acceptLoadScene_eq (t : SceneStore) (c : Ctx) (id count : Nat) (a : HostAddress) :
    t.acceptLoadScene c id count a =
      { t with
        scenes := t.scenes.set Scene.none id
          { state := .loading, entryCount := count, blocks := blocksNeeded count, useCount := 0, entries := [] }
        freeBlocks := t.freeBlocks + (t.scene id).blocks - blocksNeeded count
        nextLoad := t.nextLoad + 1
        loads := queued t.loads
          { id := t.nextLoad, target := .scene id, address := a, itemCount := count, itemSize := 4, received := 0,
            fetching := false, ctx := c } } := by
  rw [← blocksFor_eq_blocksNeeded, ← loads_joinQueue]
  rfl

theorem sceneWord_eq (t : SceneStore) (id : Nat) :
    t.sceneWord id = (match (t.scene id).state with
      | .empty => 0
      | .loading => 1
      | .ready => 2) + 4 * (t.scene id).entryCount + 8192 * (t.scene id).useCount + 1048576 * t.freeBlocks := by
  simp only [SceneStore.sceneWord, SceneState.code, Nat.reducePow] <;> rfl

/-- Settles O24: each of the three requests is routed to the store, which takes it by the scene's state. -/
theorem sceneRequestsAreChecked : Obligations.SceneRequestsAreChecked := by
  refine ⟨fun s q b sc ht hp hsc => ?load, fun s q b sc ht hsc => ⟨fun hp => ?delete, fun hp => ?query⟩⟩ <;> subst hsc
  case load =>
    rw [exec_of_passes (k := .loadScene) rfl ht hp]
    have htake : (taken s q).route (noted s q b) b.group.toNat (requestOf .loadScene b) =
      (taken s q).takeLoadScene (noted s q b) (field b 8 1) (field b 10 2) (BitVec.ofNat 64 (field b 16 8)) := rfl
    rw [htake]
    refine ⟨fun h => ?loading, fun h hu => ?inUse, fun h => ?loadable⟩
    case loading => rw [takeLoadScene_refused (loadSceneRefusal_loading (s := taken s q) h)]
    case inUse => rw [takeLoadScene_refused (loadSceneRefusal_inUse (s := taken s q) h hu)]; rfl
    case loadable =>
      have hchecks := loadSceneRefusal_of_loadable (s := taken s q) (count := field b 10 2) h
      refine ⟨fun hfull => ?full, fun hroom => ⟨fun hspace => ?noSpace, fun hspace => ?accepted⟩⟩
      case full => rw [takeLoadScene_refused (hchecks.trans (if_pos hfull))]
      case noSpace =>
        rw [takeLoadScene_refused (hchecks.trans ((if_neg (Nat.not_le.mpr hroom)).trans (if_pos hspace)))]
        rfl
      case accepted =>
        rw [takeLoadScene_accepted (hchecks.trans ((if_neg (Nat.not_le.mpr hroom)).trans (if_neg (Nat.not_lt.mpr hspace)))),
          acceptLoadScene_eq]
        rfl
  case delete =>
    rw [exec_of_passes (k := .deleteScene) rfl ht hp]
    have htake : (taken s q).route (noted s q b) b.group.toNat (requestOf .deleteScene b) =
      match (s.store.scene (field b 8 1)).state with
      | .loading => (taken s q).finishNow (noted s q b) .busy 0
      | .empty => (taken s q).finishNow (noted s q b) .notFound 0
      | .ready =>
        if 0 < (s.store.scene (field b 8 1)).useCount then
          (taken s q).finishNow (noted s q b) .inUse (s.store.scene (field b 8 1)).useCount
        else State.finishNow { taken s q with store := s.store.emptyScene (field b 8 1) } (noted s q b) .ok
          (s.store.scene (field b 8 1)).blocks := rfl
    rw [htake]
    refine ⟨fun h => by rw [h], fun h => by rw [h], fun h hu => ?_, fun h hu => ?_⟩ <;> rw [h]
    · exact congrArg Host.Outcome.next (if_pos hu)
    · exact congrArg Host.Outcome.next (if_neg (by omega))
  case query =>
    rw [exec_of_passes (k := .queryScene) rfl ht hp]
    exact congrArg (fun d => Host.Outcome.next ((taken s q).finishNow (noted s q b) .ok d)) (sceneWord_eq s.store _)

/-! ## LOAD_BAND (R91) -/

/-- What the record of a LOAD_BAND asks for. -/
def bandAsked (b : RecordBody) : BandLoadRequest :=
  { band := field b 8 1, port := field b 9 1, firstPixel := field b 10 2, lead := field b 12 2, roll := field b 14 2,
    tail := field b 16 2, step := field16s b 18, stepPeriod := field b 20 2,
    address := BitVec.ofNat 64 (field b 24 8) }

theorem loadBandRefusal_of_loadable {s : State} {n : Nat}
    (h : s.bands.band n = .undefined ∨ ∃ d, s.bands.band n = .stopped d) :
    s.loadBandRefusal n = if 4 ≤ s.store.loads.length then some .busy else none := by
  unfold State.loadBandRefusal
  rcases h with h | ⟨d, h⟩ <;> rw [h]

theorem takeLoadBand_refused {s : State} {r : BandLoadRequest} {x : Status} (h : s.loadBandRefusal r.band = some x)
    (c : Ctx) : s.takeLoadBand c r = s.finishNow c x 0 := by
  rw [State.takeLoadBand, h]

theorem takeLoadBand_accepted {s : State} {r : BandLoadRequest} (h : s.loadBandRefusal r.band = none) (c : Ctx) :
    s.takeLoadBand c r = s.acceptLoadBand c r := by
  rw [State.takeLoadBand, h]

theorem joinQueue_eq (t : SceneStore) (l : Load) :
    t.joinQueue l = { t with nextLoad := t.nextLoad + 1, loads := queued t.loads l } := by
  rw [← loads_joinQueue]
  rfl

/-- Settles O25: the band's own state is checked first, then the room in the load queue. -/
theorem loadBandIsChecked : Obligations.LoadBandIsChecked := by
  intro s q b ht hp
  have htake : (taken s q).route (noted s q b) b.group.toNat (requestOf .loadBand b) =
      (taken s q).takeLoadBand (noted s q b) (bandAsked b) := rfl
  rw [exec_of_passes (k := .loadBand) rfl ht hp, htake]
  have hrefusal : (taken s q).loadBandRefusal (bandAsked b).band = s.loadBandRefusal (field b 8 1) := rfl
  refine ⟨fun d h => ?loading, fun d r h => ?running, fun h => ⟨fun hfull => ?full, fun hroom => ?accepted⟩⟩
  case loading => rw [takeLoadBand_refused (hrefusal.trans (by rw [State.loadBandRefusal, h]))]
  case running => rw [takeLoadBand_refused (hrefusal.trans (by rw [State.loadBandRefusal, h]))]
  case full =>
    rw [takeLoadBand_refused (hrefusal.trans ((loadBandRefusal_of_loadable h).trans (if_pos hfull)))]
  case accepted =>
    rw [takeLoadBand_accepted (hrefusal.trans ((loadBandRefusal_of_loadable h).trans (if_neg (Nat.not_le.mpr hroom)))),
      State.acceptLoadBand, joinQueue_eq]
    rfl

end Sys2Proof.Stores
end

section
/-! PROOFS. The data of a load, for a scene and for a band (R25, R26, R28, R86, R92). -/

namespace Sys2Proof.Stores

open Machine Safety Claims

theorem leAt_two {bytes : List Byte} {i : Nat} {lo hi : Byte} (h0 : bytes[i]? = some lo) (h1 : bytes[i + 1]? = some hi) :
    leAt bytes i 2 = pairOf lo hi := by
  simp [leAt, pairOf, List.getD, h0, h1]

theorem nextHead_cons (l : Load) (rest : List Load) : nextHead (l :: rest) = afterHead rest := by
  cases rest <;> rfl

section load

variable {s : State} {l : Load} {rest : List Load}

/-- Data of the load at the head is taken by what the load fills (R25). -/
theorem loadItem_scene (h : s.store.loads = l :: rest) {id : Nat} (ht : l.target = .scene id) (f : Nat)
    (bytes : List Byte) : s.loadItem f { load := l.id, bytes := bytes } = s.takeSceneItem f l id bytes := by
  simp only [State.loadItem, h, List.head?_cons, Option.filter_some, decide_true, if_true, ht]

theorem loadItem_band (h : s.store.loads = l :: rest) {b : Nat} (ht : l.target = .band b) (f : Nat)
    (bytes : List Byte) : s.loadItem f { load := l.id, bytes := bytes } = s.takeColour l b bytes := by
  simp only [State.loadItem, h, List.head?_cons, Option.filter_some, decide_true, if_true, ht]

theorem loadItem_late {item : LoadItem} (h : ∀ l, s.store.loads.head? = some l → l.id ≠ item.load) (f : Nat) :
    s.loadItem f item = s := by
  unfold State.loadItem
  cases hl : s.store.loads.head? with
  | none => rfl
  | some l => rw [Option.filter_some, if_neg (by simpa using h l hl)]

theorem loadError_scene (h : s.store.loads = l :: rest) {id : Nat} (ht : l.target = .scene id) (f : Nat) :
    s.loadError f = s.endSceneLoadFailed f l id .hostReadError l.received := by
  simp only [State.loadError, h, List.head?_cons, ht]

theorem loadError_band (h : s.store.loads = l :: rest) {b : Nat} (ht : l.target = .band b) (f : Nat) :
    s.loadError f = s.endBandLoadFailed l b .hostReadError l.received := by
  simp only [State.loadError, h, List.head?_cons, ht]

theorem countItem_eq (h : s.store.loads = l :: rest) : s.store.countItem = { s.store with loads := counted l rest } := by
  rw [SceneStore.countItem, h]
  rfl

theorem popLoad_eq (h : s.store.loads = l :: rest) : s.store.popLoad = { s.store with loads := afterHead rest } := by
  rw [SceneStore.popLoad, h, nextHead_cons]

/-! ## A scene load -/

theorem endSceneLoadFailed_eq (h : s.store.loads = l :: rest) (id : Nat) (x : Status) (d : Nat) :
    s.endSceneLoadFailed s.effectiveFrame l id x d = sceneLoadFails s l rest id x d := by
  have hpop : (s.store.emptyScene id).popLoad = { s.store.emptyScene id with loads := afterHead rest } :=
    popLoad_eq (s := { s with store := s.store.emptyScene id }) h
  rw [State.endSceneLoadFailed, hpop]
  rfl

theorem takeSceneItem_bad {id : Nat} {bytes : List Byte} (h : s.store.loads = l :: rest)
    (hbad : badSceneEntry (s.store.scene id) (sceneItem bytes) = true) :
    s.takeSceneItem s.effectiveFrame l id bytes = sceneLoadFails s l rest id .badField l.received :=
  (if_pos hbad).trans (endSceneLoadFailed_eq h id _ _)

/-- The store after an entry is written and counted, and the load goes on. -/
def writtenEntry (t : SceneStore) (id : Nat) (item : Nat × Level) : SceneStore :=
  t.setScene id { t.scene id with entries := (t.scene id).entries ++ [item] }

theorem takeSceneItem_good {id : Nat} {bytes : List Byte} (h : s.store.loads = l :: rest)
    (hgood : badSceneEntry (s.store.scene id) (sceneItem bytes) = false) (f : Nat) :
    s.takeSceneItem f l id bytes =
      if l.received + 1 < l.itemCount then
        { s with store := { writtenEntry s.store id (sceneItem bytes) with loads := counted l rest } }
      else
        State.endSceneLoadReady
          { s with store := { writtenEntry s.store id (sceneItem bytes) with loads := counted l rest } } f l id := by
  have hcount : (writtenEntry s.store id (sceneItem bytes)).countItem =
      { writtenEntry s.store id (sceneItem bytes) with loads := counted l rest } :=
    countItem_eq (s := { s with store := writtenEntry s.store id (sceneItem bytes) }) h
  rw [← hcount]
  exact if_neg (by rw [hgood]; exact nofun)

/-- The last entry: the scene becomes READY, and the load leaves the queue (R25, R28). -/
theorem endSceneLoadReady_eq (h : s.store.loads = l :: rest) {id : Nat} {sc : Scene} (hsc : s.store.scene id = sc)
    (f : Nat) (m : Load) :
    s.endSceneLoadReady f m id =
      State.finishNow
        { s with
          store :=
            { s.store with
              scenes := s.store.scenes.set Scene.none id { sc with state := .ready }
              loads := afterHead rest
              notices := s.store.notices ++ [{ scene := id, state := .ready, frame := f }] } }
        m.ctx .ok sc.entryCount := by
  subst hsc
  have hpop := popLoad_eq (s := { s with store := s.store.setScene id { s.store.scene id with state := .ready } }) h
  rw [State.endSceneLoadReady, hpop]
  rfl

theorem scene_writtenEntry (t : SceneStore) (id i : Nat) (item : Nat × Level) :
    (writtenEntry t id item).scene i =
      if i = id then { t.scene id with entries := (t.scene id).entries ++ [item] } else t.scene i :=
  SceneStore.scene_setScene t id _ i

end load

theorem badSceneEntry_iff (sc : Scene) (item : Nat × Level) :
    badSceneEntry sc item = true ↔ 4095 < item.1 ∨ ∃ e ∈ sc.entries, e.1 = item.1 := by
  simp [badSceneEntry]

theorem sceneItem_eq (c0 c1 v0 v1 : Byte) :
    sceneItem [c0, c1, v0, v1] = (pairOf c0 c1, BitVec.ofNat 16 (pairOf v0 v1)) := by
  rw [sceneItem, leAt_two (lo := c0) (hi := c1) rfl rfl, leAt_two (lo := v0) (hi := v1) rfl rfl]

/-- Settles O37: an entry is checked, then written, and the last one ends the load. -/
theorem sceneLoadData : Obligations.SceneLoadData := by
  intro s l rest id c0 c1 v0 v1 hl htarget
  have htake : exec (.loadItemReceived { load := l.id, bytes := [c0, c1, v0, v1] }) s =
      .next (s.takeSceneItem s.effectiveFrame l id [c0, c1, v0, v1]) :=
    congrArg Host.Outcome.next (loadItem_scene hl htarget _ _)
  have hbad := badSceneEntry_iff (s.store.scene id) (sceneItem [c0, c1, v0, v1])
  rw [sceneItem_eq] at hbad
  refine ⟨fun h => ?bad, fun hrange hnew => ?good, ?error⟩
  case bad => rw [htake, takeSceneItem_bad hl (by rw [sceneItem_eq]; exact hbad.mpr h)]
  case error =>
    exact congrArg Host.Outcome.next ((loadError_scene hl htarget _).trans (endSceneLoadFailed_eq hl id _ _))
  case good =>
    have hgood : badSceneEntry (s.store.scene id) (pairOf c0 c1, BitVec.ofNat 16 (pairOf v0 v1)) = false := by
      rw [Bool.eq_false_iff]
      exact fun h => (hbad.mp h).elim (fun h => absurd h (Nat.not_lt.mpr hrange)) fun ⟨e, he, heq⟩ => hnew e he heq
    rw [htake, takeSceneItem_good hl (by rw [sceneItem_eq]; exact hgood), sceneItem_eq]
    refine ⟨fun hmore => by rw [if_pos hmore]; rfl, fun hlast => ?_⟩
    rw [if_neg (Nat.not_lt.mpr hlast)]
    have hscene := scene_writtenEntry s.store id id (pairOf c0 c1, BitVec.ofNat 16 (pairOf v0 v1))
    rw [if_pos rfl] at hscene
    rw [endSceneLoadReady_eq (rest := rest) rfl hscene]
    refine ⟨_, rfl, rfl, fun i => ?_⟩
    refine (Table.get_set _ _ _ _ _).trans ?_
    split
    case isTrue => rfl
    case isFalse h => exact (scene_writtenEntry s.store id i _).trans (if_neg h)

/-! ## A band load -/

theorem takeColour_eq {s : State} {l : Load} {rest : List Load} {n : Nat} {d : BandSetup} (h : s.store.loads = l :: rest)
    (hd : s.bands.band n = .loading d) (bytes : List Byte) :
    s.takeColour l n bytes =
      if l.received + 1 < l.itemCount then
        { s with
          store := { s.store with loads := counted l rest }
          bands := s.bands.setBand n (.loading { d with pattern := d.pattern ++ [colourItem d.components bytes] }) }
      else
        State.finishNow
          { s with
            store := { s.store with loads := afterHead rest }
            bands := s.bands.setBand n (.stopped { d with pattern := d.pattern ++ [colourItem d.components bytes] }) }
          l.ctx .ok l.itemCount := by
  rw [← countItem_eq h, ← popLoad_eq h]
  simp only [State.takeColour, hd, Band.setup]
  rfl

/-- A colour of the item's bytes, component by component (R86). -/
theorem colourItem_eq {k : Nat} {bytes : List Byte} {colour : List Level} (hb : bytes.length = 2 * k)
    (hc : colour.length = k) (h : ∀ m < k, ∀ lo hi, bytes[2 * m]? = some lo → bytes[2 * m + 1]? = some hi →
      colour[m]? = some (BitVec.ofNat 16 (pairOf lo hi))) : colourItem k bytes = colour := by
  refine List.ext_getElem? fun m => ?_
  by_cases hm : m < k
  · have h0 := List.getElem?_eq_getElem (l := bytes) (i := 2 * m) (by omega)
    have h1 := List.getElem?_eq_getElem (l := bytes) (i := 2 * m + 1) (by omega)
    rw [h m hm _ _ h0 h1, colourItem, List.getElem?_map, List.getElem?_range hm, ← leAt_two h0 h1]
    rfl
  · rw [List.getElem?_eq_none (by simpa [colourItem] using hm), List.getElem?_eq_none (by omega)]

/-- Load data inside a frame start is discarded when the show reset has taken what it would serve. -/
theorem dataCancelled_iff (w : FrameWork) :
    w.dataCancelled = true ↔ w.resetStore = true ∨ (w.resetBands = true ∧ bandAtHead w.s) := by
  have hhead : w.s.store.loads.head?.any Load.fillsBand = true ↔ bandAtHead w.s := by
    unfold bandAtHead
    cases w.s.store.loads.head? with
    | none => simp
    | some l => cases hl : l.target <;> simp [Load.fillsBand, hl]
  rw [FrameWork.dataCancelled, Bool.or_eq_true, Bool.and_eq_true, hhead]

theorem exec_answerCommand (a : LoadAnswer) (s : State) : exec (answerCommand a) s = .next (s.loadAnswer s.effectiveFrame a) := by
  cases a <;> rfl

/-- Settles O38: a colour is written, and the last one ends the load; inside a frame start the same is done for the
frame. -/
theorem bandLoadData : Obligations.BandLoadData := by
  refine ⟨fun s l rest n d bytes colour hl htarget hd hlen hcolour hpairs => ⟨fun hmore => ?more, fun hlast => ?last, ?error⟩,
    fun s item h => congrArg Host.Outcome.next (loadItem_late h _),
    fun s h => ?none, fun w a hframe => ⟨fun h => if_pos ((dataCancelled_iff w).mpr h), fun hstore hbands => ?midst⟩⟩
  case more =>
    refine congrArg Host.Outcome.next ((loadItem_band hl htarget _ _).trans ((takeColour_eq hl hd bytes).trans ?_))
    rw [if_pos hmore, colourItem_eq hlen hcolour hpairs]
    rfl
  case last =>
    refine congrArg Host.Outcome.next ((loadItem_band hl htarget _ _).trans ((takeColour_eq hl hd bytes).trans ?_))
    rw [if_neg (Nat.not_lt.mpr hlast), colourItem_eq hlen hcolour hpairs]
    rfl
  case error =>
    refine congrArg Host.Outcome.next ((loadError_band hl htarget _).trans ?_)
    exact congrArg (fun t => State.finishNow { s with store := t, bands := s.bands.setBand n .undefined } l.ctx
      .hostReadError l.received) (popLoad_eq hl)
  case none => simp only [exec, execLoadHostReadError, State.loadError, h, List.head?_nil]
  case midst =>
    have hgo : w.dataCancelled = false := by
      rw [Bool.eq_false_iff, Ne, dataCancelled_iff, hstore]
      rintro (h | ⟨h, hb⟩)
      · cases h
      · exact hbands h hb
    have heff : w.s.clock.frame - 1 + 1 = w.s.clock.frame := Nat.sub_add_cancel hframe
    have hclock := loadAnswer_clock w.s { w.s.clock with frame := w.s.clock.frame - 1 } w.s.clock.frame a
    refine ⟨_, (exec_answerCommand a _).trans (congrArg (fun f => Host.Outcome.next (State.loadAnswer _ f a)) heff), ?_⟩
    exact (if_neg (by rw [hgo]; exact nofun)).trans
      (congrArg (fun t : State => { w with s := t, bandLoads := bandRequests t.store.loads }) hclock.symm)

end Sys2Proof.Stores
end

section
/-! PROOFS. What the arbiter's batches and orders do to the channel table, and what they report (R4 to R17). -/

namespace Sys2Proof.Channels

open Machine Safety Claims Bands

/-! ## The losses that a report names (R8, R10) -/

/-- A report's losses rise in slot order, and name for each slot the number that `f` gives, if it is not 0. -/
def Reports (lost : List (Nat × Nat)) (f : Nat → Nat) : Prop :=
  ascending lost ∧ ∀ k n, (k, n) ∈ lost ↔ 1 ≤ n ∧ n = f k

theorem reports_nil : Reports [] (fun _ => 0) :=
  ⟨.nil, fun _ _ => ⟨nofun, fun ⟨h1, h0⟩ => absurd h1 (h0 ▸ Nat.not_succ_le_zero 0)⟩⟩

/-- One more channel lost, as a change of the pairs. -/
theorem mem_addLoss {k : Nat} {lost : List (Nat × Nat)} (h : ascending lost) (j n : Nat) :
    (j, n) ∈ addLoss k lost ↔
      if j = k then (∃ m, (k, m) ∈ lost ∧ n = m + 1) ∨ ((∀ m, (k, m) ∉ lost) ∧ n = 1) else (j, n) ∈ lost := by
  induction lost with
  | nil => by_cases hj : j = k <;> simp [addLoss, hj]
  | cons y rest ih =>
    obtain ⟨i, m⟩ := y
    obtain ⟨hy, hrest⟩ := List.pairwise_cons.mp h
    have hlt : ∀ a b, (a, b) ∈ rest → i < a := fun a b hab => hy (a, b) hab
    unfold addLoss
    split
    case isTrue hki =>
      have hnone : ∀ b, (k, b) ∉ (i, m) :: rest := by
        intro b hb
        rcases List.mem_cons.mp hb with hb | hb
        · rw [Prod.mk.injEq] at hb; omega
        · have := hlt k b hb; omega
      by_cases hj : j = k
      · subst hj
        simp only [List.mem_cons (b := (j, 1)), hnone, or_false, if_true, not_false_eq_true, implies_true, true_and,
          false_and, exists_false, false_or, Prod.mk.injEq]
      · rw [if_neg hj, List.mem_cons, Prod.mk.injEq]
        simp only [hj, false_and, false_or]
    case isFalse hki =>
      split
      case isTrue hkj =>
        subst hkj
        have hnone : ∀ b, (k, b) ∉ rest := fun b hb => Nat.lt_irrefl k (hlt k b hb)
        by_cases hj : j = k
        · subst hj
          simp only [List.mem_cons, hnone, or_false, Prod.mk.injEq, true_and, if_true]
          constructor
          · exact fun hn => .inl ⟨m, rfl, hn⟩
          · rintro (⟨b, rfl, hn⟩ | ⟨hno, -⟩)
            · exact hn
            · exact absurd rfl (hno m)
        · rw [if_neg hj, List.mem_cons, List.mem_cons, Prod.mk.injEq, Prod.mk.injEq]
          simp only [hj, false_and]
      case isFalse hkj =>
        rw [List.mem_cons, ih hrest, Prod.mk.injEq]
        by_cases hj : j = k
        · subst hj
          simp only [List.mem_cons, Prod.mk.injEq, hkj, false_and, false_or, if_true]
        · simp only [hj, if_false, List.mem_cons, Prod.mk.injEq]

theorem Reports.addLoss {lost : List (Nat × Nat)} {f : Nat → Nat} (h : Reports lost f) (k : Nat) :
    Reports (addLoss k lost) (fun j => f j + if some k = some j then 1 else 0) := by
  obtain ⟨hasc, hmem⟩ := h
  refine ⟨addLoss_ascending hasc k, fun j n => ?_⟩
  rw [mem_addLoss hasc]
  by_cases hj : j = k
  · subst hj
    simp only [if_true, hmem]
    constructor
    · rintro (⟨m, ⟨h1, rfl⟩, rfl⟩ | ⟨hno, rfl⟩)
      · exact ⟨by omega, rfl⟩
      · have := hno (f j)
        exact ⟨Nat.le_refl 1, by omega⟩
    · rintro ⟨-, rfl⟩
      by_cases h0 : f j = 0
      · exact .inr ⟨fun m hm => by omega, by omega⟩
      · exact .inl ⟨f j, ⟨by omega, rfl⟩, rfl⟩
  · have hne : ¬some k = some j := fun h => hj (Option.some.inj h).symm
    simp only [if_neg hj, if_neg hne, hmem, Nat.add_zero]

/-- The loss of a channel so held is counted with its slot. -/
theorem Reports.lossOf {lost : List (Nat × Nat)} {f : Nat → Nat} (h : Reports lost f) (x : Holding) :
    Reports (lossOf x lost) (fun j => f j + if x.slot = some j then 1 else 0) := by
  unfold Machine.lossOf
  cases x.slot with
  | none => simpa using h
  | some k => exact h.addLoss k

theorem Reports.congr {lost : List (Nat × Nat)} {f g : Nat → Nat} (h : Reports lost f) (hfg : ∀ k, f k = g k) :
    Reports lost g := (funext hfg) ▸ h

/-! ## Claims, one after the other (R4, R5, R7) -/

theorem claimGranted_eq_grants (o : Owner) (q : Nat) (h : Holding) : claimGranted o q h = grants o q h := by
  cases h <;> simp [claimGranted, grants, Holding.owner, Holding.priority, eq_comm]

/-- The claims of a list of channels, one after the other. -/
def claimAll (o : Owner) (q : Nat) (become : Nat → Channel → Holding) (l : List Nat) (acc : Table Channel × ArbiterReport) :
    Table Channel × ArbiterReport :=
  l.foldl (fun acc c => claimChannel o q c (become c) acc) acc

theorem entry_set (t : Table Channel) (c : Nat) (v : Channel) (j : Nat) :
    entry (t.set Channel.dark c v) j = if j = c then v else entry t j := Table.get_set _ _ _ _ _

section claims

variable (o : Owner) (q : Nat) (become : Nat → Channel → Holding)

/-- What claims leave of the channels, from any table and any report. -/
structure Claimed (l : List Nat) (acc acc' : Table Channel × ArbiterReport) (f : Nat → Nat) : Prop where
  entries : ∀ c, entry acc'.1 c =
    if c ∈ l ∧ grants o q (entry acc.1 c).holding = true then
      { holding := become c (entry acc.1 c), last := (entry acc.1 c).last }
    else entry acc.1 c
  granted : acc'.2.granted = acc.2.granted + (l.filter (fun c => grants o q (entry acc.1 c).holding)).length
  decided : acc'.2.granted + acc'.2.denied = acc.2.granted + acc.2.denied + l.length
  lost : Reports acc'.2.lost (fun k => f k + (l.filter (fun c => grants o q (entry acc.1 c).holding &&
    decide ((entry acc.1 c).holding.slot = some k))).length)

theorem claimChannel_granted {acc : Table Channel × ArbiterReport} {c : Nat}
    (h : grants o q (entry acc.1 c).holding = true) :
    claimChannel o q c (become c) acc =
      (acc.1.set Channel.dark c { entry acc.1 c with holding := become c (entry acc.1 c) },
        { acc.2 with granted := acc.2.granted + 1, lost := lossOf (entry acc.1 c).holding acc.2.lost }) :=
  if_pos ((claimGranted_eq_grants o q _).trans h)

theorem claimChannel_denied {acc : Table Channel × ArbiterReport} {c : Nat}
    (h : ¬grants o q (entry acc.1 c).holding = true) :
    claimChannel o q c (become c) acc = (acc.1, { acc.2 with denied := acc.2.denied + 1 }) :=
  if_neg (mt (claimGranted_eq_grants o q _).symm.trans h)

/-- One claim. -/
theorem claimChannel_claimed {acc : Table Channel × ArbiterReport} {f : Nat → Nat} (h : Reports acc.2.lost f) (c : Nat) :
    Claimed o q become [c] acc (claimChannel o q c (become c) acc) f := by
  by_cases hg : grants o q (entry acc.1 c).holding = true
  · rw [claimChannel_granted o q become hg]
    refine ⟨fun j => ?_, ?_, ?_, ?_⟩
    · rw [entry_set]
      by_cases hj : j = c
      · subst hj; simp [hg]
      · simp [hj]
    · simp [hg]
    · simp only [List.length_singleton]; omega
    · refine (h.lossOf (entry acc.1 c).holding).congr fun k => ?_
      by_cases hk : (entry acc.1 c).holding.slot = some k <;> simp [hg, hk]
  · rw [claimChannel_denied o q become hg]
    refine ⟨fun j => ?_, ?_, ?_, h.congr fun k => ?_⟩
    · by_cases hj : j = c
      · subst hj; simp [hg]
      · simp [hj]
    · simp [hg]
    · simp only [List.length_singleton]; omega
    · simp [hg]

/-- A claim, and the claims of other channels after it. -/
theorem Claimed.cons {c : Nat} {l : List Nat} (hc : c ∉ l) {acc acc1 acc2 : Table Channel × ArbiterReport}
    {f g : Nat → Nat} (h1 : Claimed o q become [c] acc acc1 f)
    (hg : ∀ k, g k = f k + ([c].filter (fun c => grants o q (entry acc.1 c).holding &&
      decide ((entry acc.1 c).holding.slot = some k))).length)
    (h2 : Claimed o q become l acc1 acc2 g) : Claimed o q become (c :: l) acc acc2 f := by
  have hkept : ∀ j, j ≠ c → entry acc1.1 j = entry acc.1 j := fun j hj => by
    rw [h1.entries, if_neg (by simp [hj])]
  have hrest : ∀ j ∈ l, entry acc1.1 j = entry acc.1 j := fun j hj => hkept j fun h => hc (h ▸ hj)
  have hsplit (p : Nat → Bool) : (c :: l).filter p = [c].filter p ++ l.filter p :=
    List.filter_append (l₁ := [c]) ..
  refine ⟨fun j => ?_, ?_, ?_, h2.lost.congr fun k => ?_⟩
  · rw [h2.entries]
    by_cases hj : j = c
    · subst hj
      rw [if_neg (by simp [hc]), h1.entries]
      simp
    · rw [hkept j hj]
      simp [hj]
  · rw [h2.granted, h1.granted, hsplit, List.length_append, Nat.add_assoc,
      List.filter_congr (l := l) fun j hj => by rw [hrest j hj]]
  · rw [h2.decided, h1.decided]
    simp only [List.length_cons, List.length_nil]
    omega
  · rw [hg, hsplit, List.length_append, Nat.add_assoc,
      List.filter_congr (l := l) fun j hj => by rw [hrest j hj]]

theorem claimAll_claimed {l : List Nat} (hl : l.Nodup) {acc : Table Channel × ArbiterReport} {f : Nat → Nat}
    (hlost : Reports acc.2.lost f) : Claimed o q become l acc (claimAll o q become l acc) f := by
  induction l generalizing acc f with
  | nil => exact ⟨fun c => by simp [claimAll], rfl, rfl, hlost⟩
  | cons c l ih =>
    obtain ⟨hc, hl⟩ := List.nodup_cons.mp hl
    have hfirst := claimChannel_claimed o q become hlost c
    exact hfirst.cons o q become hc (fun k => rfl) (ih hl hfirst.lost)

/-- A batch begins with an empty report. -/
theorem claims_claimAll {l : List Nat} (hl : l.Nodup) (t : Table Channel) :
    Claims.claims t (claimAll o q become l (t, { granted := 0, denied := 0, lost := [] })).1
      (claimAll o q become l (t, { granted := 0, denied := 0, lost := [] })).2 o q l become := by
  have h := claimAll_claimed o q become hl (acc := (t, { granted := 0, denied := 0, lost := [] })) reports_nil
  obtain ⟨hentries, hgranted, hdecided, hasc, hlost⟩ := h
  refine ⟨hentries, hgranted.trans (Nat.zero_add _), hdecided.trans (Nat.zero_add _), hasc, fun k n => ?_⟩
  simp only [hlost, Nat.zero_add]

end claims

/-! ## The two batches -/

/-- The target level of a channel that the pairs name. -/
def targetIn (pairs : List (Nat × Level)) (c : Nat) : Level := (pairs.lookup c).getD 0

theorem targetIn_of_mem {pairs : List (Nat × Level)} (h : (pairs.map Prod.fst).Nodup) :
    ∀ x ∈ pairs, targetIn pairs x.1 = x.2 := by
  induction pairs with
  | nil => exact nofun
  | cons y pairs ih =>
    rw [List.map_cons, List.nodup_cons] at h
    obtain ⟨hy, hrest⟩ := h
    intro x hx
    rcases List.mem_cons.mp hx with rfl | hx
    · simp [targetIn, List.lookup]
    · have hne : x.1 ≠ y.1 := fun h => hy (h ▸ List.mem_map_of_mem hx)
      rw [← ih hrest x hx]
      simp [targetIn, List.lookup, beq_false_of_ne hne]

theorem fadeBatch_eq_claimAll {pairs : List (Nat × Level)} (t : Table Channel) (p q k : Nat) {target : Nat → Level}
    (htarget : ∀ x ∈ pairs, target x.1 = x.2) :
    fadeBatch t p q k pairs =
      claimAll (.playback p) q (fun c ch => .fading p q k ch.last (target c)) (pairs.map Prod.fst)
        (t, { granted := 0, denied := 0, lost := [] }) := by
  unfold fadeBatch claimAll
  rw [List.foldl_map]
  exact List.foldl_ext _ _ _ fun acc x hx => by simp only [htarget x hx]

theorem bandBatch_eq_claimAll (t : Table Channel) (b q first count : Nat) :
    bandBatch t b q first count =
      claimAll (.band b) q (fun _ _ => .band b q) (List.range' first count)
        (t, { granted := 0, denied := 0, lost := [] }) := by
  unfold bandBatch claimAll
  rw [List.range'_eq_map_range, List.foldl_map]

/-- Settles O40: both batches claim a list of channels, each named once. -/
theorem batchesClaimEachChannel : Obligations.BatchesClaimEachChannel := by
  refine ⟨fun t p q k pairs hnodup => ⟨targetIn pairs, targetIn_of_mem hnodup, ?_⟩, fun t b q first count => ?_⟩
  · rw [fadeBatch_eq_claimAll t p q k (targetIn_of_mem hnodup)]
    exact claims_claimAll _ _ _ hnodup t
  · rw [bandBatch_eq_claimAll]
    exact claims_claimAll _ _ _ List.nodup_range' t

/-! ## Orders (R6, R11 to R15, R17) -/

/-- The losses of an order, cell after cell. -/
theorem reports_foldl (chosen : Holding → Bool) (cells : List (Nat × Channel)) {lost : List (Nat × Nat)} {f : Nat → Nat}
    (h : Reports lost f) :
    Reports (cells.foldl (fun acc c => if chosen c.2.holding then lossOf c.2.holding acc else acc) lost)
      (fun k => f k + (cells.filter (fun x => chosen x.2.holding && decide (x.2.holding.slot = some k))).length) := by
  induction cells generalizing lost f with
  | nil => simpa using h
  | cons c cells ih =>
    rw [List.foldl_cons]
    by_cases hc : chosen c.2.holding = true
    · rw [if_pos hc]
      refine (ih (h.lossOf c.2.holding)).congr fun k => ?_
      by_cases hk : c.2.holding.slot = some k <;> (simp [hc, hk]; try omega)
    · rw [if_neg hc]
      refine (ih h).congr fun k => ?_
      simp [hc]

/-- What an order that spares FREE channels at level 0 leaves and reports. -/
theorem changes_applyOrder {t : Table Channel} (ht : t.wf Channel.dark = true) {chosen : Holding → Bool}
    {become become' : Channel → Holding} (hdark : chosen (.free 0) = false)
    (hbecome : ∀ ch, chosen ch.holding = true → become ch = become' ch) :
    changes t (applyOrder t chosen become).1 (applyOrder t chosen become).2 chosen become' := by
  obtain ⟨hasc, hlost⟩ := reports_foldl chosen t.cells reports_nil
  refine ⟨fun c => ?_, rfl, rfl, hasc, fun k n => ?_⟩
  · have hget : entry (applyOrder t chosen become).1 c =
        if chosen (entry t c).holding then { entry t c with holding := become (entry t c) } else entry t c :=
      Table.get_mapCells Channel.dark _ t c (if_neg (by rw [show Channel.dark.holding = .free 0 from rfl, hdark]; exact nofun)) ht
    rw [hget]
    split
    next h => rw [hbecome _ h]
    next => rfl
  · rw [← Nat.zero_add (List.length _)]
    exact hlost k n

/-- The same, with the choice said in other words. -/
theorem changes_applyOrder_of_eq {t : Table Channel} (ht : t.wf Channel.dark = true) {chosen chosen' : Holding → Bool}
    {become become' : Channel → Holding} (hchosen : ∀ h, chosen h = chosen' h) (hdark : chosen' (.free 0) = false)
    (hbecome : ∀ ch, chosen' ch.holding = true → become ch = become' ch) :
    changes t (applyOrder t chosen become).1 (applyOrder t chosen become).2 chosen' become' := by
  obtain rfl : chosen = chosen' := funext hchosen
  exact changes_applyOrder ht hdark hbecome

theorem ownedBy_eq_playbackOwns (p : Nat) (h : Holding) : Machine.ownedBy p h = playbackOwns p h := by
  cases h <;> simp [Machine.ownedBy, playbackOwns, Holding.owner]

/-- Settles O41: each order is applied channel by channel. -/
theorem ordersMoveAndLetGo : Obligations.OrdersMoveAndLetGo := by
  intro t k ht
  refine ⟨fun p => ?release, ?settle, ?releaseEnd, ?stop, ?clear, ?snap, ?reset, fun c => ?after⟩
  case release =>
    refine changes_applyOrder_of_eq ht (ownedBy_eq_playbackOwns p) rfl fun ch hch => ?_
    cases hh : ch.holding <;> simp_all [playbackOwns, Holding.priority]
  case settle => exact changes_applyOrder ht rfl fun ch _ => rfl
  case releaseEnd => exact changes_applyOrder ht rfl fun ch _ => rfl
  case stop =>
    refine changes_applyOrder_of_eq ht (fun h => ?_) rfl fun ch _ => rfl
    cases h <;> simp [Holding.owner]
  case clear =>
    refine changes_applyOrder_of_eq ht (fun h => ?_) rfl fun ch hch => ?_
    · cases h <;> simp [Machine.ownedBy, Holding.owner, Holding.slot]
    · cases hh : ch.holding <;> simp_all [Holding.priority]
  case snap => exact changes_applyOrder_of_eq ht (ownedBy_eq_playbackOwns k) rfl fun ch _ => rfl
  case reset => exact changes_applyOrder ht (decide_eq_false (fun h => h rfl)) fun ch _ => rfl
  case after =>
    obtain ⟨hentries, -⟩ := changes_applyOrder (t := t) (chosen := fun h => decide (h ≠ .free 0))
      (become := fun _ => .free 0) (become' := fun _ => .free 0) ht (decide_eq_false (fun h => h rfl)) fun _ _ => rfl
    refine (hentries c).trans ?_
    split
    next => rfl
    next h => 
      have hfree : (entry t c).holding = .free 0 := by simpa using h
      rw [← hfree]

end Sys2Proof.Channels
end

section
/-! PROOFS. RELEASE at its frame start, its slot request and its end (R45, R76, R77, R79). -/

namespace Sys2Proof.Releases

open Machine Safety Claims Transitions Playbacks

theorem isSome_eq_decide (o : Option Nat) : o.isSome = decide (o ≠ none) := by cases o <;> rfl

/-! ## RELEASE (R76) -/

theorem releaseRead_none {w : FrameWork} {p : Nat} (h : Claims.ownedBy w.s p = 0) (given : Option Nat) (o : Owed) :
    w.releaseRead p given o = w.finish o .ok 0 :=
  if_pos ((ownedCount_eq_ownedBy w.s p).trans h)

theorem releaseRead_some {w : FrameWork} {p : Nat} (h : Claims.ownedBy w.s p ≠ 0) (hp : 25 ≤ w.period) (given : Option Nat)
    (o : Owed) :
    w.releaseRead p given o =
      { w with
        agenda := .releaseSlot p
          (framesIn (match given with
            | some time => time
            | none => (w.s.controller.playback p).defaultRelease) w.period) o :: w.agenda } := by
  have hne : ¬w.s.arbiter.ownedCount p = 0 := fun h0 => h ((ownedCount_eq_ownedBy w.s p).symm.trans h0)
  refine (if_neg hne).trans ?_
  rw [framesOf_eq_framesIn _ hp]
  cases given <;> rfl

/-- A later RELEASE of the playback puts the earlier one by (R77). -/
theorem recordRelease_eq (w : FrameWork) (p k moved : Nat) (o : Owed) :
    w.recordRelease p k moved o =
      { withPlayback w p
          { w.s.controller.playback p with releaseSlot := some k, releaseRecord := some { owed := o, moved := moved } } with
        superseded := w.superseded ++
          (match (w.s.controller.playback p).releaseSlot, (w.s.controller.playback p).releaseRecord with
            | some j, some r => [(j, r)]
            | _, _ => []) } := by
  cases hk : (w.s.controller.playback p).releaseSlot <;> cases hr : (w.s.controller.playback p).releaseRecord <;>
    simp only [FrameWork.recordRelease, FrameWork.playback, hk, hr, List.append_nil] <;> rfl

/-- The answer to a RELEASE's slot request decides its course (R77). -/
theorem releaseSlot_answered (w : FrameWork) (p T : Nat) (o : Owed) :
    releaseAnswered p o
      ((noticesTaken w).requestSlot
        { kind := .release, playback := p, priority := ((noticesTaken w).s.controller.playback p).priority,
          isPaused := decide (((noticesTaken w).s.controller.playback p).paused ≠ none), pairs := [], length := T,
          curve := .linear }) (w.releaseSlot p T o) := by
  rw [← isSome_eq_decide]
  change releaseAnswered p o (w.takeNotices.requestSlot (FrameWork.releaseRequest (w.takeNotices.playback p) p T)) _
  unfold FrameWork.releaseSlot
  dsimp only
  rcases w.takeNotices.requestSlot (FrameWork.releaseRequest (w.takeNotices.playback p) p T) with ⟨v, answer⟩
  cases answer with
  | noSlot | noChannels | refused | silent => rfl
  | started k moved denied => exact recordRelease_eq v p k moved o

/-! ## The end of a RELEASE (R79) -/

theorem releaseStatus_eq (reason : EndReason) :
    FrameWork.releaseStatus reason =
      (match reason with
        | .ended => .ok
        | .lost | .released | .snapped => .superseded
        | .cleared | .showReset => .cancelled) := by
  cases reason <;> rfl

theorem endRelease_ends (w : FrameWork) (p k : Nat) (status : Status) :
    releaseEnds w p k status (w.endRelease p k status) := by
  refine ⟨fun r hk hr => ?record, fun hk => ⟨fun before r after hs hbefore => ?later, fun hnone => ?nothing⟩⟩
  case record =>
    refine (if_pos hk).trans ?_
    simp only [FrameWork.playback, hr]
    rfl
  case later =>
    have hskip : ∀ x ∈ before, ¬decide (x.1 = k) = true := fun x hx => by simpa using hbefore x hx
    have hfind : w.superseded.find? (fun x => decide (x.1 = k)) = some (k, r) := by
      rw [hs, List.find?_append, List.find?_eq_none.mpr hskip]
      simp
    have hrest : w.superseded.eraseP (fun x => decide (x.1 = k)) = before ++ after := by
      rw [hs, List.eraseP_append_right _ hskip, List.eraseP_cons_of_pos (by simp)]
    refine (if_neg hk).trans ?_
    rw [hfind, hrest]
  case nothing =>
    have hfind : w.superseded.find? (fun x => decide (x.1 = k)) = none :=
      List.find?_eq_none.mpr fun x hx => by simpa using hnone x hx
    refine (if_neg hk).trans ?_
    rw [hfind]

/-- Settles O51: the frame start applies the request, its steps are those of the agenda, and its end is that of its slot's
notice. -/
theorem releasesRunAndEnd : Obligations.ReleasesRunAndEnd := by
  refine ⟨fun order s e p given hc hf he => ?frame, fun w p k given o hp => ⟨rfl, fun h => releaseRead_none h given o,
    fun h => releaseRead_some h hp given o, fun T => ⟨_, rfl, releaseSlot_answered w p T o⟩, fun reason => ⟨_, rfl, ?ends⟩⟩⟩
  case frame =>
    have hdoes := frameStart_applies order hc hf
    rw [he] at hdoes
    exact hdoes
  case ends =>
    have hends := endRelease_ends w p k (FrameWork.releaseStatus reason)
    rw [releaseStatus_eq] at hends
    exact hends

end Sys2Proof.Releases
end

section
/-! PROOFS. A frame start that finds a load-end notice alone, or the end of one slot: it is taken at some point of the
controller's passes (R47, R58, R64). -/

namespace Sys2Proof.Starts

open Machine Safety Claims Transitions Playbacks Bands

variable {s : State} {agenda : List ControllerStep} {passed : Bool} {n : List LoadEndNotice} {ends : List Nat}

/-- The playbacks have no work of their own at the frame start, also once it has begun. -/
theorem standing_calm (hc : canonical s) (hf : finds s [] [] [] n ends) (p : Nat) :
    waitsAt ((standing s agenda passed).s.controller.playback p) (standing s agenda passed).s.clock.frame := by
  obtain ⟨-, -, -, -, -, -, -, hplaybacks⟩ := hf
  have hs : (standing s agenda passed).s = { s with clock := { s.clock with frame := s.clock.frame + 1 } } :=
    beginFrame_calm hc hplaybacks
  rw [hs]
  exact hplaybacks p

/-- Beside the controller's next step, a notice found or the end of a slot found may be taken, and nothing else. -/
theorem may_standing (hc : canonical s) (hf : finds s [] [] [] n ends) {i : WorkItem}
    (hi : (standing s agenda passed).may i) :
    i = .controllerStep ∨ (i = .loadEndNotice ∧ n ≠ []) ∨ ∃ k ∈ ends, i = .slotEnd k := by
  obtain ⟨-, -, hwf, -⟩ := hc
  obtain ⟨-, hbands, hgroups, hclock, hports, hnotices, hslots, -⟩ := hf
  have none_due {ρ : Type} {l : List (Staged ρ)} (h : stamped (s.clock.frame + 1) l = [])
      (hd : (takeStaged (s.clock.frame + 1) l).isSome = true) : False := by
    rw [takeStaged_of_stamped_nil h] at hd; cases hd
  cases i with
  | controllerStep => exact .inl rfl
  | bandStaged => exact (none_due hbands hi.1).elim
  | commit => exact (none_due hgroups hi).elim
  | composerStaged => exact (none_due hclock hi).elim
  | portStaged => exact (none_due hports hi).elim
  | slotEnd k =>
    obtain ⟨-, -, hk⟩ := hi
    exact .inr (.inr ⟨k, (hslots k).mpr ((mem_ending hwf).mp hk), rfl⟩)
  | loadEndNotice =>
    refine .inr (.inl ⟨rfl, fun hnil => ?_⟩)
    have hsome : (s.store.notices.find? (fun x => decide (x.frame = s.clock.frame + 1))).isSome = true := hi.1
    rw [List.find?_isSome] at hsome
    obtain ⟨x, hx, hxf⟩ := hsome
    have hmem : x ∈ s.store.notices.filter (fun x => x.frame = s.clock.frame + 1) := List.mem_filter.mpr ⟨hx, hxf⟩
    rw [hnotices, hnil] at hmem
    cases hmem
  | slotMustEnd k => cases hi.2
  | composerReleased | loadAnswer | intakeArrival => exact absurd rfl hi
  | bandReleased | endNotice | resetReport => exact absurd rfl hi.1
  | playbackReleased => simp [FrameWork.may, FrameWork.releasedReady, standing, State.beginFrame] at hi
  | resetArbiter | resetStore | resetEngine | resetController | resetBands | resetGroups => cases hi.1

/-- A step of the controller takes it to another point of its passes. -/
theorem standing_moves (hc : canonical s) (hf : finds s [] [] [] n ends) (hs : standsAt agenda passed) {v : FrameWork}
    (hp : Piece (standing s agenda passed) .controllerStep v) :
    ∃ agenda' passed', standsAt agenda' passed' ∧ v = standing s agenda' passed' := by
  have ⟨hcontroller, _⟩ := hf
  cases hp with
  | stepAtOnce c later ho => cases ho
  | playback e' rest later hd =>
    obtain ⟨hmem, hdue⟩ := firstDue_mem hd
    exact absurd hdue (not_due_of_stamped_nil hcontroller e' hmem)
  | passOver later _ _ ha =>
    obtain rfl : agenda = .stagedPass :: later := ha
    rcases standsAt_cons hs with ⟨-, hlater⟩ | ⟨-, -, ⟨p, hne, -⟩ | ⟨p, hne⟩⟩
    · exact ⟨later, true, hlater, rfl⟩
    · cases hne
    · cases hne
  | step c later _ ha hne =>
    obtain rfl : agenda = c :: later := ha
    rcases standsAt_cons hs with ⟨rfl, -⟩ | ⟨rfl, hlater, ⟨p, rfl, htry⟩ | ⟨p, rfl⟩⟩
    · exact absurd rfl hne
    · rcases sweep_of_waitsAt (standing_calm (agenda := later) (passed := true) hc hf p) with hsweep | hsweep
      · exact ⟨later, true, hlater, hsweep⟩
      · exact ⟨.tryHead p :: later, true, htry, hsweep⟩
    · exact ⟨later, true, hlater, tryHead_of_waitsAt (standing_calm (agenda := later) (passed := true) hc hf p)⟩

/-- Where something is left beside the controller's passes, the work takes it at some point of them. -/
theorem works_found {w u : FrameWork} (hw : Works w u) (hc : canonical s) (hf : finds s [] [] [] n ends)
    (hleft : n ≠ [] ∨ ∃ k, k ∈ ends) (hat : ∃ agenda passed, standsAt agenda passed ∧ w = standing s agenda passed) :
    ∃ agenda passed i v, standsAt agenda passed ∧ (i = .loadEndNotice ∧ n ≠ [] ∨ ∃ k ∈ ends, i = .slotEnd k) ∧
      Piece (standing s agenda passed) i v ∧ Works v u := by
  induction hw with
  | finished w hnothing =>
    obtain ⟨agenda, passed, -, rfl⟩ := hat
    obtain ⟨-, -, -, -, -, hnotices, hslots, -⟩ := hf
    obtain ⟨-, -, -, -, -, -, -, -, -, -, -, -, -, -, hnone, -, -, -, hend, -⟩ := hnothing
    rcases hleft with hn | ⟨k, hk⟩
    · refine absurd (hnotices.symm.trans (List.filter_eq_nil_iff.mpr fun x hx => ?_)) hn
      have hx : x.frame ≠ s.clock.frame + 1 := hnone x hx
      simpa using hx
    · obtain ⟨r, hr, hrun, he⟩ := (hslots k).mp hk
      exact absurd he (hend k r hr hrun)
  | piece w v u i hi hpiece hworks ih =>
    obtain ⟨agenda, passed, hstands, rfl⟩ := hat
    rcases may_standing hc hf ((FrameWork.mem_enabled _ i).mp hi) with rfl | hfound
    · exact ih (standing_moves hc hf hstands hpiece)
    · exact ⟨agenda, passed, i, v, hstands, hfound, hpiece, hworks⟩

/-- The work of the frame start where only notices are stamped with the frame. -/
theorem begun_of_notices (hf : finds s [] [] [] n ends) (agenda : List ControllerStep) (passed : Bool) :
    begun s agenda passed =
      { standing s agenda passed with
        s := { (standing s agenda passed).s with
          store := { s.store with notices := s.store.notices.filter (fun x => x.frame ≠ s.clock.frame + 1) } } } := by
  obtain ⟨hcontroller, hbands, hgroups, -⟩ := hf
  unfold begun
  rw [filter_not_due hcontroller, filter_not_due hbands, filter_not_due hgroups]
  rfl

/-- Where one notice is stamped with the frame, taking it leaves the others. -/
theorem filter_of_one {x y : LoadEndNotice} {f : Nat} {before after : List LoadEndNotice} {l : List LoadEndNotice}
    (h : l.filter (fun z => z.frame = f) = [x]) (hl : l = before ++ y :: after) (hf : y.frame = f) :
    y = x ∧ l.filter (fun z => z.frame ≠ f) = before ++ after := by
  subst hl
  have hsplit : before.filter (fun z => z.frame = f) ++ y :: after.filter (fun z => z.frame = f) = [x] := by
    rw [← h, List.filter_append, List.filter_cons_of_pos (by simpa using hf)]
  cases hb : before.filter (fun z => z.frame = f) with
  | cons z rest =>
    rw [hb] at hsplit
    have hlen := congrArg List.length hsplit
    simp at hlen
  | nil =>
    rw [hb, List.nil_append] at hsplit
    obtain ⟨hyx, ha⟩ := List.cons.inj hsplit
    refine ⟨hyx, ?_⟩
    have keep {m : List LoadEndNotice} (hm : m.filter (fun z => z.frame = f) = []) :
        m.filter (fun z => z.frame ≠ f) = m := by
      simpa [List.filter_eq_nil_iff] using hm
    rw [List.filter_append, List.filter_cons_of_neg (by simpa using hf), keep hb, keep ha]

/-- FRAME_START takes the load-end notice that alone is stamped with the frame, and does what follows from it. -/
theorem frameStart_takesLoadEnd (order : List Nat) {x : LoadEndNotice} (hc : canonical s) (hf : finds s [] [] [] [x] []) :
    ∃ agenda passed, standsAt agenda passed ∧ frameStartDoes order s ((begun s agenda passed).takeLoadEnd x.scene) := by
  obtain ⟨u, hexec, hworks⟩ := frameStart_works (undisturbed order) hc
  obtain ⟨agenda, passed, i, v, hstands, hi, hpiece, hdone⟩ :=
    works_found hworks hc hf (.inl (List.cons_ne_nil x [])) ⟨frameAgenda, false, .inl ⟨rfl, rfl⟩, rfl⟩
  refine ⟨agenda, passed, hstands, u, hexec, ?_⟩
  obtain ⟨rfl, -⟩ | ⟨k, hk, -⟩ := hi
  case inr => cases hk
  cases hpiece with
  | loadEnd y before after hs hy hb =>
    have ⟨_, _, _, _, _, hnotices, _⟩ := hf
    obtain ⟨rfl, hrest⟩ := filter_of_one hnotices hs hy
    rw [begun_of_notices hf, hrest]
    exact hdone

/-- FRAME_START ends the slot whose end alone it finds, and does what follows from it. -/
theorem frameStart_endsSlot (order : List Nat) {k : Nat} (hc : canonical s) (hf : finds s [] [] [] [] [k]) :
    ∃ agenda passed, standsAt agenda passed ∧ frameStartDoes order s ((begun s agenda passed).endSlot k) := by
  obtain ⟨u, hexec, hworks⟩ := frameStart_works (undisturbed order) hc
  obtain ⟨agenda, passed, i, v, hstands, hi, hpiece, hdone⟩ :=
    works_found hworks hc hf (.inr ⟨k, List.mem_singleton_self k⟩) ⟨frameAgenda, false, .inl ⟨rfl, rfl⟩, rfl⟩
  refine ⟨agenda, passed, hstands, u, hexec, ?_⟩
  obtain ⟨-, hn⟩ | ⟨j, hj, rfl⟩ := hi
  · exact absurd rfl hn
  obtain rfl := List.mem_singleton.mp hj
  have ⟨_, _, _, _, _, hnotices, _⟩ := hf
  have hnone : s.store.notices.filter (fun x => x.frame ≠ s.clock.frame + 1) = s.store.notices := by
    simpa using hnotices
  rw [begun_of_notices hf, hnone]
  cases hpiece with
  | slotEnd _ r hr hrun he => exact hdone

end Sys2Proof.Starts
end

section
/-! PROOFS. Fade starts and wakes (R22, R58, R63, R64, R65). -/

namespace Sys2Proof.Starts

open Machine Safety Claims Transitions Releases

variable {w : FrameWork} {p : Nat}

/-- A cue's slot request, and what its answer leads to (R65). -/
theorem startCue_answered (w : FrameWork) (p : Nat) (c : Cue) (pairs : List (Nat × Level)) :
    cueAnswered p c.id
      ((noticesTaken w).requestSlot
        { kind := .cue c.id c.scene, playback := p,
          priority := ((noticesTaken w).s.controller.playback p).priority,
          isPaused := decide (((noticesTaken w).s.controller.playback p).paused ≠ none), pairs := pairs,
          length := c.length, curve := c.curve }) (w.startCue p c pairs) := by
  rw [← isSome_eq_decide]
  change cueAnswered p c.id
    (w.takeNotices.requestSlot (FrameWork.cueRequest (w.takeNotices.playback p) p c pairs)) _
  unfold FrameWork.startCue
  dsimp only
  rcases w.takeNotices.requestSlot (FrameWork.cueRequest (w.takeNotices.playback p) p c pairs) with ⟨v, answer⟩
  cases answer <;> rfl

/-- What the reading of a cue's scene leads to. -/
theorem readScene_read (w : FrameWork) (p : Nat) (c : Cue) : sceneRead w p c (w.readScene p c) := by
  refine ⟨fun h => ?ready, fun h => ?loading, fun h => ?empty⟩
  case ready =>
    have hread : w.readScene p c = w.startCue p c (w.s.store.scene c.scene).entries := by rw [FrameWork.readScene, h]
    rw [hread]
    exact startCue_answered w p c _
  case loading => rw [FrameWork.readScene, h]; rfl
  case empty => rw [FrameWork.readScene, h]

section
variable {c : Cue} {id : Nat} (hc : isCue w p id c)
include hc

theorem fadeStart_of_isCue : w.fadeStart p id = if c.state = .delayed then w.readScene p c else w := by
  have hcue : w.cueOf p id = some c := hc
  simp only [FrameWork.fadeStart, hcue]

theorem wakeCue_of_isCue : w.wakeCue p id = if c.state = .waitScene then w.readScene p c else w := by
  have hcue : w.cueOf p id = some c := hc
  simp only [FrameWork.wakeCue, hcue]

end

theorem startsNothing_of_not_isCue {id : Nat} (h : ∀ c, ¬isCue w p id c) : w.fadeStart p id = w ∧ w.wakeCue p id = w := by
  have hcue : w.cueOf p id = none := Option.eq_none_iff_forall_ne_some.mpr h
  simp only [FrameWork.fadeStart, FrameWork.wakeCue, hcue, and_self]

theorem sweep_paused (h : (w.s.controller.playback p).paused ≠ none) : w.sweep p = w :=
  if_pos (Option.isSome_iff_ne_none.mpr h)

theorem sweep_running (h : (w.s.controller.playback p).paused = none) :
    w.sweep p =
      { w with
        agenda := (((w.s.controller.playback p).inFlight.filter
            (fun c => c.state = .delayed ∧ c.due = some w.s.clock.frame)).map
              (fun c => ControllerStep.fadeStart p c.id)) ++ .tryHead p :: w.agenda } := by
  have hno : ¬(w.playback p).paused.isSome = true := fun hs => Option.isSome_iff_ne_none.mp hs h
  refine (if_neg hno).trans ?_
  unfold FrameWork.doFirst
  rw [List.append_assoc]
  rfl

/-- Settles O48: a notice found alone is taken, and each of the controller's steps reads the scene of a cue in its state. -/
theorem fadeStartsReadTheScene : Obligations.FadeStartsReadTheScene := by
  refine ⟨fun order s n hc hf => frameStart_takesLoadEnd order hc hf, fun w p id => ⟨fun c hc => ⟨fun h => ⟨_, rfl, ?start⟩,
    fun h => ⟨_, rfl, ?wake⟩, fun h => ?noStart, fun h => ?noWake⟩, startsNothing_of_not_isCue, sweep_paused, sweep_running,
    fun scene => rfl⟩⟩
  case start => rw [fadeStart_of_isCue hc, if_pos h]; exact readScene_read w p c
  case wake => rw [wakeCue_of_isCue hc, if_pos h]; exact readScene_read w p c
  case noStart => rw [fadeStart_of_isCue hc, if_neg h]
  case noWake => rw [wakeCue_of_isCue hc, if_neg h]

end Sys2Proof.Starts
end

section
/-! PROOFS. CLEAR at its frame start, and the snap of a RELEASE (R14, R15, R36, R48, R75, R77). -/

namespace Sys2Proof.Clears

open Machine Safety Claims Transitions Playbacks Bands Channels

/-! ## An order and its report (R10, R48) -/

theorem applyOrder_ascending (t : Table Channel) (chosen : Holding → Bool) (become : Channel → Holding) :
    ascending (applyOrder t chosen become).2.lost :=
  (reports_foldl chosen t.cells reports_nil).1

theorem orderTaken_takeLosses (w : FrameWork) {batch : Table Channel × ArbiterReport} (h : ascending batch.2.lost)
    (reason : EndReason) : orderTaken w ((w.setChannels batch.1).takeLosses batch.2.lost reason) batch reason := by
  rw [takeLosses_eq h]
  exact ⟨rfl, foldl_loseIn_afterLosses h w.s.clock.frame w.s.engine⟩

/-! ## Which playbacks a cue's end touches -/

variable {w : FrameWork} {p : Nat}

theorem playback_setPlayback (w : FrameWork) (p : Nat) (v : Playback) (n : Nat) :
    (w.setPlayback p v).playback n = if n = p then v else w.playback n :=
  PlaybackController.playback_setPlayback _ _ _ _

theorem triggerHead_other {n : Nat} (h : n ≠ p) (w : FrameWork) : (w.triggerHead p).playback n = w.playback n := by
  unfold FrameWork.triggerHead
  dsimp only
  split
  · rfl
  · exact (playback_setPlayback _ _ _ _).trans (if_neg h)

theorem tryHead_other {n : Nat} (h : n ≠ p) (w : FrameWork) : (w.tryHead p).playback n = w.playback n := by
  unfold FrameWork.tryHead
  split
  · exact triggerHead_other h w
  · rfl

theorem endCue_other {n : Nat} (h : n ≠ p) (w : FrameWork) (id : Nat) (status : Status) :
    (w.endCue p id status).playback n = w.playback n := by
  unfold FrameWork.endCue
  split
  · rfl
  · refine (tryHead_other h _).trans ?_
    rw [FrameWork.playback, FrameWork.reportCue_controller]
    exact (playback_setPlayback _ _ _ _).trans (if_neg h)

theorem endRelease_other {n : Nat} (h : n ≠ p) (w : FrameWork) (k : Nat) (status : Status) :
    (w.endRelease p k status).playback n = w.playback n := by
  unfold FrameWork.endRelease
  dsimp only
  split
  · split <;> exact (playback_setPlayback _ _ _ _).trans (if_neg h)
  · split <;> rfl

theorem takeNotice_other {n : Nat} {x : EndNotice} (h : n ≠ x.playback) (w : FrameWork) :
    (w.takeNotice x).playback n = w.playback n := by
  unfold FrameWork.takeNotice
  split
  · exact endCue_other h w _ _
  · exact endRelease_other h w _ _

/-! ## A playback with nothing pending (R75) -/

/-- Playback `p` has nothing pending, keeps its settings, and has in flight what it had, or less. -/
structure Leaves (p : Nat) (w w' : FrameWork) : Prop where
  pending : (w'.playback p).pending = []
  inFlight : ∀ c ∈ (w'.playback p).inFlight, c ∈ (w.playback p).inFlight
  priority : (w'.playback p).priority = (w.playback p).priority
  defaultRelease : (w'.playback p).defaultRelease = (w.playback p).defaultRelease

theorem Leaves.of_eq {w' : FrameWork} (h : (w.playback p).pending = []) (he : w'.playback p = w.playback p) :
    Leaves p w w' :=
  ⟨he ▸ h, fun _ hc => he ▸ hc, congrArg _ he, congrArg _ he⟩

theorem Leaves.trans {w₁ w₂ w₃ : FrameWork} (h : Leaves p w₁ w₂) (h' : Leaves p w₂ w₃) : Leaves p w₁ w₃ :=
  ⟨h'.pending, fun c hc => h.inFlight c (h'.inFlight c hc), h'.priority.trans h.priority,
    h'.defaultRelease.trans h.defaultRelease⟩

theorem tryHead_of_nothing_pending (h : (w.playback p).pending = []) : w.tryHead p = w :=
  tryHead_of_not_due (by rw [headDue_nil h]; exact nofun)

/-- The end of a cue of a playback with nothing pending takes the cue out of the flight, and triggers none. -/
theorem inFlight_endCue (h : (w.playback p).pending = []) (id : Nat) (status : Status) :
    Leaves p w (w.endCue p id status) ∧ ∀ c ∈ ((w.endCue p id status).playback p).inFlight, c.id ≠ id := by
  unfold FrameWork.endCue
  split
  case h_1 hnone =>
    exact ⟨.of_eq h rfl, fun c hc he => by simpa [he] using List.find?_eq_none.mp hnone c hc⟩
  case h_2 c hc =>
    generalize hq : ({ w.playback p with
        inFlight := (w.playback p).inFlight.filter (fun d => decide (d.id ≠ id))
        lastTrigger := if decide ((w.playback p).lastTrigger = .inFlight id) then .ended else (w.playback p).lastTrigger
        pending :=
          if decide ((w.playback p).lastTrigger = .inFlight id) then w.followDue (w.playback p) (w.playback p).pending
          else (w.playback p).pending } : Playback) = q
    have hpending : q.pending = [] := by
      rw [← hq, h]
      exact ite_self _
    have hplayback : ((w.setPlayback p q).reportCue { c with terminal := some status } status).playback p = q := by
      rw [FrameWork.playback, FrameWork.reportCue_controller]
      exact (playback_setPlayback _ _ _ _).trans (if_pos rfl)
    have hinFlight : q.inFlight = (w.playback p).inFlight.filter (fun d => decide (d.id ≠ id)) := by rw [← hq]
    have htry := tryHead_of_nothing_pending
      (w := (w.setPlayback p q).reportCue { c with terminal := some status } status) (p := p) (by rw [hplayback, hpending])
    dsimp only
    rw [hq, htry]
    refine ⟨⟨by rw [hplayback, hpending], fun d hd => ?_, ?_, ?_⟩, fun d hd => ?_⟩
    · rw [hplayback, hinFlight] at hd
      exact (List.mem_filter.mp hd).1
    · rw [hplayback, ← hq]
    · rw [hplayback, ← hq]
    · rw [hplayback, hinFlight] at hd
      simpa using (List.mem_filter.mp hd).2

theorem endCue_leaves (h : (w.playback p).pending = []) (n id : Nat) (status : Status) :
    Leaves p w (w.endCue n id status) := by
  by_cases hn : p = n
  · subst hn
    exact (inFlight_endCue h id status).1
  · exact .of_eq h (endCue_other hn w id status)

theorem endRelease_leaves (h : (w.playback p).pending = []) (n k : Nat) (status : Status) :
    Leaves p w (w.endRelease n k status) := by
  by_cases hn : p = n
  · subst hn
    unfold FrameWork.endRelease
    dsimp only
    split
    · have hplayback : (w.setPlayback p { w.playback p with releaseSlot := none, releaseRecord := none }).playback p =
          { w.playback p with releaseSlot := none, releaseRecord := none } :=
        (playback_setPlayback _ _ _ _).trans (if_pos rfl)
      have hleaves : Leaves p w (w.setPlayback p { w.playback p with releaseSlot := none, releaseRecord := none }) :=
        ⟨by rw [hplayback]; exact h, fun c hc => by rw [hplayback] at hc; exact hc, by rw [hplayback], by rw [hplayback]⟩
      split
      · exact hleaves.trans (.of_eq hleaves.pending rfl)
      · exact hleaves
    · split <;> exact .of_eq h rfl
  · exact .of_eq h (endRelease_other hn w k status)

theorem takeNotice_leaves (h : (w.playback p).pending = []) (x : EndNotice) : Leaves p w (w.takeNotice x) := by
  unfold FrameWork.takeNotice
  split
  · exact endCue_leaves h _ _ _
  · exact endRelease_leaves h _ _ _

/-- Taking notices of other cues and RELEASEs, one after the other. -/
theorem foldl_leaves {α : Type} {g : FrameWork → α → FrameWork}
    (hg : ∀ (v : FrameWork) (x : α), (v.playback p).pending = [] → Leaves p v (g v x)) (l : List α)
    (h : (w.playback p).pending = []) : Leaves p w (l.foldl g w) := by
  induction l generalizing w with
  | nil => exact .of_eq h rfl
  | cons x l ih => exact (hg w x h).trans (ih (hg w x h).pending)

theorem noticesTaken_leaves (h : (w.playback p).pending = []) : Leaves p w (noticesTaken w) :=
  have hleaves := foldl_leaves (w := { w with notices := [] }) (fun _ x hv => takeNotice_leaves hv x) w.notices h
  ⟨hleaves.pending, hleaves.inFlight, hleaves.priority, hleaves.defaultRelease⟩

theorem noticesTaken_other {n : Nat} (h : ∀ x ∈ w.notices, n ≠ x.playback) :
    (noticesTaken w).playback n = w.playback n := by
  have hfold (l : List EndNotice) (v : FrameWork) (hl : ∀ x ∈ l, n ≠ x.playback) :
      (l.foldl FrameWork.takeNotice v).playback n = v.playback n := by
    induction l generalizing v with
    | nil => rfl
    | cons x l ih =>
      obtain ⟨hx, hl⟩ := List.forall_mem_cons.mp hl
      exact (ih (v.takeNotice x) hl).trans (takeNotice_other hx v)
  exact hfold w.notices { w with notices := [] } h

/-! ## The waiting cues of a playback with nothing pending (R75) -/

/-- Once the cues with these numbers have ended, none of them is in flight. -/
theorem foldl_endCue (l : List Cue) (status : Status) (h : (w.playback p).pending = []) :
    Leaves p w (l.foldl (fun v c => v.endCue p c.id status) w) ∧
      ∀ c ∈ ((l.foldl (fun v c => v.endCue p c.id status) w).playback p).inFlight, ∀ d ∈ l, c.id ≠ d.id := by
  induction l generalizing w with
  | nil => exact ⟨.of_eq h rfl, fun _ _ _ hd => absurd hd List.not_mem_nil⟩
  | cons x l ih =>
    obtain ⟨hleaves, hgone⟩ := inFlight_endCue h x.id status
    obtain ⟨hrest, hothers⟩ := ih (w := w.endCue p x.id status) hleaves.pending
    refine ⟨hleaves.trans hrest, fun c hc d hd => ?_⟩
    rcases List.mem_cons.mp hd with rfl | hd
    · exact hgone c (hrest.inFlight c hc)
    · exact hothers c hc d hd

theorem waitersCancelled_leaves (h : (w.playback p).pending = []) : Leaves p w (waitersCancelled w p) :=
  (foldl_endCue _ _ h).1

/-- What is still in flight after the waiting cues have ended is not waiting. -/
theorem not_waiting_of_waitersCancelled (h : (w.playback p).pending = []) {c : Cue}
    (hc : c ∈ ((waitersCancelled w p).playback p).inFlight) : c.state ≠ .delayed ∧ c.state ≠ .waitScene := by
  obtain ⟨hleaves, hgone⟩ := foldl_endCue (waiters w p) .cancelled h
  have hmem := hleaves.inFlight c hc
  have hout : c ∉ waiters w p := fun hw => hgone c hc c hw rfl
  simpa [waiters, FrameWork.playback] using fun hstate => hout (List.mem_filter.mpr ⟨hmem, hstate⟩)

theorem waitersCancelled_other {n : Nat} (h : n ≠ p) : (waitersCancelled w p).playback n = w.playback n := by
  have hfold (l : List Cue) (v : FrameWork) :
      (l.foldl (fun v c => v.endCue p c.id .cancelled) v).playback n = v.playback n := by
    induction l generalizing v with
    | nil => rfl
    | cons x l ih => exact (ih _).trans (endCue_other h v x.id .cancelled)
  exact hfold _ w

/-! ## CLEAR (R75) -/

theorem foldl_reports_controller (l : List Cue) (status : Status) (w : FrameWork) :
    (l.foldl (fun v c => reports v c status) w).s.controller = w.s.controller := by
  induction l generalizing w with
  | nil => rfl
  | cons c l ih => exact (ih _).trans (FrameWork.reportCue_controller w c status)

theorem playback_pendingCancelled (w : FrameWork) (p n : Nat) :
    (pendingCancelled w p).playback n = if n = p then { w.playback p with pending := [] } else w.playback n := by
  have hset := playback_setPlayback ((w.playback p).pending.foldl (fun v c => reports v c .cancelled) w) p
    { w.playback p with pending := [] } n
  refine hset.trans ?_
  split
  · rfl
  · exact congrArg (fun c => c.playback n) (foldl_reports_controller _ .cancelled w)

/-- The clear order is sent and its report taken (R14, R48). -/
def clearOrdered (a : FrameWork) (p : Nat) : FrameWork :=
  (a.setChannels (clearOrder a.s.arbiter.channels p).1).takeLosses (clearOrder a.s.arbiter.channels p).2.lost .cleared

theorem clearOrdered_taken (a : FrameWork) (p : Nat) :
    orderTaken a (clearOrdered a p) (clearOrder a.s.arbiter.channels p) .cleared :=
  orderTaken_takeLosses a (applyOrder_ascending _ _ _) .cleared

theorem waitersCancelled_eq (w : FrameWork) (p : Nat) :
    FrameWork.cancelWaiting ((w.cancelCues (w.playback p).pending).setPlayback p { w.playback p with pending := [] }) p =
      waitersCancelled (pendingCancelled w p) p := rfl

theorem applyClear_eq (hr : w.resetArbiter = false) (o : Owed) {a v : FrameWork}
    (ha : waitersCancelled (pendingCancelled w p) p = a) (hv : clearOrdered a p = v) :
    w.applyClear p o =
      (withPlayback (noticesTaken v) p { (noticesTaken v).s.controller.playback p with paused := none }).finish o .ok
        ((w.s.controller.playback p).pending.length + (waiters w p).length +
          cueSlotsIn a.s.engine (clearOrder a.s.arbiter.channels p).2.lost) := by
  unfold FrameWork.applyClear
  dsimp only
  rw [waitersCancelled_eq, if_neg (by rw [hr]; exact nofun), ha, ← hv]
  rfl

/-- Settles O50: the order follows the cancelled cues, its notices are taken, and the marker goes. A playback with nothing
pending triggers no cue, so that what is left in flight was in flight, and none of it waits. -/
theorem clearAndSnapLetGo : Obligations.ClearAndSnapLetGo := by
  refine ⟨fun order s e p hc hf he => ?frame, fun w p o hc hr => ⟨?clear, ?snap⟩⟩
  case frame =>
    have hdoes := frameStart_applies order hc hf
    rw [he] at hdoes
    exact hdoes
  case snap =>
    refine ⟨_, orderTaken_takeLosses w (applyOrder_ascending _ _ _) .snapped, ?_⟩
    exact if_neg (by rw [hr]; exact nofun)
  case clear =>
    generalize ha : waitersCancelled (pendingCancelled w p) p = a
    generalize hv : clearOrdered a p = v
    have hpending := playback_pendingCancelled w p p
    rw [if_pos rfl] at hpending
    have hnone : ((pendingCancelled w p).playback p).pending = [] := congrArg Playback.pending hpending
    have hwaiters : Leaves p (pendingCancelled w p) a := ha ▸ waitersCancelled_leaves hnone
    have htaken := clearOrdered_taken a p
    rw [hv] at htaken
    have hsame : v.s.controller = a.s.controller := by rw [htaken.1]
    have horder : Leaves p a v := .of_eq hwaiters.pending (congrArg (fun c => c.playback p) hsame)
    have hnotices : Leaves p v (noticesTaken v) := noticesTaken_leaves horder.pending
    have hleaves := hwaiters.trans (horder.trans hnotices)
    have heq := applyClear_eq hr o ha hv
    have hother (n : Nat) : (w.applyClear p o).playback n =
        if n = p then { (noticesTaken v).playback p with paused := none } else (noticesTaken v).playback n := by
      rw [heq]
      exact playback_setPlayback _ _ _ _
    have hown := hother p
    rw [if_pos rfl] at hown
    have hinFlight : ((pendingCancelled w p).playback p).inFlight = (w.playback p).inFlight :=
      by rw [hpending]
    have hpriority : ((pendingCancelled w p).playback p).priority = (w.playback p).priority := by rw [hpending]
    have hdefault : ((pendingCancelled w p).playback p).defaultRelease = (w.playback p).defaultRelease := by
      rw [hpending]
    refine ⟨a, v, rfl, htaken, heq, ?_, ?_, fun c hc => ?_, ?_, ?_, fun hnone n hn => ?_⟩
    · exact (congrArg Playback.pending hown).trans hnotices.pending
    · exact congrArg Playback.paused hown
    · have hmem : c ∈ ((noticesTaken v).playback p).inFlight := (congrArg Playback.inFlight hown) ▸ hc
      have hleft := (horder.trans hnotices).inFlight c hmem
      exact ⟨hinFlight ▸ hleaves.inFlight c hmem, not_waiting_of_waitersCancelled hnone (ha ▸ hleft)⟩
    · exact (congrArg Playback.priority hown).trans (hleaves.priority.trans hpriority)
    · exact (congrArg Playback.defaultRelease hown).trans (hleaves.defaultRelease.trans hdefault)
    · calc
        (w.applyClear p o).playback n = (noticesTaken v).playback n := (hother n).trans (if_neg hn)
        _ = v.playback n := noticesTaken_other fun x hx he => hn (he.trans (hnone x hx))
        _ = a.playback n := congrArg (fun c => c.playback n) hsame
        _ = (pendingCancelled w p).playback n := ha ▸ waitersCancelled_other hn
        _ = w.playback n := (playback_pendingCancelled w p n).trans (if_neg hn)

end Sys2Proof.Clears
end

section
/-! PROOFS. What a move of the Host Queue Unit keeps: the seventh and the twelfth law, the quiet of the unit outside
RUNNING, and registers that fit their bits. -/

namespace Sys2Proof.Interface

open Machine Safety

/-- The laws of the Host Queue Unit's own record (R159, R163, R169, R174, R179), with its tables in canonical form. -/
structure HostLaws (u : HostUnit) : Prop where
  submission : u.submission.wf SubmissionQueue.inactive = true
  completion : u.completion.wf CompletionQueue.inactive = true
  room : ∀ m, (u.cq m).posted + (u.cq m).reserved ≤ (u.cq m).size - 1
  events : u.events.Pairwise (fun a b => ¬(a.kind = b.kind ∧ a.object = b.object))
  haltQueue : u.haltQueue < 4
  tails : ∀ n, (u.sq n).tail < 65536
  heads : ∀ m, (u.cq m).head < 65536
  quiet : u.state ≠ .running → u.fetch = none ∧ u.writes = [] ∧ (∀ n, u.sq n = SubmissionQueue.inactive) ∧
    ∀ m, u.cq m = CompletionQueue.inactive
  enable : u.enable = true ↔ u.state ≠ .off

/-- A move of the unit that keeps its laws and does not leave RUNNING. -/
def HostKept (u v : HostUnit) : Prop := HostLaws u → HostLaws v ∧ (u.state = .running → v.state = .running)

theorem HostKept.refl (u : HostUnit) : HostKept u u := fun h => ⟨h, id⟩

theorem HostKept.trans {u v x : HostUnit} (h : HostKept u v) (h' : HostKept v x) : HostKept u x := fun hu =>
  ⟨(h' (h hu).1).1, (h' (h hu).1).2 ∘ (h hu).2⟩

/-- What a move needs may come from the laws. -/
theorem HostKept.of_laws {u v : HostUnit} (h : HostLaws u → HostKept u v) : HostKept u v := fun hu => h hu hu

/-- The laws read eight fields. -/
theorem HostLaws.of_same {u v : HostUnit} (h : HostLaws u) (hsub : v.submission = u.submission)
    (hcom : v.completion = u.completion) (hev : v.events = u.events) (hq : v.haltQueue = u.haltQueue)
    (hf : v.fetch = u.fetch) (hw : v.writes = u.writes) (hs : v.state = u.state) (he : v.enable = u.enable) :
    HostLaws v := by
  have hsq (n : Nat) : v.sq n = u.sq n := by unfold HostUnit.sq; rw [hsub]
  have hcq (m : Nat) : v.cq m = u.cq m := by unfold HostUnit.cq; rw [hcom]
  exact
    { submission := hsub ▸ h.submission, completion := hcom ▸ h.completion
      room := fun m => by rw [hcq]; exact h.room m
      events := hev ▸ h.events, haltQueue := hq ▸ h.haltQueue
      tails := fun n => by rw [hsq]; exact h.tails n
      heads := fun m => by rw [hcq]; exact h.heads m
      quiet := fun hne => by
        obtain ⟨h1, h2, h3, h4⟩ := h.quiet (hs ▸ hne)
        exact ⟨hf.trans h1, hw.trans h2, fun n => (hsq n).trans (h3 n), fun m => (hcq m).trans (h4 m)⟩
      enable := by rw [he, hs]; exact h.enable }

theorem HostKept.of_same {u v : HostUnit} (hsub : v.submission = u.submission)
    (hcom : v.completion = u.completion) (hev : v.events = u.events) (hq : v.haltQueue = u.haltQueue)
    (hf : v.fetch = u.fetch) (hw : v.writes = u.writes) (hs : v.state = u.state) (he : v.enable = u.enable) :
    HostKept u v := fun h => ⟨h.of_same hsub hcom hev hq hf hw hs he, fun hr => hs.trans hr⟩

/-! ## Moves of a running unit -/

theorem kept_setSq {u : HostUnit} (hr : u.state = .running) (q : Nat) (x : SubmissionQueue)
    (hx : x.tail = (u.sq q).tail ∨ x.tail < 65536) : HostKept u (u.setSq q x) := fun h =>
  ⟨{ submission := Table.set_wf _ _ _ _ h.submission, completion := h.completion, room := h.room, events := h.events
     haltQueue := h.haltQueue
     tails := fun n => by
       rw [HostUnit.sq_setSq]
       split
       · rcases hx with he | hlt
         · exact he ▸ h.tails q
         · exact hlt
       · exact h.tails n
     heads := h.heads, quiet := fun hne => absurd hr hne, enable := h.enable }, fun _ => hr⟩

theorem kept_setCq {u : HostUnit} (hr : u.state = .running) (m : Nat) (x : CompletionQueue)
    (hroom : (u.cq m).posted + (u.cq m).reserved ≤ (u.cq m).size - 1 → x.posted + x.reserved ≤ x.size - 1)
    (hx : x.head = (u.cq m).head ∨ x.head < 65536) : HostKept u (u.setCq m x) := fun h =>
  ⟨{ submission := h.submission, completion := Table.set_wf _ _ _ _ h.completion
     room := fun n => by
       rw [HostUnit.cq_setCq]
       split
       · exact hroom (h.room m)
       · exact h.room n
     events := h.events, haltQueue := h.haltQueue, tails := h.tails
     heads := fun n => by
       rw [HostUnit.cq_setCq]
       split
       · rcases hx with he | hlt
         · exact he ▸ h.heads m
         · exact hlt
       · exact h.heads n
     quiet := fun hne => absurd hr hne, enable := h.enable }, fun _ => hr⟩

/-- The fetch, the writes and the last grant are free while the interface is RUNNING. -/
theorem kept_traffic {u : HostUnit} (hr : u.state = .running) (x : Option Fetch) (l : List RecordWrite) (g : Nat) :
    HostKept u { u with fetch := x, writes := l, lastGranted := g } := fun h =>
  ⟨{ submission := h.submission, completion := h.completion, room := h.room, events := h.events,
     haltQueue := h.haltQueue, tails := h.tails, heads := h.heads, quiet := fun hne => absurd hr hne,
     enable := h.enable }, fun _ => hr⟩

/-- A fetch is out in RUNNING only. -/
theorem HostLaws.running_of_fetch {u : HostUnit} (h : HostLaws u) {x : Fetch} (hx : u.fetch = some x) :
    u.state = .running := by
  by_contra hne
  obtain ⟨hnone, -, -, -⟩ := h.quiet hne
  rw [hnone] at hx
  cases hx

/-- A queue that differs from an inactive one stands in RUNNING only. -/
theorem HostLaws.running_of_sq {u : HostUnit} (h : HostLaws u) {n : Nat} (hn : u.sq n ≠ SubmissionQueue.inactive) :
    u.state = .running := by
  by_contra hne
  obtain ⟨-, -, hsq, -⟩ := h.quiet hne
  exact hn (hsq n)

/-! ## Completions and events (R167, R169, R170) -/

/-- A posted completion moves an entry from reserved to posted; an event posts an unreserved entry (R163). -/
theorem kept_postRecord {u : HostUnit} (hr : u.state = .running) (m : Nat) (reserved : Bool) (bytes : List Byte)
    (h : if reserved = true then 0 < (u.cq m).reserved else (u.cq m).hasRoom = true) :
    HostKept u (u.postRecord m reserved bytes) := by
  have hcq : HostKept u (u.setCq m ((u.cq m).afterPost reserved)) := by
    refine kept_setCq hr m _ (fun hle => ?_) (.inl rfl)
    unfold CompletionQueue.afterPost
    cases reserved with
    | true =>
      have hpos : 0 < (u.cq m).reserved := by simpa using h
      simp only [if_true]
      omega
    | false =>
      have hroom : (u.cq m).hasRoom = true := by simpa using h
      unfold CompletionQueue.hasRoom at hroom
      rw [decide_eq_true_iff] at hroom
      simp only [Bool.false_eq_true, if_false]
      omega
  exact hcq.trans (kept_traffic (u := u.setCq m ((u.cq m).afterPost reserved)) hr u.fetch _ u.lastGranted)

theorem kept_complete (u : HostUnit) (o : Owed) (st : Status) (n : Nat) : HostKept u (u.complete o st n) := by
  unfold HostUnit.complete
  split
  case isFalse => exact .refl u
  case isTrue hp =>
    unfold HostUnit.postable at hp
    simp only [Bool.and_eq_true, decide_eq_true_iff] at hp
    obtain ⟨⟨-, hr⟩, hpos⟩ := hp
    exact (kept_postRecord hr (u.sq o.ctx.sq).boundCq true
      (completionRecord o.ctx st n (u.cq (u.sq o.ctx.sq).boundCq).nextSequence) (by simpa using hpos)).trans
      (kept_setSq (u := u.postRecord _ _ _) hr o.ctx.sq (u.sq o.ctx.sq).afterCompletion (.inl rfl))

theorem kept_raiseEvent (u : HostUnit) (e : EventEntry) : HostKept u (u.raiseEvent e) := by
  unfold HostUnit.raiseEvent
  split
  case isTrue => exact .refl u
  case isFalse hany =>
    refine fun h => ⟨?_, id⟩
    have hpair : (u.events ++ [e]).Pairwise (fun a b => ¬(a.kind = b.kind ∧ a.object = b.object)) := by
      refine List.pairwise_append.2 ⟨h.events, List.pairwise_singleton _ _, fun x hx y hy he => hany ?_⟩
      rw [List.mem_singleton.1 hy] at he
      exact List.any_eq_true.2 ⟨x, hx, decide_eq_true he⟩
    exact
      { submission := h.submission, completion := h.completion, room := h.room, events := hpair,
        haltQueue := h.haltQueue, tails := h.tails, heads := h.heads, quiet := h.quiet, enable := h.enable }

theorem kept_setInterrupts (u : HostUnit) (cause mask : BitVec 6) : HostKept u (u.setInterrupts cause mask) :=
  .of_same rfl rfl rfl rfl rfl rfl rfl rfl

/-! ## Fences, fetches and tails (R162, R164, R166) -/

theorem kept_returnEntry {u : HostUnit} (hr : u.state = .running) (q : Nat) : HostKept u (u.returnEntry q) :=
  kept_setCq hr _ _ (fun h => by dsimp only; omega) (.inl rfl)

theorem kept_dropFetch {u : HostUnit} (hr : u.state = .running) (q : Nat) : HostKept u (u.dropFetch q) :=
  (kept_returnEntry hr q).trans (kept_traffic (u := u.returnEntry q) hr none u.writes u.lastGranted)

theorem kept_staleFetch (u : HostUnit) (q : Nat) : HostKept u (u.staleFetch q) := by
  refine .of_laws fun h => ?_
  unfold HostUnit.staleFetch
  split
  case h_1 x hx =>
    have hr := h.running_of_fetch hx
    split
    · exact kept_traffic hr _ u.writes u.lastGranted
    · exact .refl u
  case h_2 => exact .refl u

theorem staleFetch_state (u : HostUnit) (q : Nat) : (u.staleFetch q).state = u.state := by
  unfold HostUnit.staleFetch
  split
  · split <;> rfl
  · rfl

theorem kept_discardFence {u : HostUnit} (hr : u.state = .running) (q : Nat) : HostKept u (u.discardFence q) := by
  unfold HostUnit.discardFence
  split
  · exact (kept_setSq hr q { u.sq q with fence := none } (.inl rfl)).trans
      (kept_returnEntry (u := u.setSq q { u.sq q with fence := none }) hr q)
  · exact .refl u

theorem discardFence_state (u : HostUnit) (q : Nat) : (u.discardFence q).state = u.state := by
  unfold HostUnit.discardFence
  split <;> rfl

/-- A queue that becomes FAULTED loses its fetch and its fence wait (R162). -/
theorem kept_faultQueue {s : State} (hr : s.host.state = .running) (q detail : Nat) :
    HostKept s.host (s.faultQueue q detail).host := by
  have hstale := (staleFetch_state s.host q).trans hr
  have hdiscard := (discardFence_state (s.host.staleFetch q) q).trans hstale
  exact (((kept_staleFetch s.host q).trans (kept_discardFence hstale q)).trans
    (kept_setSq hdiscard q { (s.host.staleFetch q |>.discardFence q).sq q with state := .faulted } (.inl rfl))).trans
    (kept_raiseEvent _ _)

theorem kept_advance {u : HostUnit} (hr : u.state = .running) (q : Nat) : HostKept u (u.advance q) :=
  kept_setSq hr q
    { u.sq q with
      head := ringNext (u.sq q).head (u.sq q).size, outstanding := (u.sq q).outstanding + 1, fence := none } (.inl rfl)

theorem kept_grant {u : HostUnit} {q : Nat} (h : u.nextGrant = some q) : HostKept u (u.grant q) := by
  have hgrant := List.find?_some h
  unfold HostUnit.mayGrant HostUnit.condition at hgrant
  simp only [Bool.and_eq_true, decide_eq_true_iff] at hgrant
  obtain ⟨⟨⟨hr, -⟩, -⟩, hcond⟩ := hgrant
  have hroom : (u.cq (u.sq q).boundCq).hasRoom = true := by
    split at hcond
    · cases hcond
    · split at hcond
      · cases hcond
      · split at hcond
        · assumption
        · cases hcond
  unfold CompletionQueue.hasRoom at hroom
  rw [decide_eq_true_iff] at hroom
  exact (kept_setCq hr (u.sq q).boundCq
    { u.cq (u.sq q).boundCq with reserved := (u.cq (u.sq q).boundCq).reserved + 1 } (fun _ => by dsimp only; omega)
    (.inl rfl)).trans (kept_traffic (u := u.setCq _ _) hr _ u.writes q)

/-! ## Starting (R160) -/

theorem startedSq_tail (q : TableSq) : (startedSq q).tail = 0 := by
  unfold startedSq
  split <;> rfl

theorem startedCq_fresh (q : TableCq) :
    (startedCq q).posted = 0 ∧ (startedCq q).reserved = 0 ∧ (startedCq q).head = 0 := by
  unfold startedCq
  split <;> exact ⟨rfl, rfl, rfl⟩

theorem foldl_set_wf {α : Type} [DecidableEq α] (d : α) (f : Nat → α) (l : List Nat) : ∀ t : Table α, t.wf d = true →
    (l.foldl (fun acc n => acc.set d n (f n)) t).wf d = true := by
  induction l with
  | nil => exact fun _ h => h
  | cons n l ih => exact fun t h => ih _ (Table.set_wf _ _ _ _ h)

/-- The four queues are written over a unit whose queues are inactive (R160). -/
theorem kept_start {u : HostUnit} (hs : u.state = .starting) (bytes : List Byte) : HostKept u (u.start bytes) := by
  refine fun h => ⟨?_, fun _ => rfl⟩
  have hne : u.state ≠ .running := by rw [hs]; nofun
  obtain ⟨-, -, hsq, hcq⟩ := h.quiet hne
  have hsq' (n : Nat) : (u.start bytes).sq n = if n < 4 then startedSq (tableSq bytes n) else SubmissionQueue.inactive := by
    rw [Queues.start_eq]
    exact (Queues.get_foldl_set _ _ _ _ _).trans (by rw [show u.submission.get _ n = _ from hsq n])
  have hcq' (m : Nat) : (u.start bytes).cq m = if m < 4 then startedCq (tableCq bytes m) else CompletionQueue.inactive := by
    rw [Queues.start_eq]
    exact (Queues.get_foldl_set _ _ _ _ _).trans (by rw [show u.completion.get _ m = _ from hcq m])
  have hfresh (m : Nat) :
      ((u.start bytes).cq m).posted = 0 ∧ ((u.start bytes).cq m).reserved = 0 ∧ ((u.start bytes).cq m).head = 0 := by
    rw [hcq']
    split
    · exact startedCq_fresh _
    · exact ⟨rfl, rfl, rfl⟩
  have henable : u.enable = true := h.enable.2 (by rw [hs]; nofun)
  exact
    { submission := by rw [Queues.start_eq]; exact foldl_set_wf _ _ _ _ h.submission
      completion := by rw [Queues.start_eq]; exact foldl_set_wf _ _ _ _ h.completion
      room := fun m => by
        obtain ⟨hp, hr, -⟩ := hfresh m
        rw [hp, hr]
        exact Nat.zero_le _
      events := by rw [Queues.start_eq]; exact h.events
      haltQueue := by rw [Queues.start_eq]; exact h.haltQueue
      tails := fun n => by
        rw [hsq']
        split
        · rw [startedSq_tail]; decide
        · decide
      heads := fun m => by
        obtain ⟨-, -, hh⟩ := hfresh m
        rw [hh]; decide
      quiet := fun hne' => absurd rfl hne'
      enable := by
        rw [Queues.start_eq]
        exact ⟨fun _ => nofun, fun _ => henable⟩ }

end Sys2Proof.Interface
end

section
/-! PROOFS. Everything that a command other than COLD_RESET and FRAME_START can do to the state, said once: it is a path
of edits, each of which changes one block in a bounded way. An invariant is kept by such a command if each edit
keeps it. -/

namespace Sys2Proof.Steps

open Machine Safety Interface

/-! ## Edits -/

/-- The frame periods in force, accepted and staged are legal (R100, R111), of a clock. -/
def PeriodsLegal (c : FrameClock) : Prop :=
  (25 ≤ c.period ∧ c.period ≤ 400) ∧ (25 ≤ c.acceptedPeriod ∧ c.acceptedPeriod ≤ 400) ∧
  ∀ e ∈ c.staged, ∀ p, e.request = .setPeriod p → 25 ≤ p ∧ p ≤ 400

/-- At most 16 cues pending and 4 in flight (R55), of a playback. -/
def CuesFit (p : Playback) : Prop := p.pending.length ≤ 16 ∧ p.inFlight.length ≤ 4

/-- The eighth law (R119), of a hold list. -/
def HoldFits (l : List HeldRequest) : Prop := l.length ≤ 128 ∧ ∀ h ∈ l, 1 ≤ h.group ∧ h.group ≤ 15

/-- A list that has entries had some before, or the interface is RUNNING. -/
def Starts {α : Type} (s : State) (before after : List α) : Prop := after ≠ [] → before ≠ [] ∨ s.host.state = .running

/-- One edit of a command. `r` says that the interface is known to be quiet outside RUNNING: then a request is held, a
load queued and a snapshot taken in RUNNING only (R159). -/
inductive Edit (r : Prop) : State → State → Prop
  | host (s : State) (u : HostUnit) (h : HostKept s.host u) : Edit r s { s with host := u }
  | supplied (s : State) (u : Supply) (v : HostUnit) (h : HostKept s.host v)
      (hw : s.supply.feeds.wf Feed.atReset = true → u.feeds.wf Feed.atReset = true)
      (hl : sequencerLaw s → sequencerLaw { s with supply := u }) : Edit r s { s with supply := u, host := v }
  | controller (s : State) (c : PlaybackController)
      (hw : s.controller.playbacks.wf Playback.atReset = true → c.playbacks.wf Playback.atReset = true)
      (hp : ∀ p, CuesFit (s.controller.playback p) → CuesFit (c.playback p)) : Edit r s { s with controller := c }
  | bands (s : State) (l : List (Staged BandRequest)) : Edit r s { s with bands := { s.bands with staged := l } }
  | clock (s : State) (c : FrameClock) (hparks : c.parks = s.clock.parks)
      (hperiods : PeriodsLegal s.clock → PeriodsLegal c) (hreads : r → Starts s s.clock.reads c.reads) :
      Edit r s { s with clock := c }
  | groups (s : State) (g : GroupUnit) (hh : HoldFits s.groups.hold → HoldFits g.hold)
      (hhold : r → Starts s s.groups.hold g.hold) : Edit r s { s with groups := g }
  | ports (s : State) (u : StripPorts)
      (hw : s.ports.records.wf Port.atReset = true → u.records.wf Port.atReset = true) : Edit r s { s with ports := u }
  | lasts (s : State) (f : Nat → Channel → Level) :
      Edit r s
        { s with
          arbiter := { s.arbiter with
            channels := s.arbiter.channels.mapCells Channel.dark (fun c ch => { ch with last := f c ch }) } }
  | loadScene (s : State) (c : Ctx) (i n : Nat) (a : HostAddress) (h : s.store.loadSceneRefusal i n = none)
      (hn : 1 ≤ n) (hr : r → s.host.state = .running) :
      Edit r s { s with store := s.store.acceptLoadScene c i n a }
  | loadBand (s : State) (c : Ctx) (q : BandLoadRequest) (h : s.loadBandRefusal q.band = none)
      (hn : 1 ≤ q.lead + q.roll + q.tail) (hr : r → s.host.state = .running) : Edit r s (s.acceptLoadBand c q)
  | deleteScene (s : State) (i : Nat) (h : (s.store.scene i).state = .ready) (hu : (s.store.scene i).useCount = 0) :
      Edit r s { s with store := s.store.emptyScene i }
  | loadAnswer (s : State) (f : Nat) (a : LoadAnswer) : Edit r s (s.loadAnswer f a)
  | interfaceReset (s : State) (u : HostUnit) (h : HostLaws s.host → HostLaws u) :
      Edit r s { s.hostInterfaceReset with host := u }

/-- A path of edits. -/
abbrev Edits (r : Prop) : State → State → Prop := Relation.ReflTransGen (Edit r)

section
variable {r : Prop} {s t : State}

theorem one (h : Edit r s t) : Edits r s t := .single h

theorem nil : Edits r s s := .refl

/-- What every edit keeps, a path keeps. -/
theorem Edits.keeps {P : State → Prop} (hP : ∀ s t, Edit r s t → P s → P t) (h : Edits r s t) (hs : P s) : P t := by
  induction h with
  | refl => exact hs
  | tail _ hedit ih => exact hP _ _ hedit ih

theorem ite_edits {p : Prop} [Decidable p] {a b : State} (ha : Edits r s a) (hb : Edits r s b) :
    Edits r s (if p then a else b) := by
  split
  · exact ha
  · exact hb

/-- Only the host unit is changed. -/
theorem host_edits (u : HostUnit) (h : HostKept s.host u) : Edits r s { s with host := u } := one (.host s u h)

theorem finishNow_edits (c : Ctx) (st : Status) (n : Nat) : Edits r s (s.finishNow c st n) :=
  host_edits _ (kept_complete _ _ _ _)

theorem raiseEvent_edits (k : EventKind) (o n d : Nat) : Edits r s (s.raiseEvent k o n d) :=
  host_edits _ (kept_raiseEvent _ _)

/-! ## The supply (R143 to R154) -/

/-- Only the supply and the host unit are changed. -/
def SupplyMoves (s t : State) : Prop :=
  ∃ u v, t = { s with supply := u, host := v } ∧ HostKept s.host v ∧
    (s.supply.feeds.wf Feed.atReset = true → u.feeds.wf Feed.atReset = true)

namespace SupplyMoves

theorem refl (s : State) : SupplyMoves s s := ⟨s.supply, s.host, rfl, .refl _, id⟩

theorem trans {s t x : State} (h : SupplyMoves s t) (h' : SupplyMoves t x) : SupplyMoves s x := by
  obtain ⟨u, v, rfl, hv, hu⟩ := h
  obtain ⟨u', v', rfl, hv', hu'⟩ := h'
  exact ⟨u', v', rfl, hv.trans hv', hu' ∘ hu⟩

theorem supply (s : State) (u : Supply)
    (h : s.supply.feeds.wf Feed.atReset = true → u.feeds.wf Feed.atReset = true) :
    SupplyMoves s { s with supply := u } := ⟨u, s.host, rfl, .refl _, h⟩

theorem host (s : State) (v : HostUnit) (h : HostKept s.host v) : SupplyMoves s { s with host := v } :=
  ⟨s.supply, v, rfl, h, id⟩

theorem finishNow (s : State) (c : Ctx) (st : Status) (n : Nat) : SupplyMoves s (s.finishNow c st n) :=
  host _ _ (kept_complete _ _ _ _)

theorem raiseEvent (s : State) (k : EventKind) (o n d : Nat) : SupplyMoves s (s.raiseEvent k o n d) :=
  host _ _ (kept_raiseEvent _ _)

theorem finishSequence (s : State) (o : Option Owed) (st : Status) (n : Nat) :
    SupplyMoves s (s.finishSequence o st n) := by
  cases o with
  | none => exact refl s
  | some o => exact host _ _ (kept_complete _ _ _ _)

theorem ite {p : Prop} [Decidable p] {s a b : State} (ha : SupplyMoves s a) (hb : SupplyMoves s b) :
    SupplyMoves s (if p then a else b) := by
  split
  · exact ha
  · exact hb

theorem becomeDown (s : State) : SupplyMoves s s.becomeDown :=
  (supply s { s.supply with state := .down, currentSlot := 0, interval := none, fall := none } id).trans
    (finishSequence _ _ _ _)

theorem fallStep (s : State) (k : Nat) : SupplyMoves s { s with supply := s.supply.fallStep k } :=
  supply _ _ (Feeds.updateFeeds_wf _ _ s.supply)

theorem fallTogether (s : State) : SupplyMoves s { s with supply := s.supply.fallTogether } :=
  supply _ _ (Feeds.updateFeeds_wf _ _ s.supply)

theorem riseStep (s : State) (k : Nat) : SupplyMoves s { s with supply := s.supply.riseStep k } :=
  supply _ _ (Feeds.updateFeeds_wf _ _ s.supply)

theorem setFeed (s : State) (n : Nat) (f : Feed) : SupplyMoves s { s with supply := s.supply.setFeed n f } :=
  supply _ _ (Table.set_wf _ _ _ _)

theorem fallOn (turns : Nat) (s : State) : SupplyMoves s (State.fallOn turns s) := by
  induction turns generalizing s with
  | zero => exact refl s
  | succ turns ih =>
    unfold State.fallOn
    refine ite ?_ (refl s)
    split
    · exact (fallStep s _).trans (ih _)
    · exact becomeDown s

theorem beginFall (s : State) : SupplyMoves s s.beginFall := by
  unfold State.beginFall
  split
  · exact becomeDown s
  · split
    · exact (fallStep s _).trans (fallOn 9 _)
    · exact (fallTogether s).trans (fallOn 9 _)

theorem endRise (s : State) : SupplyMoves s s.endRise :=
  (supply s { s.supply with state := .up, currentSlot := 0, riseSet := [], interval := none, rise := none } id).trans
    (finishSequence _ _ _ _)

theorem riseOn (turns : Nat) (s : State) : SupplyMoves s (State.riseOn turns s) := by
  induction turns generalizing s with
  | zero => exact refl s
  | succ turns ih =>
    unfold State.riseOn
    refine ite ?_ (refl s)
    split
    · exact (riseStep s _).trans (ih _)
    · exact endRise s

theorem riseProgress (s : State) : SupplyMoves s s.riseProgress := riseOn 9 s

/-- The rise, if one runs, ends without its request. -/
theorem riseDropped (s : State) (st : Status) (n : Nat) :
    SupplyMoves s
      (State.finishSequence { s with supply := { s.supply with rise := none, riseSet := [] } } s.supply.rise st n) :=
  (supply s { s.supply with rise := none, riseSet := [] } id).trans (finishSequence _ _ _ _)

theorem trip (s : State) (n : Nat) : SupplyMoves s (s.trip n) := by
  have hraised := raiseEvent s .supplyTripped 0 s.clock.frame (n + 2 ^ 8 * s.supply.tripSlot)
  have hdropped (s1 : State) : SupplyMoves s1
      (if s1.supply.state = .rising then
        State.finishSequence { s1 with supply := { s1.supply with rise := none, riseSet := [] } } s1.supply.rise
          .feedFault s1.supply.faultMask
      else s1) := ite (riseDropped s1 _ _) (refl s1)
  have hfall (s2 : State) : SupplyMoves s2 { s2 with supply := { s2.supply with fall := none } } := supply _ _ id
  exact ((hraised.trans (hdropped _)).trans (hfall _)).trans (beginFall _)

theorem applyPolicy (s : State) (n : Nat) : SupplyMoves s (s.applyPolicy n) := by
  unfold State.applyPolicy
  split
  · exact riseProgress s
  · exact trip s n
  · exact trip s n
  · exact refl s

theorem feedFault (s : State) (n : Nat) (cause : FaultCause) : SupplyMoves s (s.feedFault n cause) :=
  ((setFeed s n _).trans (raiseEvent _ _ _ _ _)).trans (applyPolicy _ n)

theorem goodAsserted (s : State) (n : Nat) : SupplyMoves s (s.goodAsserted n) :=
  ite ((setFeed s n _).trans (riseProgress _)) (setFeed s n _)

theorem goodDeasserted (s : State) (n : Nat) : SupplyMoves s (s.goodDeasserted n) :=
  ite ((setFeed s n _).trans (feedFault _ n _)) (setFeed s n _)

theorem goodTimeout (s : State) (n : Nat) : SupplyMoves s (s.goodTimeout n) := ite (feedFault s n _) (refl s)

theorem reachInterval (s : State) : SupplyMoves s { s with supply := s.supply.reachInterval } := supply _ _ id

theorem riseIntervalEnds (s : State) : SupplyMoves s s.riseIntervalEnds :=
  ite ((reachInterval s).trans (riseProgress _)) (refl s)

theorem fallIntervalEnds (s : State) : SupplyMoves s s.fallIntervalEnds :=
  ite ((reachInterval s).trans (fallOn 9 _)) (refl s)

theorem beginRise (s : State) (c : Ctx) : SupplyMoves s (s.beginRise c) := by
  unfold State.beginRise
  refine ite ((supply s { s.supply with state := .up } id).trans (finishNow _ _ _ _)) ?_
  dsimp only
  split
  · exact ((supply s { s.supply with riseSet := s.supply.offFeeds, rise := some { ctx := c, dropped := false } } id).trans
      (riseStep _ _)).trans (riseProgress _)
  · exact refl s

theorem takePowerUp (s : State) (c : Ctx) : SupplyMoves s (s.takePowerUp c) :=
  ite (finishNow _ _ _ _) (ite (finishNow _ _ _ _) (beginRise s c))

theorem takePowerDown (s : State) (c : Ctx) : SupplyMoves s (s.takePowerDown c) := by
  have hfall (s1 : State) :
      SupplyMoves s1 { s1 with supply := { s1.supply with fall := some { ctx := c, dropped := false } } } := supply _ _ id
  unfold State.takePowerDown
  split
  · exact finishNow _ _ _ _
  · exact finishNow _ _ _ _
  · exact ((riseDropped s _ _).trans (hfall _)).trans (beginFall _)
  · exact (hfall s).trans (beginFall _)

theorem takeConfigFeed (s : State) (c : Ctx) (n slot timeout : Nat) : SupplyMoves s (s.takeConfigFeed c n slot timeout) :=
  ite ((setFeed s n { s.supply.feed n with slot := slot, timeoutMs := 10 * timeout }).trans (finishNow _ _ _ _))
    (finishNow _ _ _ _)

theorem takeConfigSupply (s : State) (c : Ctx) (interval : Nat) (mode : PowerDownMode) (policy : TripPolicy) :
    SupplyMoves s (s.takeConfigSupply c interval mode policy) :=
  ite (finishNow _ _ _ _)
    ((supply s { s.supply with slotIntervalMs := 10 * interval, mode := mode, policy := policy } id).trans
      (finishNow _ _ _ _))

theorem takeClearFault (s : State) (c : Ctx) (mask : Nat) : SupplyMoves s (s.takeClearFault c mask) :=
  ite (finishNow _ _ _ _)
    ((supply s (s.supply.updateFeeds (s.supply.clears mask) Feed.switchOff) (Feeds.updateFeeds_wf _ _ s.supply)).trans
      (finishNow _ _ _ _))

/-- A whole operation of the sequencer is one edit. -/
theorem edits {s t : State} (h : SupplyMoves s t) (hl : sequencerLaw s → sequencerLaw t) : Edits r s t := by
  obtain ⟨u, v, rfl, hv, hu⟩ := h
  exact one (.supplied s u v hv hu fun hs => Feeds.sequencerLaw_of_supply_eq rfl (hl hs))

end SupplyMoves
end

end Sys2Proof.Steps
end

section
/-! PROOFS. Every command but COLD_RESET and FRAME_START is a path of edits: the requests at their owners, the records
at intake, the registers, and what comes from outside. -/

namespace Sys2Proof.Steps

open Machine Safety Interface

/-! ## What the format checks make sure of (R177) -/

/-- What a legal request meets, as far as the laws need it. -/
def Legal : Request → Prop
  | .loadScene _ count _ => 1 ≤ count
  | .loadBand q => 1 ≤ q.lead + q.roll + q.tail
  | .setFramePeriod p => 25 ≤ p ∧ p ≤ 400
  | .configFeed _ slot _ => slot ≤ 8
  | _ => True

theorem checks_of_firstFailing {l : List (Nat × Bool)} (h : firstFailing l = none) : ∀ x ∈ l, x.2 = true := by
  unfold firstFailing at h
  rw [Option.map_eq_none_iff, List.find?_eq_none] at h
  intro x hx
  simpa using h x hx

theorem legal_requestOf {components : Nat → Nat} {k : Kind} {b : RecordBody}
    (h : ∀ x ∈ paramChecks components k b, x.2 = true) : Legal (requestOf k b) := by
  have check {o : Nat} {p : Bool} (hm : (o, p) ∈ paramChecks components k b) : p = true := h _ hm
  cases k with
  | loadScene =>
    have hcount := decide_eq_true_iff.1 (check (List.mem_cons_self ..))
    exact hcount.1
  | loadBand =>
    have h12 := decide_eq_true_iff.1 (check (.tail _ (.tail _ (.tail _ (List.mem_cons_self ..)))))
    have h14 := decide_eq_true_iff.1 (check (.tail _ (.tail _ (.tail _ (.tail _ (List.mem_cons_self ..))))))
    have h16 := decide_eq_true_iff.1 (check (.tail _ (.tail _ (.tail _ (.tail _ (.tail _ (List.mem_cons_self ..)))))))
    show 1 ≤ field b 12 2 + field b 14 2 + field b 16 2
    omega
  | setFramePeriod =>
    show 25 ≤ field b 8 2 ∧ field b 8 2 ≤ 400
    exact decide_eq_true_iff.1 (check (List.mem_cons_self ..))
  | configFeed =>
    show field b 9 1 ≤ 8
    exact decide_eq_true_iff.1 (check (.tail _ (List.mem_cons_self ..)))
  | _ => exact True.intro

theorem legal_of_formatCheck {components : Nat → Nat} {rec : RequestRecord} {q : Request}
    (h : formatCheck components rec = .passed q) : Legal q := by
  unfold formatCheck at h
  split at h
  · cases h
  · unfold checkKind at h
    split at h
    · cases h
    · split at h
      · cases h
      · split at h
        · cases h
        · split at h
          · cases h
          · rename_i hfails
            injection h with h
            exact h ▸ legal_requestOf (checks_of_firstFailing hfails)

/-- A record that carries a group and passes has a group from 1 to 15. -/
theorem group_of_formatCheck {components : Nat → Nat} {rec : RequestRecord} {q : Request}
    (h : formatCheck components rec = .passed q) : rec.body.group.toNat ≤ 15 := by
  unfold formatCheck at h
  split at h
  · cases h
  · unfold checkKind at h
    split at h
    · cases h
    · split at h
      · cases h
      · split at h
        · cases h
        · rename_i hg
          exact Nat.not_lt.mp fun hlt => hg (.inl hlt)

/-! ## Requests at their owners (R165) -/

section owners
variable {r : Prop} {s : State}

theorem starts_of_running {α : Type} {before after : List α} (h : s.host.state = .running) : Starts s before after :=
  fun _ => .inr h

theorem stagePlayback_edits (c : Ctx) (q : PlaybackRequest) : Edits r s (s.stagePlayback c q) :=
  one (.controller s _ id fun _ => id)

theorem stageBand_edits (c : Ctx) (q : BandRequest) : Edits r s (s.stageBand c q) := one (.bands s _)

/-- Staging a request of the composer's that sets no illegal period. -/
theorem stageClock_edits (c : Ctx) (q : ClockRequest) (hq : ∀ p, q = .setPeriod p → 25 ≤ p ∧ p ≤ 400) :
    Edits r s (s.stageClock c q) := by
  refine one (.clock s _ rfl (fun h => ?_) fun _ => .inl)
  obtain ⟨hperiod, haccepted, hstaged⟩ := h
  refine ⟨hperiod, haccepted, fun e he p hp => ?_⟩
  rcases List.mem_append.1 he with he | he
  · exact hstaged e he p hp
  · rw [List.mem_singleton.1 he] at hp
    exact hq p hp

theorem takeGroupable_edits (c : Ctx) (q : GroupRequest) : Edits r s (s.takeGroupable c q) := by
  cases q with
  | playback q => exact stagePlayback_edits c q
  | band q => exact stageBand_edits c q
  | compose q => exact stageClock_edits c _ fun _ => nofun

theorem holdRequest_edits (c : Ctx) {g : Nat} (hg : 1 ≤ g ∧ g ≤ 15) (q : GroupRequest)
    (hr : r → s.host.state = .running) : Edits r s (s.holdRequest c g q) := by
  unfold State.holdRequest
  split
  case isTrue => exact finishNow_edits c _ _
  case isFalse hroom =>
    have hroom : s.groups.hold.length < 128 := Nat.not_le.mp hroom
    refine one (.groups s _ (fun h => ⟨?_, fun x hx => ?_⟩) fun h => starts_of_running (hr h))
    · simp only [List.length_append, List.length_singleton]; omega
    · rcases List.mem_append.1 hx with hx | hx
      · exact h.2 x hx
      · rw [List.mem_singleton.1 hx]; exact hg

theorem takeRestartQueue_edits (c : Ctx) (q : Nat) : Edits r s (s.takeRestartQueue c q) := by
  unfold State.takeRestartQueue
  dsimp only
  split
  case isFalse => exact finishNow_edits c _ _
  case isTrue hfault =>
    refine (host_edits (s.host.setSq q { s.host.sq q with state := .active, head := (s.host.sq q).tail })
      (.of_laws fun h => kept_setSq (h.running_of_sq (n := q) fun hq => ?_) q _ (.inl rfl))).trans
      (finishNow_edits c _ _)
    rw [hq] at hfault
    cases hfault

theorem takeLoadScene_edits (c : Ctx) (i n : Nat) (a : HostAddress) (hn : 1 ≤ n) (hr : r → s.host.state = .running) :
    Edits r s (s.takeLoadScene c i n a) := by
  cases h : s.store.loadSceneRefusal i n with
  | some x =>
    have heq : s.takeLoadScene c i n a = s.finishNow c x.1 x.2 := by unfold State.takeLoadScene; rw [h]
    rw [heq]
    exact finishNow_edits c _ _
  | none =>
    have heq : s.takeLoadScene c i n a = { s with store := s.store.acceptLoadScene c i n a } := by
      unfold State.takeLoadScene; rw [h]
    rw [heq]
    exact one (.loadScene s c i n a h hn hr)

theorem takeLoadBand_edits (c : Ctx) (q : BandLoadRequest) (hn : 1 ≤ q.lead + q.roll + q.tail)
    (hr : r → s.host.state = .running) : Edits r s (s.takeLoadBand c q) := by
  cases h : s.loadBandRefusal q.band with
  | some x =>
    have heq : s.takeLoadBand c q = s.finishNow c x 0 := by unfold State.takeLoadBand; rw [h]
    rw [heq]
    exact finishNow_edits c _ _
  | none =>
    have heq : s.takeLoadBand c q = s.acceptLoadBand c q := by unfold State.takeLoadBand; rw [h]
    rw [heq]
    exact one (.loadBand s c q h hn hr)

theorem takeDeleteScene_edits (c : Ctx) (i : Nat) : Edits r s (s.takeDeleteScene c i) := by
  unfold State.takeDeleteScene
  dsimp only
  split
  case h_1 => exact finishNow_edits c _ _
  case h_2 => exact finishNow_edits c _ _
  case h_3 hready =>
    split
    case isTrue => exact finishNow_edits c _ _
    case isFalse huse =>
      exact (one (.deleteScene s i hready (Nat.eq_zero_of_not_pos huse))).trans (finishNow_edits c _ _)

theorem takeConfigPlayback_edits (c : Ctx) (n priority time : Nat) :
    Edits r s (s.takeConfigPlayback c n priority time) := by
  unfold State.takeConfigPlayback
  refine ite_edits ?_ (finishNow_edits c _ _)
  refine (one (.controller s (s.controller.setPlayback n
    { s.controller.playback n with priority := priority, defaultRelease := time }) (Table.set_wf _ _ _ _)
    fun p hp => ?_)).trans (finishNow_edits c _ _)
  rw [PlaybackController.playback_setPlayback]
  split
  case isTrue h => exact h ▸ hp
  case isFalse => exact hp

theorem takeRunCue_edits (c : Ctx) (q : CueRequest) : Edits r s (s.takeRunCue c q) := by
  unfold State.takeRunCue
  by_cases hfull : Config.pendingCues ≤ (s.controller.playback q.playback).pending.length
  · simp only [if_pos hfull]
    exact finishNow_edits c _ _
  · simp only [if_neg hfull]
    have hroom : (s.controller.playback q.playback).pending.length < 16 := Nat.not_le.mp hfull
    have happend : Edits r s (s.appendCue q.playback (newCue s.controller.nextCue c q)) := by
      refine one (.controller s _ (Table.set_wf _ _ _ _) fun p hp => ?_)
      show CuesFit ((s.controller.setPlayback q.playback _).playback p)
      rw [PlaybackController.playback_setPlayback]
      split
      case isTrue h =>
        subst h
        refine ⟨?_, hp.2⟩
        simp only [List.length_append, List.length_singleton]; omega
      case isFalse => exact hp
    exact ite_edits happend (happend.trans (finishNow_edits c _ _))

theorem takeSetFramePeriod_edits (c : Ctx) {p : Nat} (hp : 25 ≤ p ∧ p ≤ 400) : Edits r s (s.takeSetFramePeriod c p) := by
  unfold State.takeSetFramePeriod
  refine ite_edits ?_ (finishNow_edits c _ _)
  refine (one (.clock s { s.clock with acceptedPeriod := p } rfl (fun h => ⟨h.1, hp, h.2.2⟩) fun _ => .inl)).trans
    (stageClock_edits c _ fun p' he => ?_)
  injection he with he
  exact he ▸ hp

theorem takeReadLevels_edits (c : Ctx) (first count : Nat) (a : HostAddress) (hr : r → s.host.state = .running) :
    Edits r s (s.takeReadLevels c first count a) := by
  unfold State.takeReadLevels
  exact ite_edits (finishNow_edits c _ _) (one (.clock s _ rfl id fun h => starts_of_running (hr h)))

theorem takeShowReset_edits (c : Ctx) : Edits r s (s.takeShowReset c) :=
  (host_edits { s.host with intakePause := true } (.of_same rfl rfl rfl rfl rfl rfl rfl rfl)).trans
    (stageClock_edits c _ fun _ => nofun)

theorem cancelHeld_edits (l : List HeldRequest) : ∀ {s : State}, Edits r s (s.cancelHeld l) := by
  induction l with
  | nil => exact nil
  | cons h l ih => exact (finishNow_edits h.ctx .cancelled 0).trans ih

theorem takeAbortGroup_edits (c : Ctx) (g : Nat) : Edits r s (s.takeAbortGroup c g) := by
  have hsub : (s.groups.without g).Sublist s.groups.hold := List.filter_sublist
  refine ((one (.groups s { s.groups with hold := s.groups.without g } (fun h => ⟨hsub.length_le.trans h.1, fun x hx =>
    h.2 x (hsub.subset hx)⟩) fun _ hne => .inl fun h0 => hne ?_)).trans (cancelHeld_edits _)).trans (finishNow_edits c _ _)
  show s.groups.without g = []
  unfold GroupUnit.without
  rw [h0]
  rfl

theorem takeConfigPort_edits (c : Ctx) (q : PortRequest) : Edits r s (s.takeConfigPort c q) := by
  unfold State.takeConfigPort
  split
  · exact finishNow_edits c _ _
  · exact ite_edits (finishNow_edits c _ _) (one (.ports s _ (Table.set_wf _ _ _ _)))

/-- Whatever legal request it is, its owner answers it, stages it or begins its work. -/
theorem route_edits (c : Ctx) {g : Nat} (hg : g ≤ 15) {q : Request} (hq : Legal q) (hr : r → s.host.state = .running) :
    Edits r s (s.route c g q) := by
  cases q with
  | groupable q =>
    show Edits r s (if g = 0 then s.takeGroupable c q else s.holdRequest c g q)
    split
    case isTrue => exact takeGroupable_edits c q
    case isFalse h0 => exact holdRequest_edits c ⟨Nat.pos_of_ne_zero h0, hg⟩ q hr
  | nop => exact finishNow_edits c _ _
  | restartQueue n => exact takeRestartQueue_edits c n
  | loadScene i n a => exact takeLoadScene_edits c i n a hq hr
  | deleteScene i => exact takeDeleteScene_edits c i
  | queryScene i => exact finishNow_edits c _ _
  | configPlayback n priority time => exact takeConfigPlayback_edits c n priority time
  | queryPlayback n => exact finishNow_edits c _ _
  | runCue q => exact takeRunCue_edits c q
  | loadBand q => exact takeLoadBand_edits c q hq hr
  | setFramePeriod p => exact takeSetFramePeriod_edits c hq
  | readLevels first count a => exact takeReadLevels_edits c first count a hr
  | showReset => exact takeShowReset_edits c
  | commit g => exact one (.groups s _ id fun _ => .inl)
  | abortGroup g => exact takeAbortGroup_edits c g
  | configPort q => exact takeConfigPort_edits c q
  | configFeed n slot timeout =>
    exact (SupplyMoves.takeConfigFeed s c n slot timeout).edits fun h => Feeds.takeConfigFeed_law h c hq timeout
  | configSupply interval mode policy =>
    exact (SupplyMoves.takeConfigSupply s c interval mode policy).edits fun h =>
      Feeds.takeConfigSupply_law h c interval mode policy
  | powerUp => exact (SupplyMoves.takePowerUp s c).edits fun h => Feeds.takePowerUp_law h c
  | powerDown => exact (SupplyMoves.takePowerDown s c).edits fun h => Feeds.takePowerDown_law h c
  | clearFault mask => exact (SupplyMoves.takeClearFault s c mask).edits fun h => Feeds.takeClearFault_law h c mask
  | queryFeeds => exact finishNow_edits c _ _

theorem checkAndRoute_edits (c : Ctx) (q : RequestRecord) (hr : r → s.host.state = .running) :
    Edits r s (s.checkAndRoute c q) := by
  unfold State.checkAndRoute
  split
  case h_1 => exact finishNow_edits c _ _
  case h_2 => exact finishNow_edits c _ _
  case h_3 hcheck => exact route_edits c (group_of_formatCheck hcheck) (legal_of_formatCheck hcheck) hr

end owners

/-! ## Records at intake (R164 to R166) -/

section intake
variable {r : Prop} {s : State}

theorem recordArrives_edits (q : RequestRecord) (hr : r → s.host.fetch ≠ none → s.host.state = .running) :
    Edits r s (s.recordArrives q) := by
  unfold State.recordArrives
  split
  case h_1 => exact nil
  case h_2 x hx =>
    have hrun (h : HostLaws s.host) : s.host.state = .running := h.running_of_fetch hx
    have hkept (h : HostLaws s.host) : HostKept s.host { s.host with fetch := none } :=
      kept_traffic (hrun h) none s.host.writes s.host.lastGranted
    refine ite_edits (host_edits _ (.of_laws fun h => kept_dropFetch (hrun h) x.sq)) (ite_edits ?_ ?_)
    · exact host_edits _ (.of_laws fun h => (hkept h).trans
        (kept_setSq (u := { s.host with fetch := none }) (hrun h) x.sq
          { s.host.sq x.sq with fence := some { record := q, count := (s.host.sq x.sq).outstanding } } (.inl rfl)))
    · refine (host_edits (({ s.host with fetch := none } : HostUnit).advance x.sq) (.of_laws fun h =>
        (hkept h).trans (kept_advance (u := { s.host with fetch := none }) (hrun h) x.sq))).trans
        (checkAndRoute_edits _ q fun h => hr h (by rw [hx]; nofun))

theorem takeFenced_edits (q : Nat) : Edits r s (s.takeFenced q) := by
  unfold State.takeFenced
  split
  case h_1 => exact nil
  case h_2 w hw =>
    split
    case isTrue h =>
      exact (host_edits (s.host.advance q) (kept_advance h.1 q)).trans (checkAndRoute_edits _ w.record fun _ => h.1)
    case isFalse => exact nil

theorem intakeGrant_edits : Edits r s s.intakeGrant := by
  unfold State.intakeGrant
  refine ite_edits nil ?_
  split
  case h_1 q hq => exact host_edits _ (kept_grant hq)
  case h_2 => exact nil

/-- What the host interface brings in the midst of a frame start is what it brings at any time. -/
theorem intakeArrival_edits (a : IntakeArrival) (hr : r → s.host.fetch ≠ none → s.host.state = .running) :
    Edits r s (s.intakeArrival a) := by
  cases a with
  | grant => exact intakeGrant_edits
  | record q => exact ite_edits (recordArrives_edits q hr) nil
  | fenced q => exact ite_edits (takeFenced_edits q.val) nil

theorem staleReturn_edits : Edits r s s.staleReturn := by
  unfold State.staleReturn
  split
  case h_1 x hx => exact ite_edits (host_edits _ (.of_laws fun h => kept_dropFetch (h.running_of_fetch hx) x.sq)) nil
  case h_2 => exact nil

theorem faultQueue_edits (hr : s.host.state = .running) (q detail : Nat) : Edits r s (s.faultQueue q detail) :=
  host_edits _ (kept_faultQueue hr q detail)

theorem fetchError_edits : Edits r s s.fetchError := by
  unfold State.fetchError
  split
  case h_1 x hx =>
    refine ite_edits (host_edits _ (.of_laws fun h => kept_dropFetch (h.running_of_fetch hx) x.sq)) ?_
    exact host_edits _ (.of_laws fun h => (kept_dropFetch (h.running_of_fetch hx) x.sq).trans
      (kept_faultQueue (s := { s with host := s.host.dropFetch x.sq }) (h.running_of_fetch hx) x.sq readErrorDetail))
  case h_2 => exact nil

/-! ## The interface state (R159 to R161, R174) -/

theorem interfaceReset_laws {v : HostUnit} (hsub : v.submission = Table.empty)
    (hcom : v.completion = Table.empty) (hev : v.events = []) (hf : v.fetch = none) (hw : v.writes = [])
    (hq : v.haltQueue < 4) (he : v.enable = true ↔ v.state ≠ .off) : HostLaws v := by
  have hsq (n : Nat) : v.sq n = SubmissionQueue.inactive := by unfold HostUnit.sq; rw [hsub]; rfl
  have hcq (m : Nat) : v.cq m = CompletionQueue.inactive := by unfold HostUnit.cq; rw [hcom]; rfl
  exact
    { submission := by rw [hsub]; rfl
      completion := by rw [hcom]; rfl
      room := fun m => by rw [hcq]; decide
      events := hev ▸ .nil
      haltQueue := hq
      tails := fun n => by rw [hsq]; decide
      heads := fun m => by rw [hcq]; decide
      quiet := fun _ => ⟨hf, hw, hsq, hcq⟩
      enable := he }

theorem hostInterfaceReset_host (s : State) : s.hostInterfaceReset.host = s.host.interfaceReset := by
  obtain ⟨t, -, heq⟩ := hostInterfaceReset_eq s
  rw [heq]

theorem turnOff_edits : Edits r s s.turnOff := by
  refine one (.interfaceReset s { s.hostInterfaceReset.host with state := .off, enable := false } fun h => ?_)
  rw [hostInterfaceReset_host]
  exact interfaceReset_laws rfl rfl rfl rfl rfl h.haltQueue ⟨nofun, fun hne => absurd rfl hne⟩

/-- Entry into HALTED is from STARTING or RUNNING. -/
theorem halt_edits (code : HaltCode) {q : Nat} (hq : q < 4) (hs : s.host.state ≠ .off) : Edits r s (s.halt code q) := by
  refine one (.interfaceReset s
    { s.hostInterfaceReset.host.raiseCause causeHalted with state := .halted, haltCode := code, haltQueue := q }
    fun h => ?_)
  rw [hostInterfaceReset_host]
  exact interfaceReset_laws rfl rfl rfl rfl rfl hq ⟨fun _ => nofun, fun _ => h.enable.2 hs⟩

theorem enableSet_edits : Edits r s s.enableSet := by
  unfold State.enableSet
  split
  case isFalse => exact nil
  case isTrue hoff =>
    refine host_edits _ fun h => ⟨?_, fun hr => ?_⟩
    · have hne : s.host.state ≠ .running := by rw [hoff]; nofun
      exact
        { submission := h.submission, completion := h.completion, room := h.room, events := h.events,
          haltQueue := h.haltQueue, tails := h.tails, heads := h.heads, quiet := fun _ => h.quiet hne,
          enable := ⟨fun _ => nofun, fun _ => rfl⟩ }
    · rw [hoff] at hr; cases hr

theorem enableClear_edits : Edits r s s.enableClear := ite_edits nil turnOff_edits

theorem lowestQueue_lt {p : Nat → Bool} {n : Nat} (h : lowestQueue p = some n) : n < 4 :=
  List.mem_range.1 (List.mem_of_find?_eq_some h)

theorem tableFault_queue_lt {address : Nat} {bytes : List Byte} {code : HaltCode} {q : Nat}
    (h : tableFault address bytes = some (code, q)) : q < 4 := by
  have zero {c : HaltCode} (h : some (c, 0) = some (code, q)) : q < 4 := by
    obtain ⟨-, rfl⟩ := Prod.mk.inj (Option.some.inj h); decide
  have low {c : HaltCode} {p : Nat → Bool} {n : Nat} (hn : lowestQueue p = some n) (h : some (c, n) = some (code, q)) :
      q < 4 := by
    obtain ⟨-, rfl⟩ := Prod.mk.inj (Option.some.inj h); exact lowestQueue_lt hn
  unfold tableFault at h
  split at h
  · exact zero h
  · split at h
    · rename_i hn; exact low hn h
    · split at h
      · rename_i hn; exact low hn h
      · split at h
        · rename_i hn; exact low hn h
        · split at h
          · exact zero h
          · cases h

theorem queueTableAnswered_edits (answer : Option (List Byte)) : Edits r s (s.queueTableAnswered answer) := by
  unfold State.queueTableAnswered
  split
  case isFalse => exact nil
  case isTrue hs =>
    have hne : s.host.state ≠ .off := by rw [hs]; nofun
    cases answer with
    | none => exact halt_edits _ (by decide) hne
    | some bytes =>
      dsimp only
      split
      case h_1 hfault => exact halt_edits _ (tableFault_queue_lt hfault) hne
      case h_2 => exact host_edits _ (kept_start hs bytes)

/-! ## Registers, events and record writes (R162, R163, R167 to R171) -/

theorem hostError_edits : Edits r s s.hostError := host_edits _ (kept_setInterrupts _ _ _)

theorem writeQtable_edits (high : Bool) (v : Word32) : Edits r s (s.writeQtable high v) := by
  refine ite_edits (host_edits _ ?_) hostError_edits
  cases high <;> exact .of_same rfl rfl rfl rfl rfl rfl rfl rfl

theorem low16_lt (v : Word32) : low16 v < 65536 := Nat.mod_lt _ (by decide)

theorem writeTailNow_edits (q : Nat) {v : Nat} (hv : v < 65536) : Edits r s (s.writeTailNow q v) := by
  unfold State.writeTailNow
  by_cases hr : s.host.state = .running
  case neg => exact (if_pos hr).symm ▸ nil
  rw [if_neg (not_not_intro hr)]
  have hrecord : HostKept s.host (s.host.recordTail q v) := kept_setSq hr q { s.host.sq q with tail := v } (.inr hv)
  have hstale : ((s.host.recordTail q v).staleFetch q).state = .running := (staleFetch_state _ q).trans hr
  cases (s.host.sq q).state with
  | inactive => exact hostError_edits
  | faulted => exact ite_edits (host_edits _ hrecord) nil
  | active =>
    exact ite_edits
      (ite_edits (host_edits _ ((hrecord.trans (kept_staleFetch _ q)).trans (kept_discardFence hstale q)))
        (host_edits _ hrecord))
      (faultQueue_edits hr q badTailDetail)

theorem writeTail_edits (q : Nat) (v : Word32) : Edits r s (s.writeTail q (low16 v)) :=
  (takeFenced_edits q).trans (writeTailNow_edits q (low16_lt v))

theorem writeHead_edits (m : Nat) (v : Word32) : Edits r s (s.writeHead m (low16 v)) := by
  unfold State.writeHead
  by_cases hr : s.host.state = .running
  case neg => exact (if_pos hr).symm ▸ nil
  rw [if_neg (not_not_intro hr)]
  refine ite_edits (host_edits _ (kept_setCq hr m
    { s.host.cq m with
      head := low16 v, posted := (s.host.cq m).posted - ringDistance (s.host.cq m).head (low16 v) (s.host.cq m).size }
    (fun h => ?_) (.inr (low16_lt v)))) hostError_edits
  dsimp only
  omega

/-- A register with behaviour of its own behaves as its own command; every other write counts for nothing (R179). -/
theorem writeRegister_edits (offset width : Nat) (v : Word32) : Edits r s (s.writeRegister offset width v) := by
  refine ite_edits nil ?_
  split
  · exact ite_edits enableSet_edits enableClear_edits
  iterate 2 exact writeQtable_edits _ v
  iterate 4 exact writeTail_edits _ v
  iterate 4 exact writeHead_edits _ v
  · exact host_edits _ (kept_setInterrupts _ _ _)
  · exact host_edits _ (kept_setInterrupts _ _ _)
  · exact nil

theorem postEvent_edits : Edits r s s.postEvent := by
  unfold State.postEvent
  split
  case h_1 => exact nil
  case h_2 e rest he =>
    dsimp only
    split
    case isFalse => exact nil
    case isTrue hpost =>
      obtain ⟨hr, hroom⟩ := hpost
      have hkept := kept_postRecord hr s.host.eventQueue false
        (eventRecord e (s.host.cq s.host.eventQueue).nextSequence) hroom
      refine host_edits _ fun h => ⟨?_, fun _ => hr⟩
      obtain ⟨h', -⟩ := hkept h
      exact
        { submission := h'.submission, completion := h'.completion, room := h'.room
          events := by
            have hev := h.events
            rw [he] at hev
            exact hev.of_cons
          haltQueue := h'.haltQueue, tails := h'.tails, heads := h'.heads, quiet := h'.quiet, enable := h'.enable }

/-- A write awaits its answer in RUNNING only. -/
theorem HostLaws.running_of_awaits {u : HostUnit} (h : HostLaws u) {m : Nat} (hm : u.awaits m = true) :
    u.state = .running := by
  by_contra hne
  obtain ⟨-, hnil, -, -⟩ := h.quiet hne
  unfold HostUnit.awaits at hm
  rw [hnil] at hm
  cases hm

theorem writeAccepted_edits (m : Nat) : Edits r s (s.writeAccepted m) := by
  unfold State.writeAccepted
  split
  case isFalse => exact nil
  case isTrue hm =>
    exact host_edits _ (.of_laws fun h => (kept_traffic (HostLaws.running_of_awaits h hm) s.host.fetch
      (s.host.writes.eraseP fun w => decide (w.queue = m)) s.host.lastGranted).trans (kept_setInterrupts _ _ _))

theorem writeFailed_edits {m : Nat} (hm : m < 4) : Edits r s (s.writeFailed m) := by
  unfold State.writeFailed
  split
  case isTrue h =>
    obtain ⟨hr, -⟩ := h
    exact halt_edits _ hm (by rw [hr]; nofun)
  case isFalse => exact nil

/-! ## The latch, snapshots and ports (R101, R114, R135) -/

theorem raiseSafe_edits (n : Nat) (before sample : Bool) : Edits r s (s.raiseSafe n before sample) := by
  unfold State.raiseSafe
  split
  · exact raiseEvent_edits _ _ _ _
  · exact raiseEvent_edits _ _ _ _
  · exact nil

theorem latchFrame_edits (sample : Bool) : Edits r s (s.latchFrame sample) := by
  refine (((one (.lasts s (s.engineLevel s.clock.frame))).trans (one (.ports _ { s.ports with
    records := s.ports.records.mapCells Port.atReset
      (fun _ p => p.atLatch s.supply s.clock.frame (s.sliceOf s.clock.frame sample p.applied)) }
    (Table.mapCells_wf _ _ _)))).trans (one (.clock _ { s.clock with
      safe := sample, reads := s.clock.reads.map (s.capture s.clock.frame) } rfl id fun _ hne =>
        .inl fun h0 => hne ?_))).trans (raiseSafe_edits _ _ _)
  have h0 : s.clock.reads = [] := h0
  simp only [h0, List.map_nil]

theorem endSnapshot_edits (i : Nat) (st : Status) : Edits r s (s.endSnapshot i st) := by
  unfold State.endSnapshot
  split
  case h_1 => exact nil
  case h_2 =>
    refine (one (.clock s { s.clock with reads := s.clock.reads.eraseIdx i } rfl id fun _ hne => .inl fun h0 => hne ?_)).trans
      (finishNow_edits _ _ _)
    rw [h0]
    rfl

theorem setPort_edits (k : Nat) (p : Port) : Edits r s { s with ports := s.ports.setPort k p } :=
  one (.ports s _ (Table.set_wf _ _ _ _))

theorem echoWindowCloses_edits (k : Nat) : Edits r s (s.echoWindowCloses k) := by
  unfold State.echoWindowCloses
  dsimp only
  split
  · split
    · exact (setPort_edits k _).trans (raiseEvent_edits _ _ _ _)
    · exact setPort_edits k _
  · exact nil

end intake

/-! ## Every command -/

/-- A command other than COLD_RESET and FRAME_START is a path of edits. -/
theorem exec_edits {r : Prop} (c : Instr) (s : State) (hr : r → s.host.fetch ≠ none → s.host.state = .running) :
    ∃ t, exec c s = .next t ∧ (t = s.coldReset ∨ (∃ course, t = s.frameStart course) ∨ Edits r s t) := by
  cases hrecord : c.record with
  | some q => exact ⟨_, exec_of_record c q s hrecord, .inr (.inr (recordArrives_edits q hr))⟩
  | none =>
    have edits {t : State} (h : Edits r s t) :
        t = s.coldReset ∨ (∃ course, t = s.frameStart course) ∨ Edits r s t := .inr (.inr h)
    match c, hrecord with
    | .coldReset, _ => exact ⟨_, rfl, .inl rfl⟩
    | .linkReset, _ => exact ⟨_, rfl, edits turnOff_edits⟩
    | .controlEnableSet, _ => exact ⟨_, rfl, edits enableSet_edits⟩
    | .controlEnableClear, _ => exact ⟨_, rfl, edits enableClear_edits⟩
    | .queueTableRead answer, _ => exact ⟨_, rfl, edits (queueTableAnswered_edits answer)⟩
    | .qtableWrite high v, _ => exact ⟨_, rfl, edits (writeQtable_edits high v)⟩
    | .sqTailWrite q v, _ => exact ⟨_, rfl, edits (writeTail_edits q v)⟩
    | .cqHeadWrite q v, _ => exact ⟨_, rfl, edits (writeHead_edits q v)⟩
    | .intCauseWrite _, _ => exact ⟨_, rfl, edits (host_edits _ (kept_setInterrupts _ _ _))⟩
    | .registerWrite offset width v, _ => exact ⟨_, rfl, edits (writeRegister_edits offset width v)⟩
    | .intakeGrant, _ => exact ⟨_, rfl, edits intakeGrant_edits⟩
    | .fetchReadError, _ => exact ⟨_, rfl, edits fetchError_edits⟩
    | .staleFetchReturn, _ => exact ⟨_, rfl, edits staleReturn_edits⟩
    | .fencedRecordTaken q, _ => exact ⟨_, rfl, edits (takeFenced_edits q)⟩
    | .frameStart course, _ => exact ⟨_, rfl, .inr (.inl ⟨course, rfl⟩)⟩
    | .latch safeIn, _ => exact ⟨_, rfl, edits (latchFrame_edits safeIn)⟩
    | .readLevelsWriteDone which, _ => exact ⟨_, rfl, edits (endSnapshot_edits which _)⟩
    | .readLevelsWriteError which, _ => exact ⟨_, rfl, edits (endSnapshot_edits which _)⟩
    | .echoRecord port _ _, _ => exact ⟨_, rfl, edits (setPort_edits port.val _)⟩
    | .echoWindowClose port, _ => exact ⟨_, rfl, edits (echoWindowCloses_edits port)⟩
    | .transmissionEnd port, _ => exact ⟨_, rfl, edits (setPort_edits port.val _)⟩
    | .loadItemReceived item, _ => exact ⟨_, rfl, edits (one (.loadAnswer s s.effectiveFrame (.item item)))⟩
    | .loadHostReadError, _ => exact ⟨_, rfl, edits (one (.loadAnswer s s.effectiveFrame .error))⟩
    | .feedGoodAsserted feed, _ =>
      exact ⟨_, rfl, edits ((SupplyMoves.goodAsserted s feed).edits fun h => Feeds.goodAsserted_law h feed)⟩
    | .feedGoodDeasserted feed, _ =>
      exact ⟨_, rfl, edits ((SupplyMoves.goodDeasserted s feed).edits fun h => Feeds.goodDeasserted_law h feed)⟩
    | .goodTimeout feed, _ =>
      exact ⟨_, rfl, edits ((SupplyMoves.goodTimeout s feed).edits fun h => Feeds.goodTimeout_law h feed)⟩
    | .riseIntervalEnd, _ => exact ⟨_, rfl, edits ((SupplyMoves.riseIntervalEnds s).edits Feeds.riseIntervalEnds_law)⟩
    | .fallIntervalEnd, _ => exact ⟨_, rfl, edits ((SupplyMoves.fallIntervalEnds s).edits Feeds.fallIntervalEnds_law)⟩
    | .eventPost, _ => exact ⟨_, rfl, edits postEvent_edits⟩
    | .recordWriteAccepted q, _ => exact ⟨_, rfl, edits (writeAccepted_edits q)⟩
    | .cqWriteError q, _ => exact ⟨_, rfl, edits (writeFailed_edits q.isLt)⟩

end Sys2Proof.Steps
end

section
/-! PROOFS. Every step keeps the eleventh law, the laws of the stores and the lists, and the laws of the host side. -/

namespace Sys2Proof.Invariants

open Machine Safety Interface Steps

/-! ## The eleventh law (R146) -/

theorem sequencerLaw_edit {r : Prop} {s t : State} (h : Edit r s t) (hs : sequencerLaw s) : sequencerLaw t := by
  cases h with
  | supplied u v _ _ hl => exact Feeds.sequencerLaw_of_supply_eq (s := { s with supply := u }) rfl (hl hs)
  | loadAnswer f a =>
    obtain ⟨store, records, -, -, heq | ⟨c, st, n, heq⟩⟩ := loadAnswer_answered s f a
    · rw [heq]; exact hs
    · rw [heq]; exact hs
  | interfaceReset u h =>
    obtain ⟨t, -, heq⟩ := hostInterfaceReset_eq s
    rw [heq]
    exact hs
  | _ => exact hs

theorem sequencerLaw_coldReset {s : State} (h : s.supply.feeds.wf Feed.atReset = true) : sequencerLaw s.coldReset :=
  Feeds.law_of_down rfl ⟨fun n _ => by rw [Resets.feed_coldReset h]; exact Nat.zero_le 8, nofun⟩ fun n _ => by
    rw [Resets.feed_coldReset h]; exact .inl rfl

/-- A frame start leaves the supply alone. -/
theorem supply_frameEdit {s t : State} (h : FrameEdit s t) : t.supply = s.supply := by
  cases h with
  | arrival a =>
    obtain ⟨host, hold, heq, -⟩ := s.intakeArrival_joins a
    rw [heq]
  | _ => rfl

theorem supply_frameStart (s : State) (course : FrameCourse) : (s.frameStart course).supply = s.supply :=
  (frameStart_edits s course).keeps (P := fun t => t.supply = s.supply)
    (fun _ _ hedit ht => (supply_frameEdit hedit).trans ht) rfl

/-- What a law has to show of a step: it does not read the queue of commands, it holds after cold reset, and FRAME_START
and every edit keep it. -/
theorem step_keeps {r : Prop} {P : State → Prop} {s t : State} (hs : P s) (hstep : step s = .next t)
    (hpending : ∀ l, P (s.withPending l)) (hr : r → s.host.fetch ≠ none → s.host.state = .running)
    (hedit : ∀ a b, Edit r a b → P a → P b) (hreset : ∀ l, P (s.withPending l).coldReset)
    (hframe : ∀ l course, P ((s.withPending l).frameStart course)) : P t := by
  unfold step at hstep
  split at hstep
  case h_1 =>
    injection hstep with hstep
    exact hstep ▸ hs
  case h_2 c rest hpend =>
    obtain ⟨u, hu, hcase⟩ := exec_edits (r := r) c (s.withPending rest) hr
    rw [hu] at hstep
    injection hstep with hstep
    subst hstep
    rcases hcase with h | ⟨course, h⟩ | hedits
    · rw [h]; exact hreset rest
    · rw [h]; exact hframe rest course
    · exact hedits.keeps hedit (hpending rest)

/-- Settles O59: an operation of the sequencer keeps its law, and nothing else writes the supply but the resets. -/
theorem stepKeepsTheSequencerLaw : Obligations.StepKeepsTheSequencerLaw := by
  intro s t hc hs hstep
  obtain ⟨-, -, -, -, -, -, hfeeds, -⟩ := hc
  exact step_keeps (r := False) hs hstep (fun _ => hs) False.elim (fun _ _ => sequencerLaw_edit)
    (fun l => sequencerLaw_coldReset (s := s.withPending l) hfeeds)
    (fun l course => Feeds.sequencerLaw_of_supply_eq (supply_frameStart (s.withPending l) course) hs)

/-! ## The stores and the lists (R21, R55, R100, R107, R111) -/

/-- The fourth, fifth and ninth laws with the legal periods and the two canonical tables that they read. -/
structure StoreLaws (s : State) : Prop where
  scenes : s.store.scenes.wf Scene.none = true
  playbacks : s.controller.playbacks.wf Playback.atReset = true
  fourth : fourthLaw s
  fifth : fifthLaw s
  ninth : ninthLaw s
  periods : legalPeriods s

theorem loadSceneRefusal_none {t : SceneStore} {i n : Nat} (h : t.loadSceneRefusal i n = none) :
    (t.scene i).state ≠ .loading ∧ ¬((t.scene i).state = .ready ∧ 0 < (t.scene i).useCount) ∧ t.loads.length < 4 ∧
      blocksFor n ≤ t.freeBlocks + (t.scene i).blocks := by
  unfold SceneStore.loadSceneRefusal at h
  dsimp only at h
  split at h
  case isTrue => cases h
  case isFalse hloading =>
    split at h
    case isTrue => cases h
    case isFalse hused =>
      split at h
      case isTrue => cases h
      case isFalse hfull =>
        split at h
        case isTrue => cases h
        case isFalse hspace => exact ⟨hloading, hused, Nat.not_le.mp hfull, Nat.not_lt.mp hspace⟩

/-- An accepted LOAD_SCENE takes its blocks from the free ones (R21, R27). -/
theorem fourthLaw_acceptLoadScene {s : State} {c : Ctx} {i n : Nat} {a : HostAddress}
    (hw : s.store.scenes.wf Scene.none = true) (h : s.store.loadSceneRefusal i n = none) (hs : fourthLaw s) :
    fourthLaw { s with store := s.store.acceptLoadScene c i n a } := by
  obtain ⟨-, -, -, hspace⟩ := loadSceneRefusal_none h
  have hheld := heldBlocks_setScene s.store i
    { state := .loading, entryCount := n, blocks := blocksFor n, useCount := 0, entries := [] } hw
  have hsum : s.store.freeBlocks + heldBlocks s.store = 2048 := hs
  show s.store.freeBlocks + (s.store.scene i).blocks - blocksFor n + heldBlocks (s.store.setScene i
    { state := .loading, entryCount := n, blocks := blocksFor n, useCount := 0, entries := [] }) = 2048
  dsimp only at hheld
  omega

theorem unreport_length (p : Playback) :
    p.unreport.pending.length = p.pending.length ∧ p.unreport.inFlight.length = p.inFlight.length :=
  ⟨List.length_map _, List.length_map _⟩

theorem periodsLegal_drop {c : FrameClock} (h : PeriodsLegal c) (l : List Snapshot) :
    PeriodsLegal { c with staged := c.staged.map Staged.drop, reads := l } := by
  obtain ⟨hperiod, haccepted, hstaged⟩ := h
  refine ⟨hperiod, haccepted, fun e he p hp => ?_⟩
  obtain ⟨e', he', rfl⟩ := List.mem_map.1 he
  exact hstaged e' he' p hp

theorem storeLaws_edit {s t : State} (h : Edit False s t) (hs : StoreLaws s) : StoreLaws t := by
  cases h with
  | controller c hw hp =>
    exact { hs with playbacks := hw hs.playbacks, fifth := fun p => hp p (hs.fifth p) }
  | clock c hparks hperiods _ =>
    exact { hs with
      ninth := by
        show ParksLegal c.parks
        rw [hparks]; exact hs.ninth
      periods := hperiods hs.periods }
  | loadScene c i n a h hn _ =>
    exact { hs with scenes := Table.set_wf _ _ _ _ hs.scenes, fourth := fourthLaw_acceptLoadScene hs.scenes h hs.fourth }
  | loadBand c q h hn _ => exact { hs with }
  | deleteScene i _ _ =>
    exact { hs with
      scenes := Table.set_wf _ _ _ _ hs.scenes, fourth := (heldBlocks_emptyScene s.store i hs.scenes).trans hs.fourth }
  | loadAnswer f a =>
    obtain ⟨store, records, hstore, -, hcase⟩ := loadAnswer_answered s f a
    have hserved : StoreLaws { s with store := store, bands := { s.bands with records := records } } :=
      { hs with scenes := hstore.wf hs.scenes, fourth := (hstore.blocks hs.scenes).trans hs.fourth }
    rcases hcase with heq | ⟨c, st, n, heq⟩
    · rw [heq]; exact hserved
    · rw [heq]; exact { hserved with }
  | interfaceReset u _ =>
    obtain ⟨t, ht, heq⟩ := hostInterfaceReset_eq s
    rw [heq]
    exact
      { scenes := ht.scenesWf hs.scenes
        playbacks := Table.mapCells_wf _ _ _ hs.playbacks
        fourth := (ht.blocks hs.scenes).trans hs.fourth
        fifth := fun p => by
          have hget : (s.controller.dropOwed.playback p) = (s.controller.playback p).unreport :=
            Table.get_mapCells Playback.atReset (fun _ q => q.unreport) _ p rfl hs.playbacks
          obtain ⟨hpend, hfly⟩ := unreport_length (s.controller.playback p)
          show (s.controller.dropOwed.playback p).pending.length ≤ 16 ∧ (s.controller.dropOwed.playback p).inFlight.length ≤ 4
          rw [hget, hpend, hfly]
          exact hs.fifth p
        ninth := hs.ninth
        periods := periodsLegal_drop hs.periods [] }
  | _ => exact { hs with }

theorem setHead_length (p : Playback) (f period : Nat) :
    (p.setHead f period).pending.length = p.pending.length ∧ (p.setHead f period).inFlight = p.inFlight := by
  unfold Playback.setHead
  split
  · exact ⟨rfl, rfl⟩
  · exact ⟨rfl, rfl⟩
  · rename_i c rest _ hp _
    split
    · exact ⟨by rw [hp]; rfl, rfl⟩
    · exact ⟨rfl, rfl⟩

theorem playback_setHeads {c : PlaybackController} (h : c.playbacks.wf Playback.atReset = true) (f period p : Nat) :
    (c.setHeads f period).playback p = (c.playback p).setHead f period :=
  Table.get_mapCells Playback.atReset (fun _ q => q.setHead f period) _ p rfl h

theorem storeLaws_frameEdit {s t : State} (h : FrameEdit s t) (hs : StoreLaws s) : StoreLaws t := by
  cases h with
  | controller c h =>
    obtain ⟨hw, -, -, hp⟩ := h
    refine { hs with playbacks := hw hs.playbacks, fifth := fun p => ?_ }
    obtain ⟨hpend, hfly⟩ := hp p
    obtain ⟨hpend', hfly'⟩ := hs.fifth p
    exact ⟨hpend.trans hpend', hfly.trans (max_le hfly' (Nat.le_refl 4))⟩
  | store t h =>
    obtain ⟨hw, -⟩ := h
    obtain ⟨hw', hblocks⟩ := hw hs.scenes
    exact { hs with scenes := hw', fourth := hblocks hs.fourth }
  | clock c h =>
    obtain ⟨-, haccepted, -, -, hstaged, hparks, hperiod⟩ := h
    obtain ⟨hp1, hp2, hp3⟩ := hs.periods
    refine { hs with ninth := hparks hs.ninth, periods := ⟨?_, haccepted ▸ hp2, fun e he => hp3 e (hstaged.subset he)⟩ }
    rcases hperiod with heq | ⟨e, he, heq⟩
    · exact heq ▸ hp1
    · exact hp3 e he _ heq
  | arrival a =>
    obtain ⟨host, hold, heq, -⟩ := s.intakeArrival_joins a
    rw [heq]
    exact { hs with }
  | _ => exact { hs with }

theorem storeLaws_frameStart {s : State} (hs : StoreLaws s) (course : FrameCourse) : StoreLaws (s.frameStart course) := by
  refine (frameStart_edits s course).keeps (fun _ _ => storeLaws_frameEdit) ?_
  exact { hs with
    playbacks := Table.mapCells_wf _ _ _ hs.playbacks
    fifth := fun p => by
      obtain ⟨hpend, hfly⟩ := setHead_length (s.controller.playback p) (s.clock.frame + 1)
        (s.clock.periodOf (s.clock.frame + 1))
      show ((s.controller.setHeads _ _).playback p).pending.length ≤ 16 ∧
        ((s.controller.setHeads _ _).playback p).inFlight.length ≤ 4
      rw [playback_setHeads hs.playbacks, hpend, hfly]
      exact hs.fifth p }

theorem storeLaws_coldReset (s : State) : StoreLaws s.coldReset := by
  obtain ⟨-, hfourth, hfifth, -, -, hninth, -, -, hperiods, -⟩ := Resets.lawsHoldAfterReset
  exact { scenes := rfl, playbacks := rfl, fourth := hfourth, fifth := hfifth, ninth := hninth, periods := hperiods }

/-- Settles O58: every edit of a command keeps the laws of the stores and the lists, and so does a frame start. -/
theorem stepKeepsTheStoreLaws : Obligations.StepKeepsTheStoreLaws := by
  rintro s t hc ⟨hfourth, hfifth, hninth, hperiods⟩ hstep
  obtain ⟨-, hscenes, -, hplaybacks, -⟩ := hc
  have hs : StoreLaws s :=
    { scenes := hscenes, playbacks := hplaybacks, fourth := hfourth, fifth := hfifth, ninth := hninth,
      periods := hperiods }
  have hpending (l : List Instr) : StoreLaws (s.withPending l) := { hs with }
  have ht := step_keeps (r := False) hs hstep hpending False.elim (fun _ _ => storeLaws_edit)
    (fun l => storeLaws_coldReset _) (fun l course => storeLaws_frameStart (hpending l) course)
  exact ⟨ht.fourth, ht.fifth, ht.ninth, ht.periods⟩

/-! ## The host side (R119, R159, R163, R169, R174, R179) -/

/-- The laws of the host side, with the tables of the other blocks in canonical form. -/
structure HostSide (s : State) : Prop where
  channels : s.arbiter.channels.wf Channel.dark = true
  scenes : s.store.scenes.wf Scene.none = true
  slots : s.engine.slots.wf FadeSlot.atReset = true
  playbacks : s.controller.playbacks.wf Playback.atReset = true
  bands : s.bands.records.wf Band.undefined = true
  ports : s.ports.records.wf Port.atReset = true
  feeds : s.supply.feeds.wf Feed.atReset = true
  host : HostLaws s.host
  hold : HoldFits s.groups.hold
  quiet : s.host.state ≠ .running → s.groups.hold = [] ∧ s.store.loads = [] ∧ s.clock.reads = []

theorem hostSide_iff (s : State) :
    HostSide s ↔ canonical s ∧ seventhLaw s ∧ eighthLaw s ∧ twelfthLaw s ∧ quietOutsideRunning s ∧ registersFit s := by
  constructor
  · intro h
    refine ⟨⟨h.channels, h.scenes, h.slots, h.playbacks, h.bands, h.ports, h.feeds, h.host.submission, h.host.completion⟩,
      h.host.room, h.hold, h.host.events, ⟨fun hne => ?_, h.host.enable⟩, h.host.haltQueue, h.host.tails, h.host.heads⟩
    obtain ⟨hfetch, hwrites, hsq, hcq⟩ := h.host.quiet hne
    obtain ⟨hhold, hloads, hreads⟩ := h.quiet hne
    exact ⟨hfetch, hwrites, hhold, hloads, hreads, hsq, hcq⟩
  · rintro ⟨⟨hc1, hc2, hc3, hc4, hc5, hc6, hc7, hc8, hc9⟩, hroom, hhold, hevents, ⟨hquiet, henable⟩, hhalt, htails, hheads⟩
    refine ⟨hc1, hc2, hc3, hc4, hc5, hc6, hc7, ⟨hc8, hc9, hroom, hevents, hhalt, htails, hheads, fun hne => ?_, henable⟩,
      hhold, fun hne => ?_⟩ <;> obtain ⟨hfetch, hwrites, hhold, hloads, hreads, hsq, hcq⟩ := hquiet hne
    · exact ⟨hfetch, hwrites, hsq, hcq⟩
    · exact ⟨hhold, hloads, hreads⟩

/-- A move of the host unit. -/
theorem HostSide.host_kept {s : State} (hs : HostSide s) {u : HostUnit} (h : HostKept s.host u) :
    HostSide { s with host := u } := by
  obtain ⟨hlaws, hrun⟩ := h hs.host
  exact { hs with host := hlaws, quiet := fun hne => hs.quiet fun hr => hne (hrun hr) }

/-- A list that starts in RUNNING only is empty outside it. -/
theorem eq_nil_of_starts {α : Type} {s : State} {before after : List α} (h : Starts s before after)
    (hne : s.host.state ≠ .running) (hnil : before = []) : after = [] := by
  by_contra hafter
  rcases h hafter with h | h
  · exact h hnil
  · exact hne h

/-- Loads leave the queue from its head only, so that none is left where none was. -/
theorem loads_eq_nil {l l' : List Load} (h : ∃ k, l'.map Load.fixed = (l.drop k).map Load.fixed) (hl : l = []) :
    l' = [] := by
  obtain ⟨k, hk⟩ := h
  rw [hl, List.drop_nil, List.map_nil] at hk
  exact List.map_eq_nil_iff.1 hk

theorem hostSide_edit {s t : State} (h : Edit True s t) (hs : HostSide s) : HostSide t := by
  cases h with
  | host u h => exact hs.host_kept h
  | supplied u v h hw _ => exact { hs.host_kept h with feeds := hw hs.feeds }
  | controller c hw _ => exact { hs with playbacks := hw hs.playbacks }
  | bands l => exact { hs with }
  | clock c _ _ hreads =>
    refine { hs with quiet := fun hne => ?_ }
    obtain ⟨hhold, hloads, hnil⟩ := hs.quiet hne
    exact ⟨hhold, hloads, eq_nil_of_starts (hreads True.intro) hne hnil⟩
  | groups g hh hhold =>
    refine { hs with hold := hh hs.hold, quiet := fun hne => ?_ }
    obtain ⟨hnil, hloads, hreads⟩ := hs.quiet hne
    exact ⟨eq_nil_of_starts (hhold True.intro) hne hnil, hloads, hreads⟩
  | ports u hw => exact { hs with ports := hw hs.ports }
  | lasts f => exact { hs with channels := Table.mapCells_wf _ _ _ hs.channels }
  | loadScene c i n a _ _ hr =>
    exact { hs with scenes := Table.set_wf _ _ _ _ hs.scenes, quiet := fun hne => absurd (hr True.intro) hne }
  | loadBand c q _ _ hr =>
    exact { hs with bands := Table.set_wf _ _ _ _ hs.bands, quiet := fun hne => absurd (hr True.intro) hne }
  | deleteScene i _ _ => exact { hs with scenes := Table.set_wf _ _ _ _ hs.scenes }
  | loadAnswer f a =>
    obtain ⟨store, records, hstore, hrecords, hcase⟩ := loadAnswer_answered s f a
    have hserved : HostSide { s with store := store, bands := { s.bands with records := records } } :=
      { hs with
        scenes := hstore.wf hs.scenes, bands := hrecords hs.bands
        quiet := fun hne => by
          obtain ⟨hhold, hloads, hreads⟩ := hs.quiet hne
          exact ⟨hhold, loads_eq_nil hstore.loads hloads, hreads⟩ }
    rcases hcase with heq | ⟨c, st, n, heq⟩
    · rw [heq]; exact hserved
    · rw [heq]; exact hserved.host_kept (kept_complete _ _ _ _)
  | interfaceReset u h =>
    obtain ⟨t, ht, heq⟩ := hostInterfaceReset_eq s
    rw [heq]
    exact
      { channels := by rw [show _ = s.arbiter from ht.arbiter]; exact hs.channels
        scenes := ht.scenesWf hs.scenes
        slots := by rw [show _ = s.engine from ht.engine]; exact hs.slots
        playbacks := Table.mapCells_wf _ _ _ hs.playbacks
        bands := ht.bandsWf hs.bands
        ports := hs.ports
        feeds := hs.feeds
        host := h hs.host
        hold := ⟨Nat.zero_le 128, nofun⟩
        quiet := fun _ => ⟨rfl, rfl, rfl⟩ }

theorem hostSide_frameEdit {s t : State} (h : FrameEdit s t) (hs : HostSide s) : HostSide t := by
  cases h with
  | finish o st n => exact hs.host_kept (kept_complete _ _ _ _)
  | arbiter t h => exact { hs with channels := (h hs.channels).1 }
  | engine e h => exact { hs with slots := h hs.slots }
  | controller c h => exact { hs with playbacks := h.1 hs.playbacks }
  | store t h =>
    obtain ⟨hw, hloads, -⟩ := h
    refine { hs with scenes := (hw hs.scenes).1, quiet := fun hne => ?_ }
    obtain ⟨hhold, hnil, hreads⟩ := hs.quiet hne
    exact ⟨hhold, loads_eq_nil hloads hnil, hreads⟩
  | bands b h => exact { hs with bands := h.1 hs.bands }
  | clock c h =>
    obtain ⟨-, -, -, hreads, -⟩ := h
    refine { hs with quiet := fun hne => ?_ }
    obtain ⟨hhold, hloads, hnil⟩ := hs.quiet hne
    exact ⟨hhold, hloads, hreads.trans hnil⟩
  | groups g h =>
    obtain ⟨hsub, -⟩ := h
    refine { hs with
      hold := ⟨hsub.length_le.trans hs.hold.1, fun x hx => hs.hold.2 x (hsub.subset hx)⟩
      quiet := fun hne => ?_ }
    obtain ⟨hnil, hloads, hreads⟩ := hs.quiet hne
    exact ⟨List.sublist_nil.1 (hnil ▸ hsub), hloads, hreads⟩
  | ports u h => exact { hs with ports := h.1 hs.ports }
  | intake => exact hs.host_kept (.of_same rfl rfl rfl rfl rfl rfl rfl rfl)
  | arrival a =>
    refine (intakeArrival_edits (r := True) a fun _ hfetch => ?_).keeps (fun _ _ => hostSide_edit) hs
    obtain ⟨x, hx⟩ := Option.ne_none_iff_exists'.1 hfetch
    exact hs.host.running_of_fetch hx

theorem hostSide_frameStart {s : State} (hs : HostSide s) (course : FrameCourse) : HostSide (s.frameStart course) := by
  refine (frameStart_edits s course).keeps (fun _ _ => hostSide_frameEdit) ?_
  exact { hs with playbacks := Table.mapCells_wf _ _ _ hs.playbacks }

theorem hostSide_coldReset {s : State} (hs : HostSide s) : HostSide s.coldReset := by
  have hreset : HostSide State.reset := by
    obtain ⟨hc, -, -, h7, h8, -, -, h12, -, hquiet, hregs, -⟩ := Resets.lawsHoldAfterReset
    exact (hostSide_iff _).2 ⟨hc, h7, h8, h12, hquiet, hregs⟩
  exact { hreset with
    feeds := Table.mapCells_wf _ _ _ hs.feeds
    host := hreset.host.of_same rfl rfl rfl rfl rfl rfl rfl rfl }

/-- Settles O57: every move of the Host Queue Unit keeps its laws, and the other blocks' moves leave them. -/
theorem stepKeepsTheHostLaws : Obligations.StepKeepsTheHostLaws := by
  intro s t hlaws hstep
  have hs := (hostSide_iff s).2 hlaws
  have hpending (l : List Instr) : HostSide (s.withPending l) := { hs with }
  refine (hostSide_iff t).1 (step_keeps (r := True) hs hstep hpending (fun _ hfetch => ?_) (fun _ _ => hostSide_edit)
    (fun l => hostSide_coldReset (hpending l)) (fun l course => hostSide_frameStart (hpending l) course))
  obtain ⟨x, hx⟩ := Option.ne_none_iff_exists'.1 hfetch
  exact hs.host.running_of_fetch hx

end Sys2Proof.Invariants
end

section
/-! PROOFS. The second and the third law as sums over the tables, and what the arbiter's batches and orders, the lends and
the returns, and the freeing of slots do to the sums (R8, R10, R23, R35, R36, R48). -/

namespace Sys2Proof.Shows

open Machine Safety Channels

/-! ## Sums -/

/-- How many channels of a table are FADING under slot `k`. -/
def driven (t : Table Channel) (k : Nat) : Nat := t.total (fun ch => if ch.holding.slot = some k then 1 else 0)

/-- How many slots of a table are CUE slots of scene `i`. -/
def serving (t : Table FadeSlot) (i : Nat) : Nat := t.total (fun x => if servesScene i x = true then 1 else 0)

theorem length_filter_eq_total {α : Type} (t : Table α) (p : α → Bool) :
    (t.cells.filter (fun x => p x.2)).length = t.total (fun v => if p v = true then 1 else 0) := by
  unfold Table.total
  induction t.cells with
  | nil => rfl
  | cons c cells ih =>
    rw [List.filter_cons, List.map_cons, List.sum_cons, ← ih]
    by_cases hc : p c.2 = true
    · simp only [hc, if_true, List.length_cons, Nat.add_comm]
    · simp only [hc, Bool.false_eq_true, if_false, Nat.zero_add]

theorem drivenBy_eq_driven (s : State) (k : Nat) : drivenBy s k = driven s.arbiter.channels k := by
  refine (length_filter_eq_total s.arbiter.channels fun ch => decide (ch.holding.slot = some k)).trans ?_
  simp only [decide_eq_true_eq]
  rfl

theorem serving_eq (s : State) (i : Nat) :
    (s.engine.slots.cells.filter (fun x => servesScene i x.2)).length = serving s.engine.slots i :=
  length_filter_eq_total s.engine.slots (servesScene i)

theorem driven_pos_iff {t : Table Channel} (h : t.wf Channel.dark = true) (k : Nat) :
    1 ≤ driven t k ↔ ∃ c, (t.get Channel.dark c).holding.slot = some k := by
  constructor
  · intro hpos
    by_contra hnone
    push Not at hnone
    have hzero := Table.total_eq_zero (fun ch : Channel => if ch.holding.slot = some k then 1 else 0) Channel.dark t h
      fun c => if_neg (hnone c)
    unfold driven at hpos
    omega
  · rintro ⟨c, hc⟩
    have hle := Table.get_le_total (fun ch : Channel => if ch.holding.slot = some k then 1 else 0) Channel.dark t c h rfl
    rw [if_pos hc] at hle
    exact hle

/-- Writing one channel. -/
theorem driven_set {t : Table Channel} (h : t.wf Channel.dark = true) (c : Nat) (v : Channel) (k : Nat) :
    driven (t.set Channel.dark c v) k + (if (t.get Channel.dark c).holding.slot = some k then 1 else 0) =
      driven t k + if v.holding.slot = some k then 1 else 0 :=
  Table.total_set (fun ch : Channel => if ch.holding.slot = some k then 1 else 0) Channel.dark t c v h rfl

/-- Writing one slot. -/
theorem serving_set {t : Table FadeSlot} (h : t.wf FadeSlot.atReset = true) (k : Nat) (v : FadeSlot) (i : Nat) :
    serving (t.set FadeSlot.atReset k v) i + (if servesScene i (t.get FadeSlot.atReset k) = true then 1 else 0) =
      serving t i + if servesScene i v = true then 1 else 0 :=
  Table.total_set (fun x : FadeSlot => if servesScene i x = true then 1 else 0) FadeSlot.atReset t k v h rfl

/-! ## What the arbiter reports, as a balance (R8, R10) -/

/-- The channels that a slot loses are those that the report names, `new` being the slot that the granted channels go
to. -/
structure Balanced (t t' : Table Channel) (rep : ArbiterReport) (new : Option Nat) (f : Nat → Nat) : Prop where
  wf : t'.wf Channel.dark = true
  lost : Reports rep.lost f
  le : ∀ j, f j ≤ rep.granted
  sum : ∀ j, driven t' j + f j = driven t j + if new = some j then rep.granted else 0

/-- A claim, granted or denied, keeps the balance. -/
theorem Balanced.claim {t : Table Channel} {acc : Table Channel × ArbiterReport} {new : Option Nat} {f : Nat → Nat}
    (h : Balanced t acc.1 acc.2 new f) (o : Owner) (q c : Nat) (become : Channel → Holding)
    (hnew : ∀ ch, (become ch).slot = new) :
    ∃ f', Balanced t (claimChannel o q c become acc).1 (claimChannel o q c become acc).2 new f' := by
  obtain ⟨hwf, hlost, hle, hsum⟩ := h
  unfold claimChannel
  dsimp only
  split
  case isFalse => exact ⟨f, hwf, hlost, hle, hsum⟩
  case isTrue =>
    refine ⟨_, Table.set_wf _ _ _ _ hwf, hlost.lossOf _, fun j => ?_, fun j => ?_⟩
    · have := hle j
      dsimp only
      split <;> omega
    · have hset := driven_set hwf c
        { acc.1.get Channel.dark c with holding := become (acc.1.get Channel.dark c) } j
      have hold := hsum j
      dsimp only at hset ⊢
      rw [hnew] at hset
      by_cases hj : new = some j
      · rw [if_pos hj] at hset hold ⊢
        omega
      · rw [if_neg hj] at hset hold ⊢
        omega

theorem balanced_foldl {β : Type} {t : Table Channel} {new : Option Nat}
    (step : Table Channel × ArbiterReport → β → Table Channel × ArbiterReport)
    (hstep : ∀ acc b f, Balanced t acc.1 acc.2 new f → ∃ f', Balanced t (step acc b).1 (step acc b).2 new f') (l : List β) :
    ∀ acc f, Balanced t acc.1 acc.2 new f → ∃ f', Balanced t (l.foldl step acc).1 (l.foldl step acc).2 new f' := by
  induction l with
  | nil => exact fun _ f h => ⟨f, h⟩
  | cons b l ih =>
    intro acc f h
    obtain ⟨f', h'⟩ := hstep acc b f h
    exact ih _ f' h'

theorem balanced_nil {t : Table Channel} (h : t.wf Channel.dark = true) (new : Option Nat) :
    Balanced t t { granted := 0, denied := 0, lost := [] } new (fun _ => 0) :=
  ⟨h, reports_nil, fun _ => Nat.le_refl 0, fun j => by simp⟩

theorem fadeBatch_balanced {t : Table Channel} (h : t.wf Channel.dark = true) (p q k : Nat) (pairs : List (Nat × Level)) :
    ∃ f, Balanced t (fadeBatch t p q k pairs).1 (fadeBatch t p q k pairs).2 (some k) f :=
  balanced_foldl (fun acc (x : Nat × Level) =>
      claimChannel (.playback p) q x.1 (fun ch => .fading p q k ch.last x.2) acc)
    (fun _ x _ hacc => hacc.claim _ q x.1 (fun ch => .fading p q k ch.last x.2) fun _ => rfl) pairs _ _
    (balanced_nil h (some k))

theorem bandBatch_balanced {t : Table Channel} (h : t.wf Channel.dark = true) (b q first count : Nat) :
    ∃ f, Balanced t (bandBatch t b q first count).1 (bandBatch t b q first count).2 none f :=
  balanced_foldl (fun acc i => claimChannel (.band b) q (first + i) (fun _ => .band b q) acc)
    (fun _ i _ hacc => hacc.claim _ q (first + i) (fun _ => .band b q) fun _ => rfl) (List.range count) _ _
    (balanced_nil h none)

/-- A change of every record, counted record by record. -/
theorem total_mapCells_add {α : Type} [DecidableEq α] (d : α) (f : Nat → α → α) (g a b : α → Nat) (t : Table α)
    (h0 : g d = 0) (hf : ∀ k v, g (f k v) + a v = g v + b v) :
    (t.mapCells d f).total g + t.total a = t.total g + t.total b := by
  obtain ⟨cells⟩ := t
  unfold Table.mapCells Table.total
  change ((cells.filterMap fun c => if f c.1 c.2 = d then none else some (c.1, f c.1 c.2)).map fun c => g c.2).sum +
    (cells.map fun c => a c.2).sum = (cells.map fun c => g c.2).sum + (cells.map fun c => b c.2).sum
  induction cells with
  | nil => rfl
  | cons c cells ih =>
    have hc := hf c.1 c.2
    rw [List.filterMap_cons]
    by_cases hd : f c.1 c.2 = d
    · rw [hd, h0] at hc
      simp only [hd, if_true, List.map_cons, List.sum_cons]
      omega
    · simp only [hd, if_false, List.map_cons, List.sum_cons]
      omega

/-- An order whose chosen channels go to slot `new`, or to none. -/
theorem applyOrder_balanced {t : Table Channel} (h : t.wf Channel.dark = true) (chosen : Holding → Bool)
    (become : Channel → Holding) (new : Option Nat) (hnew : ∀ ch, chosen ch.holding = true → (become ch).slot = new) :
    ∃ f, Balanced t (applyOrder t chosen become).1 (applyOrder t chosen become).2 new f := by
  have hlost := reports_foldl chosen t.cells reports_nil
  refine ⟨_, Table.mapCells_wf _ _ _ h, hlost, fun j => ?_, fun j => ?_⟩
  · rw [Nat.zero_add]
    exact (List.monotone_filter_right t.cells fun x hx => (Bool.and_eq_true_iff.1 hx).1).length_le
  · have hcount := total_mapCells_add Channel.dark
      (fun _ ch => if chosen ch.holding then { ch with holding := become ch } else ch)
      (fun ch => if ch.holding.slot = some j then 1 else 0)
      (fun ch => if (chosen ch.holding && decide (ch.holding.slot = some j)) = true then 1 else 0)
      (fun ch => if new = some j ∧ chosen ch.holding = true then 1 else 0) t rfl fun _ ch => by
        by_cases hch : chosen ch.holding = true
        · simp [hch, hnew ch hch, Nat.add_comm]
        · simp [hch]
    have hgranted : t.total (fun ch => if new = some j ∧ chosen ch.holding = true then 1 else 0) =
        if new = some j then (applyOrder t chosen become).2.granted else 0 := by
      split
      case isTrue hj =>
        simp only [hj, true_and]
        exact (length_filter_eq_total t fun ch => chosen ch.holding).symm
      case isFalse hj =>
        refine Table.total_eq_zero _ Channel.dark t h fun k => ?_
        simp [hj]
    have hf : t.total (fun ch => if (chosen ch.holding && decide (ch.holding.slot = some j)) = true then 1 else 0) =
        (t.cells.filter (fun x => chosen x.2.holding && decide (x.2.holding.slot = some j))).length :=
      (length_filter_eq_total t fun ch => chosen ch.holding && decide (ch.holding.slot = some j)).symm
    rw [hf, hgranted] at hcount
    rw [Nat.zero_add]
    exact hcount

theorem releaseBatch_balanced {t : Table Channel} (h : t.wf Channel.dark = true) (p k : Nat) :
    ∃ f, Balanced t (releaseBatch t p k).1 (releaseBatch t p k).2 (some k) f :=
  applyOrder_balanced h _ _ _ fun _ _ => rfl

theorem clearOrder_balanced {t : Table Channel} (h : t.wf Channel.dark = true) (p : Nat) :
    ∃ f, Balanced t (clearOrder t p).1 (clearOrder t p).2 none f :=
  applyOrder_balanced h _ _ _ fun _ _ => rfl

theorem snapOrder_balanced {t : Table Channel} (h : t.wf Channel.dark = true) (p : Nat) :
    ∃ f, Balanced t (snapOrder t p).1 (snapOrder t p).2 none f :=
  applyOrder_balanced h _ _ _ fun _ _ => rfl

/-- An order that takes the channels of slot `k` alone. -/
theorem driven_endOrder (t : Table Channel) (k : Nat) (become : Channel → Holding)
    (hnone : ∀ ch, fadingUnder k ch.holding = true → (become ch).slot = none) (j : Nat) :
    driven (applyOrder t (fadingUnder k) become).1 j = if j = k then 0 else driven t j := by
  have hcount := total_mapCells_add Channel.dark
    (fun _ ch => if fadingUnder k ch.holding then { ch with holding := become ch } else ch)
    (fun ch => if ch.holding.slot = some j then 1 else 0)
    (fun ch => if j = k ∧ ch.holding.slot = some j then 1 else 0) (fun _ => 0) t rfl fun _ ch => by
      by_cases hch : ch.holding.slot = some k
      · have hfade : fadingUnder k ch.holding = true := decide_eq_true hch
        rw [if_pos hfade]
        by_cases hj : j = k
        · subst hj; simp [hnone ch hfade, hch]
        · have hne : ¬k = j := fun h => hj h.symm
          simp [hnone ch hfade, hj, hch, hne]
      · have hfade : ¬fadingUnder k ch.holding = true := by simpa [fadingUnder] using hch
        rw [if_neg hfade]
        by_cases hj : j = k
        · subst hj; simp [hch]
        · simp [hj]
  have hzero : t.total (fun _ : Channel => 0) = 0 := by
    unfold Table.total
    simp
  rw [hzero, Nat.add_zero] at hcount
  split
  case isTrue hj =>
    subst hj
    simp only [true_and] at hcount
    unfold driven applyOrder
    dsimp only
    omega
  case isFalse hj =>
    simp only [hj, false_and, if_false] at hcount
    rw [hzero, Nat.add_zero] at hcount
    exact hcount

theorem driven_settleOrder (t : Table Channel) (k j : Nat) :
    driven (settleOrder t k).1 j = if j = k then 0 else driven t j :=
  driven_endOrder t k _ (fun ch h => by
    unfold fadingUnder at h
    cases hh : ch.holding <;> rw [hh] at h <;> simp_all [Holding.slot]) j

theorem driven_releaseEndOrder (t : Table Channel) (k j : Nat) :
    driven (releaseEndOrder t k).1 j = if j = k then 0 else driven t j :=
  driven_endOrder t k _ (fun _ _ => rfl) j

/-- A stop order takes no channel from a slot (R13). -/
theorem driven_stopOrder (t : Table Channel) (b j : Nat) : driven (stopOrder t b).1 j = driven t j := by
  refine Table.total_mapCells (fun ch : Channel => if ch.holding.slot = some j then 1 else 0) Channel.dark _ t rfl
    fun _ ch => ?_
  by_cases h : ch.holding.owner = some (.band b)
  · cases hh : ch.holding <;> simp_all [Holding.owner, Holding.slot]
  · simp [h]

end Sys2Proof.Shows
end

section
/-! PROOFS. The second and the third law with what keeps them, of the tables that they read; and what the moves of the
Transition Engine, the Band Unit and the Scene Store do to them. -/

namespace Sys2Proof.Shows

open Machine Safety Channels

/-! ## The tables that the laws read -/

/-- The tables that the second and the third law read, with the load queue. -/
structure Tables where
  channels : Table Channel
  slots : Table FadeSlot
  scenes : Table Scene
  loads : List Load
  nextLoad : Nat
  bands : Table Band

def tablesOf (s : State) : Tables :=
  { channels := s.arbiter.channels, slots := s.engine.slots, scenes := s.store.scenes, loads := s.store.loads,
    nextLoad := s.store.nextLoad, bands := s.bands.records }

namespace Tables

def slot (x : Tables) (k : Nat) : FadeSlot := x.slots.get FadeSlot.atReset k
def scene (x : Tables) (i : Nat) : Scene := x.scenes.get Scene.none i
def band (x : Tables) (n : Nat) : Band := x.bands.get Band.undefined n

def setSlot (x : Tables) (k : Nat) (v : FadeSlot) : Tables := { x with slots := x.slots.set FadeSlot.atReset k v }
def setScene (x : Tables) (i : Nat) (v : Scene) : Tables := { x with scenes := x.scenes.set Scene.none i v }
def setBand (x : Tables) (n : Nat) (v : Band) : Tables := { x with bands := x.bands.set Band.undefined n v }

theorem slot_setSlot (x : Tables) (k : Nat) (v : FadeSlot) (j : Nat) :
    (x.setSlot k v).slot j = if j = k then v else x.slot j := Table.get_set _ _ _ _ _

theorem scene_setScene (x : Tables) (i : Nat) (v : Scene) (j : Nat) :
    (x.setScene i v).scene j = if j = i then v else x.scene j := Table.get_set _ _ _ _ _

theorem band_setBand (x : Tables) (n : Nat) (v : Band) (m : Nat) :
    (x.setBand n v).band m = if m = n then v else x.band m := Table.get_set _ _ _ _ _

/-- The scene with its use count one lower (R23). -/
def returned (x : Tables) (i : Nat) : Tables := x.setScene i { x.scene i with useCount := (x.scene i).useCount - 1 }

/-- What one scene holds (R19, R20, R25, R26). -/
def Contents (c : Scene) : Prop :=
  (c.entries.map Prod.fst).Nodup ∧ (∀ e ∈ c.entries, e.1 ≤ 4095) ∧ c.blocks = (c.entryCount + 15) / 16 ∧
    (c.state = .empty → c = Scene.none) ∧ (c.state = .ready → c.entries.length = c.entryCount)

/-- Whether a scene or a band is LOADING. -/
def Loading (x : Tables) : LoadTarget → Prop
  | .scene i => (x.scene i).state = .loading
  | .band n => ∃ d, x.band n = .loading d

/-- What a load's scene or band holds: what the load has received (R25). -/
def Holds (x : Tables) (l : Load) : Prop :=
  (∀ i, l.target = .scene i → (x.scene i).entryCount = l.itemCount ∧ (x.scene i).entries.length = l.received) ∧
    ∀ n d, l.target = .band n → x.band n = .loading d → d.pattern.length = l.received

/-- The head alone is FETCHING, and no load has all its items (R24). -/
def Heads (loads : List Load) : Prop :=
  ∀ (j : Nat) (l : Load), loads[j]? = some l → (l.fetching = true ↔ j = 0) ∧ l.received < l.itemCount

/-- The law of the load queue. -/
structure Queue (x : Tables) : Prop where
  length : x.loads.length ≤ 4
  targets : (x.loads.map Load.target).Nodup
  heads : Heads x.loads
  loading : ∀ t, x.Loading t ↔ ∃ l ∈ x.loads, l.target = t
  holds : ∀ l ∈ x.loads, x.Holds l
  ids : x.loads.Pairwise (fun a b => a.id < b.id)
  fresh : ∀ l ∈ x.loads, l.id < x.nextLoad

/-- The laws, where slot `k` still counts `d k` channels that it has lost. -/
structure Laws (x : Tables) (d : Nat → Nat) : Prop where
  channelsWf : x.channels.wf Channel.dark = true
  slotsWf : x.slots.wf FadeSlot.atReset = true
  scenesWf : x.scenes.wf Scene.none = true
  bandsWf : x.bands.wf Band.undefined = true
  inUse : ∀ k r, x.slot k = .inUse r → r.count = driven x.channels k + d k ∧ 1 ≤ r.count
  free : ∀ k a, x.slot k = .free a → driven x.channels k = 0
  third : ∀ i, (x.scene i).useCount = serving x.slots i ∧ ((x.scene i).useCount ≠ 0 → (x.scene i).state = .ready)
  contents : ∀ i, Contents (x.scene i)
  queue : x.Queue

end Tables

open Tables

/-- No slot owes a loss. -/
def noDebt : Nat → Nat := fun _ => 0

/-- The tables that the laws read are in canonical form. -/
def tidy (s : State) : Prop :=
  s.arbiter.channels.wf Channel.dark = true ∧ s.engine.slots.wf FadeSlot.atReset = true ∧
    s.store.scenes.wf Scene.none = true ∧ s.bands.records.wf Band.undefined = true

theorem queue_iff (s : State) : (tablesOf s).Queue ↔ loadQueueLaw s := by
  constructor
  · rintro ⟨hlen, htargets, hheads, hloading, hholds, hids, hfresh⟩
    exact ⟨hlen, htargets, hheads, fun i => hloading (.scene i), fun n => hloading (.band n), hholds, hids, hfresh⟩
  · rintro ⟨hlen, htargets, hheads, hscenes, hbands, hholds, hids, hfresh⟩
    refine ⟨hlen, htargets, hheads, fun t => ?_, hholds, hids, hfresh⟩
    cases t with
    | scene i => exact hscenes i
    | band n => exact hbands n

/-- The laws of the tables are the show's laws. -/
theorem laws_iff (s : State) : (tablesOf s).Laws noDebt ↔ tidy s ∧ showLaws s := by
  constructor
  · rintro ⟨hc, hsl, hsc, hb, hinUse, hfree, hthird, hcontents, hqueue⟩
    refine ⟨⟨hc, hsl, hsc, hb⟩, fun k => ?_, fun i => ?_, fun k r hk => ?_, hcontents, (queue_iff s).1 hqueue⟩
    · refine Iff.trans ?_ (driven_pos_iff hc k)
      constructor
      · rintro ⟨r, hr⟩
        obtain ⟨hcount, hpos⟩ := hinUse k r hr
        exact Nat.le_trans hpos (Nat.le_of_eq hcount)
      · intro hpos
        cases hk : s.engine.slot k with
        | inUse r => exact ⟨r, rfl⟩
        | free a => rw [hfree k a hk] at hpos; exact absurd hpos (by decide)
    · rw [serving_eq]; exact hthird i
    · rw [drivenBy_eq_driven]; exact hinUse k r hk
  · rintro ⟨⟨hc, hsl, hsc, hb⟩, hsecond, hthird, hcounts, hcontents, hqueue⟩
    refine ⟨hc, hsl, hsc, hb, fun k r hk => ?_, fun k a hk => ?_, fun i => ?_, hcontents, (queue_iff s).2 hqueue⟩
    · have h := hcounts k r hk
      rw [drivenBy_eq_driven] at h
      exact h
    · by_contra hne
      obtain ⟨r, hr⟩ := (hsecond k).2 ((driven_pos_iff hc k).1 (Nat.pos_of_ne_zero hne))
      rw [show s.engine.slot k = .free a from hk] at hr
      cases hr
    · rw [show serving (tablesOf s).slots i = _ from (serving_eq s i).symm]; exact hthird i

namespace Tables

/-- The queue's law reads what is LOADING and what its loads have received. -/
theorem Queue.congr {x y : Tables} (h : x.Queue) (hl : y.loads = x.loads) (hn : y.nextLoad = x.nextLoad)
    (hloading : ∀ t, y.Loading t ↔ x.Loading t) (hholds : ∀ l ∈ x.loads, x.Holds l → y.Holds l) : y.Queue :=
  { length := hl ▸ h.length, targets := hl ▸ h.targets, heads := hl ▸ h.heads
    loading := fun t => (hloading t).trans (hl ▸ h.loading t)
    holds := fun l hl' => hholds l (hl ▸ hl') (h.holds l (hl ▸ hl'))
    ids := hl ▸ h.ids, fresh := fun l hl' => hn ▸ h.fresh l (hl ▸ hl') }

/-- A scene whose use count alone changes. -/
theorem Queue.useCount {x : Tables} (h : x.Queue) (i n : Nat) : (x.setScene i { x.scene i with useCount := n }).Queue := by
  have hstate (j : Nat) : ((x.setScene i { x.scene i with useCount := n }).scene j).state = (x.scene j).state := by
    rw [scene_setScene]
    split
    case isTrue hj => exact hj ▸ rfl
    case isFalse => rfl
  have hholds (j : Nat) : ((x.setScene i { x.scene i with useCount := n }).scene j).entryCount = (x.scene j).entryCount ∧
      ((x.setScene i { x.scene i with useCount := n }).scene j).entries = (x.scene j).entries := by
    rw [scene_setScene]
    split
    case isTrue hj => exact hj ▸ ⟨rfl, rfl⟩
    case isFalse => exact ⟨rfl, rfl⟩
  refine h.congr rfl rfl (fun t => ?_) fun l _ ⟨hs, hb⟩ => ⟨fun j hj => ?_, hb⟩
  · cases t with
    | scene j => exact iff_of_eq (congrArg (· = SceneState.loading) (hstate j))
    | band n => exact Iff.rfl
  · rw [(hholds j).1, (hholds j).2]
    exact hs j hj

/-- What a slot that is not in use owes does not matter. -/
theorem Laws.debt {x : Tables} {d d' : Nat → Nat} (h : x.Laws d) (hd : ∀ k r, x.slot k = .inUse r → d' k = d k) :
    x.Laws d' :=
  { h with inUse := fun k r hk => by rw [hd k r hk]; exact h.inUse k r hk }

/-- An IN_USE CUE slot's scene is READY and in use. -/
theorem Laws.ready {x : Tables} {d : Nat → Nat} (h : x.Laws d) {k : Nat} {r : FadeRun} (hk : x.slot k = .inUse r)
    {c i : Nat} (hr : r.kind = .cue c i) : 1 ≤ (x.scene i).useCount ∧ (x.scene i).state = .ready := by
  have hle := Table.get_le_total (fun v : FadeSlot => if servesScene i v = true then 1 else 0) FadeSlot.atReset x.slots k
    h.slotsWf rfl
  have hserves : servesScene i (x.slots.get FadeSlot.atReset k) = true := by
    rw [show x.slots.get FadeSlot.atReset k = .inUse r from hk]
    simp only [servesScene, hr, decide_true]
  rw [if_pos hserves] at hle
  obtain ⟨hcount, hready⟩ := h.third i
  have hpos : 1 ≤ (x.scene i).useCount := hcount ▸ hle
  exact ⟨hpos, hready (by omega)⟩

theorem serves_iff {k : SlotKind} {i : Nat} (r : FadeRun) (hr : r.kind = k) :
    servesScene i (.inUse r) = true ↔ ∃ c, k = .cue c i := by
  subst hr
  cases hkind : r.kind with
  | cue c j => simp [servesScene, hkind]
  | release => simp [servesScene, hkind]

/-- The slots after one of them is freed. -/
theorem Laws.slotFreed {x : Tables} {d d' : Nat → Nat} (h : x.Laws d) {k : Nat}
    (hnone : driven x.channels k = 0) (hd : ∀ j, j ≠ k → d' j = d j) (a : Nat) :
    (∀ j r, (x.setSlot k (.free a)).slot j = .inUse r → r.count = driven x.channels j + d' j ∧ 1 ≤ r.count) ∧
      ∀ j b, (x.setSlot k (.free a)).slot j = .free b → driven x.channels j = 0 := by
  refine ⟨fun j r hj => ?_, fun j b hj => ?_⟩ <;> rw [slot_setSlot] at hj <;> split at hj
  case refine_1.isTrue => cases hj
  case refine_1.isFalse hne => rw [hd j hne]; exact h.inUse j r hj
  case refine_2.isTrue he => exact he ▸ hnone
  case refine_2.isFalse => exact h.free j b hj

/-- The CUE slots of a scene after a slot in use is freed. -/
theorem Laws.serving_freed {x : Tables} {d : Nat → Nat} (h : x.Laws d) {k : Nat} {r : FadeRun} (hk : x.slot k = .inUse r)
    (a i : Nat) :
    serving (x.setSlot k (.free a)).slots i + (if servesScene i (.inUse r) = true then 1 else 0) = serving x.slots i := by
  have hset := serving_set h.slotsWf k (.free a) i
  rw [show x.slots.get FadeSlot.atReset k = .inUse r from hk] at hset
  exact hset

/-- A RELEASE slot that has no channel left is freed (R48). -/
theorem Laws.freed_release {x : Tables} {d d' : Nat → Nat} (h : x.Laws d) {k : Nat} {r : FadeRun}
    (hk : x.slot k = .inUse r) (hkind : r.kind = .release) (hnone : driven x.channels k = 0)
    (hd : ∀ j, j ≠ k → d' j = d j) (a : Nat) : (x.setSlot k (.free a)).Laws d' := by
  obtain ⟨hinUse, hfree⟩ := h.slotFreed hnone hd a
  refine { h with
    slotsWf := Table.set_wf _ _ _ _ h.slotsWf
    inUse := hinUse
    free := hfree
    third := fun i => ?_
    queue := h.queue.congr rfl rfl (fun _ => Iff.rfl) fun _ _ => id }
  have hno : ¬servesScene i (.inUse r) = true := by rw [serves_iff r hkind]; nofun
  have hset := h.serving_freed hk a i
  rw [if_neg hno] at hset
  exact ⟨(h.third i).1.trans hset.symm, (h.third i).2⟩

/-- A CUE slot that has no channel left is freed, and its scene is returned (R23, R48). -/
theorem Laws.freed_cue {x : Tables} {d d' : Nat → Nat} (h : x.Laws d) {k : Nat} {r : FadeRun}
    (hk : x.slot k = .inUse r) {c i : Nat} (hkind : r.kind = .cue c i) (hnone : driven x.channels k = 0)
    (hd : ∀ j, j ≠ k → d' j = d j) (a : Nat) : ((x.setSlot k (.free a)).returned i).Laws d' := by
  obtain ⟨hpos, hready⟩ := h.ready hk hkind
  obtain ⟨hinUse, hfree⟩ := h.slotFreed hnone hd a
  have hscene (j : Nat) : ((x.setSlot k (.free a)).returned i).scene j =
      if j = i then { x.scene i with useCount := (x.scene i).useCount - 1 } else x.scene j := scene_setScene _ _ _ _
  refine { h with
    slotsWf := Table.set_wf _ _ _ _ h.slotsWf
    scenesWf := Table.set_wf _ _ _ _ h.scenesWf
    inUse := hinUse
    free := hfree
    third := fun j => ?_
    contents := fun j => ?_
    queue := (h.queue.useCount i _).congr rfl rfl (fun _ => Iff.rfl) fun _ _ => id }
  · have hset := h.serving_freed hk a j
    obtain ⟨hcount, hstate⟩ := h.third j
    rw [hscene]
    split
    case isTrue hj =>
      subst hj
      rw [if_pos ((serves_iff r hkind).2 ⟨c, rfl⟩)] at hset
      refine ⟨?_, fun _ => hready⟩
      show (x.scene j).useCount - 1 = serving (x.setSlot k (.free a)).slots j
      omega
    case isFalse hj =>
      have hno : ¬servesScene j (.inUse r) = true := by
        rw [serves_iff r hkind]
        rintro ⟨c', he⟩
        injection he with _ he
        exact hj he.symm
      rw [if_neg hno] at hset
      exact ⟨hcount.trans hset.symm, hstate⟩
  · rw [hscene]
    split
    case isTrue hj =>
      obtain ⟨h1, h2, h3, -, h5⟩ := h.contents i
      refine ⟨h1, h2, h3, fun he => ?_, h5⟩
      have he : (x.scene i).state = .empty := he
      rw [hready] at he
      cases he
    case isFalse => exact h.contents j

/-- A slot that keeps channels counts its losses. -/
theorem Laws.counted {x : Tables} {d d' : Nat → Nat} (h : x.Laws d) {k : Nat} {r : FadeRun} (hk : x.slot k = .inUse r)
    {n : Nat} (hn : d k = n + d' k) (hlt : n < r.count) (hd : ∀ j, j ≠ k → d' j = d j) :
    (x.setSlot k (.inUse { r with count := r.count - n })).Laws d' := by
  obtain ⟨hcount, hpos⟩ := h.inUse k r hk
  refine { h with
    slotsWf := Table.set_wf _ _ _ _ h.slotsWf
    inUse := fun j r' hj => ?_
    free := fun j b hj => ?_
    third := fun i => ?_
    queue := h.queue.congr rfl rfl (fun _ => Iff.rfl) fun _ _ => id }
  · rw [slot_setSlot] at hj
    split at hj
    case isTrue he =>
      injection hj with hj
      subst hj he
      show r.count - n = driven x.channels j + d' j ∧ 1 ≤ r.count - n
      omega
    case isFalse hne => rw [hd j hne]; exact h.inUse j r' hj
  · rw [slot_setSlot] at hj
    split at hj
    case isTrue => cases hj
    case isFalse => exact h.free j b hj
  · have hset := serving_set h.slotsWf k (.inUse { r with count := r.count - n }) i
    rw [show x.slots.get FadeSlot.atReset k = .inUse r from hk,
      show servesScene i (.inUse { r with count := r.count - n }) = servesScene i (.inUse r) from rfl] at hset
    exact ⟨(h.third i).1.trans (Nat.add_right_cancel hset).symm, (h.third i).2⟩

end Tables

/-! ## Losses (R36, R48) -/

/-- The laws of a frame start's work, with debts. -/
abbrev Owing (w : FrameWork) (d : Nat → Nat) : Prop := (tablesOf w.s).Laws d

theorem freeSlot_owing {w : FrameWork} {d d' : Nat → Nat} (h : Owing w d) {k : Nat}
    (hnone : driven w.s.arbiter.channels k = 0) (hd : ∀ j, j ≠ k → d' j = d j) (reason : EndReason) :
    Owing (w.freeSlot k reason) d' := by
  cases hk : w.s.engine.slot k with
  | free a =>
    have heq : w.freeSlot k reason = w := by unfold FrameWork.freeSlot; rw [hk]
    rw [heq]
    refine h.debt fun j r hj => hd j fun he => ?_
    rw [he, show (tablesOf w.s).slot k = .free a from hk] at hj
    cases hj
  | inUse r =>
    cases hkind : r.kind with
    | release =>
      have heq : tablesOf (w.freeSlot k reason).s = (tablesOf w.s).setSlot k (.free (w.frame + 1)) := by
        unfold FrameWork.freeSlot; simp only [hk, hkind]; rfl
      show (tablesOf _).Laws d'
      rw [heq]
      exact h.freed_release hk hkind hnone hd _
    | cue c i =>
      have heq : tablesOf (w.freeSlot k reason).s = ((tablesOf w.s).setSlot k (.free (w.frame + 1))).returned i := by
        unfold FrameWork.freeSlot; simp only [hk, hkind]; rfl
      show (tablesOf _).Laws d'
      rw [heq]
      exact h.freed_cue hk hkind hnone hd _

/-- A slot loses the channels that it owes. -/
theorem loseChannels_owing {w : FrameWork} {d d' : Nat → Nat} (h : Owing w d) (k : Nat)
    (hk : d' k = 0) (hd : ∀ j, j ≠ k → d' j = d j) (reason : EndReason) : Owing (w.loseChannels k (d k) reason) d' := by
  cases hslot : w.s.engine.slot k with
  | free a =>
    have heq : w.loseChannels k (d k) reason = w := by unfold FrameWork.loseChannels; rw [hslot]
    rw [heq]
    refine h.debt fun j r hj => hd j fun he => ?_
    rw [he, show (tablesOf w.s).slot k = .free a from hslot] at hj
    cases hj
  | inUse r =>
    obtain ⟨hcount, hpos⟩ := h.inUse k r hslot
    by_cases hle : r.count ≤ d k
    · have heq : w.loseChannels k (d k) reason = w.freeSlot k reason := by
        unfold FrameWork.loseChannels; simp only [hslot, if_pos hle]
      rw [heq]
      refine freeSlot_owing h ?_ hd reason
      show driven (tablesOf w.s).channels k = 0
      omega
    · have heq : w.loseChannels k (d k) reason = w.setSlot k (.inUse { r with count := r.count - d k }) := by
        unfold FrameWork.loseChannels; simp only [hslot, if_neg hle]
      rw [heq]
      exact h.counted hslot (by rw [hk]; rfl) (Nat.not_le.mp hle) hd

/-- All the losses of a report are taken. -/
theorem takeLosses_owing (reason : EndReason) (lost : List (Nat × Nat)) : ∀ {w : FrameWork} {d : Nat → Nat}, Owing w d →
    lost.Pairwise (fun a b => a.1 < b.1) → (∀ x ∈ lost, x.2 = d x.1) → (∀ k, (∀ x ∈ lost, x.1 ≠ k) → d k = 0) →
    Owing (w.takeLosses lost reason) noDebt := by
  induction lost with
  | nil =>
    intro w d h _ _ hzero
    exact h.debt fun k _ _ => (hzero k nofun).symm
  | cons x lost ih =>
    intro w d h hasc hmem hzero
    obtain ⟨hx, hrest⟩ := List.pairwise_cons.1 hasc
    have hx2 := hmem x (List.mem_cons_self ..)
    have hstep : Owing (w.loseChannels x.1 x.2 reason) (fun j => if j = x.1 then 0 else d j) := by
      rw [hx2]
      exact loseChannels_owing h x.1 (d' := fun j => if j = x.1 then 0 else d j) (if_pos rfl) (fun j hj => if_neg hj)
        reason
    refine ih hstep hrest (fun y hy => ?_) fun k hk => ?_
    · have hne : y.1 ≠ x.1 := Nat.ne_of_gt (hx y hy)
      rw [if_neg hne]
      exact hmem y (List.mem_cons_of_mem _ hy)
    · split
      · rfl
      · refine hzero k fun y hy => ?_
        rcases List.mem_cons.1 hy with rfl | hy
        · exact fun he => by simp_all
        · exact hk y hy

/-- The losses that a report names are what the slots owe. -/
theorem takeLosses_reported {w : FrameWork} {d : Nat → Nat} (h : Owing w d) {lost : List (Nat × Nat)}
    (hlost : Reports lost d) (reason : EndReason) : Owing (w.takeLosses lost reason) noDebt := by
  obtain ⟨hasc, hmem⟩ := hlost
  refine takeLosses_owing reason lost h hasc (fun x hx => ((hmem x.1 x.2).1 hx).2) fun k hk => ?_
  by_contra hne
  exact hk (k, d k) ((hmem k (d k)).2 ⟨Nat.pos_of_ne_zero hne, rfl⟩) rfl

end Sys2Proof.Shows
end

section
/-! PROOFS. What the loads do to the second and the third law with what keeps them: a load joins the queue, receives an
item, and leaves (R24 to R28, R33, R91, R92). -/

namespace Sys2Proof.Shows

open Machine Safety

namespace Tables

/-! ## The queue -/

theorem heads_nextHead {l : Load} {rest : List Load} (h : Heads (l :: rest)) : Heads (nextHead (l :: rest)) := by
  have hrest (j : Nat) (m : Load) (hm : rest[j]? = some m) : ¬m.fetching = true ∧ m.received < m.itemCount := by
    obtain ⟨hfetch, hlt⟩ := h (j + 1) m hm
    exact ⟨fun hf => absurd (hfetch.1 hf) (Nat.succ_ne_zero j), hlt⟩
  cases rest with
  | nil => exact nofun
  | cons m more =>
    intro j l' hl'
    cases j with
    | zero =>
      injection hl' with hl'
      subst hl'
      exact ⟨⟨fun _ => rfl, fun _ => rfl⟩, (hrest 0 m rfl).2⟩
    | succ j =>
      obtain ⟨hfetch, hlt⟩ := hrest (j + 1) l' hl'
      exact ⟨⟨fun hf => absurd hf hfetch, fun h0 => absurd h0 (Nat.succ_ne_zero j)⟩, hlt⟩

/-- What is read of the loads behind the head is not touched when the head leaves. -/
theorem mem_nextHead {l m : Load} {rest : List Load} (h : m ∈ nextHead (l :: rest)) :
    ∃ m' ∈ rest, m.target = m'.target ∧ m.id = m'.id ∧ m.itemCount = m'.itemCount ∧ m.received = m'.received := by
  cases rest with
  | nil => exact absurd h List.not_mem_nil
  | cons m' more =>
    rcases List.mem_cons.1 h with rfl | h
    · exact ⟨m', List.mem_cons_self .., rfl, rfl, rfl, rfl⟩
    · exact ⟨m, List.mem_cons_of_mem _ h, rfl, rfl, rfl, rfl⟩

theorem targets_nextHead (l : Load) (rest : List Load) :
    (nextHead (l :: rest)).map Load.target = rest.map Load.target := by
  cases rest <;> rfl

theorem ids_nextHead (l : Load) (rest : List Load) : (nextHead (l :: rest)).map Load.id = rest.map Load.id := by
  cases rest <;> rfl

/-- What a load's scene or band has to hold depends on its target and its counts alone. -/
theorem Holds.congr {x : Tables} {l m : Load} (h : x.Holds m) (ht : l.target = m.target)
    (hi : l.itemCount = m.itemCount) (hr : l.received = m.received) : x.Holds l := by
  unfold Holds at h ⊢
  rw [ht, hi, hr]
  exact h

theorem pairwise_ids_iff (l : List Load) :
    l.Pairwise (fun a b => a.id < b.id) ↔ (l.map Load.id).Pairwise (· < ·) := List.pairwise_map.symm

/-- The head leaves, and its scene or band is LOADING no more. -/
theorem Queue.popped {x y : Tables} (h : x.Queue) {l : Load} {rest : List Load} (hx : x.loads = l :: rest)
    (hl : y.loads = nextHead x.loads) (hn : y.nextLoad = x.nextLoad) (hdone : ¬y.Loading l.target)
    (hloading : ∀ t, t ≠ l.target → (y.Loading t ↔ x.Loading t))
    (hholds : ∀ m, m.target ≠ l.target → x.Holds m → y.Holds m) : y.Queue := by
  obtain ⟨hlen, htargets, hheads, hload, hhold, hids, hfresh⟩ := h
  rw [hx] at hlen htargets hheads hids hl
  have hother : ∀ m ∈ rest, m.target ≠ l.target := fun m hm he =>
    (List.nodup_cons.1 htargets).1 (he ▸ List.mem_map_of_mem hm)
  refine ⟨?_, ?_, ?_, fun t => ?_, fun m hm => ?_, ?_, fun m hm => ?_⟩
  · have hle := congrArg List.length (targets_nextHead l rest)
    rw [List.length_map, List.length_map] at hle
    rw [hl, hle]
    exact Nat.le_of_succ_le hlen
  · rw [hl, targets_nextHead]; exact (List.nodup_cons.1 htargets).2
  · rw [hl]; exact heads_nextHead hheads
  · have htarget : (∃ m ∈ y.loads, m.target = t) ↔ ∃ m ∈ rest, m.target = t := by
      rw [hl, ← List.mem_map, ← List.mem_map, targets_nextHead]
    rw [htarget]
    by_cases ht : t = l.target
    · subst ht
      exact ⟨fun hy => absurd hy hdone, fun ⟨m, hm, he⟩ => absurd he (hother m hm)⟩
    · rw [hloading t ht, hload t, hx]
      constructor
      · rintro ⟨m, hm, he⟩
        rcases List.mem_cons.1 hm with rfl | hm
        · exact absurd he.symm ht
        · exact ⟨m, hm, he⟩
      · rintro ⟨m, hm, he⟩
        exact ⟨m, List.mem_cons_of_mem _ hm, he⟩
  · obtain ⟨m', hm', ht, -, hi, hr⟩ := mem_nextHead (hl ▸ hm)
    refine Holds.congr (m := m') (hholds m' (hother m' hm') (hhold m' ?_)) ht hi hr
    rw [hx]; exact List.mem_cons_of_mem _ hm'
  · rw [hl, pairwise_ids_iff, ids_nextHead, ← pairwise_ids_iff]
    exact (List.pairwise_cons.1 hids).2
  · obtain ⟨m', hm', -, he, -, -⟩ := mem_nextHead (hl ▸ hm)
    rw [hn, he]
    refine hfresh m' ?_
    rw [hx]; exact List.mem_cons_of_mem _ hm'

/-- The head has received one item more, and not its last. -/
theorem Queue.counted {x y : Tables} (h : x.Queue) {l : Load} {rest : List Load} (hx : x.loads = l :: rest)
    (hl : y.loads = { l with received := l.received + 1 } :: rest) (hn : y.nextLoad = x.nextLoad)
    (hlt : l.received + 1 < l.itemCount) (hloading : ∀ t, y.Loading t ↔ x.Loading t)
    (hholds : ∀ m, m.target ≠ l.target → x.Holds m → y.Holds m) (hself : y.Holds { l with received := l.received + 1 }) :
    y.Queue := by
  obtain ⟨hlen, htargets, hheads, hload, hhold, hids, hfresh⟩ := h
  rw [hx] at hlen htargets hheads hids
  have hother : ∀ m ∈ rest, m.target ≠ l.target := fun m hm he =>
    (List.nodup_cons.1 htargets).1 (he ▸ List.mem_map_of_mem hm)
  refine ⟨by rw [hl]; exact hlen, by rw [hl]; exact htargets, ?_, fun t => ?_, fun m hm => ?_, ?_, fun m hm => ?_⟩
  · rw [hl]
    intro j m hm
    cases j with
    | zero =>
      injection hm with hm
      subst hm
      exact ⟨(hheads 0 l rfl).1, hlt⟩
    | succ j => exact hheads (j + 1) m hm
  · rw [hloading, hload, hx, hl]
    simp only [List.mem_cons, exists_eq_or_imp]
  · rw [hl] at hm
    rcases List.mem_cons.1 hm with rfl | hm
    · exact hself
    · exact hholds m (hother m hm) (hhold m (hx ▸ List.mem_cons_of_mem _ hm))
  · rw [hl]
    exact List.pairwise_cons.2 (List.pairwise_cons.1 hids)
  · rw [hl] at hm
    rw [hn]
    rcases List.mem_cons.1 hm with rfl | hm
    · exact hfresh l (hx ▸ List.mem_cons_self ..)
    · exact hfresh m (hx ▸ List.mem_cons_of_mem _ hm)

/-- A load joins the tail, and its scene or band is LOADING. -/
theorem Queue.joined {x y : Tables} (h : x.Queue) {l : Load} (hlen : x.loads.length < 4)
    (hl : y.loads = x.loads ++ [{ l with fetching := x.loads.isEmpty }]) (hn : y.nextLoad = x.nextLoad + 1)
    (hid : l.id = x.nextLoad) (hlt : l.received < l.itemCount) (hfree : ¬x.Loading l.target)
    (hdone : y.Loading l.target) (hloading : ∀ t, t ≠ l.target → (y.Loading t ↔ x.Loading t))
    (hholds : ∀ m, m.target ≠ l.target → x.Holds m → y.Holds m) (hself : y.Holds l) : y.Queue := by
  obtain ⟨-, htargets, hheads, hload, hhold, hids, hfresh⟩ := h
  have hother : ∀ m ∈ x.loads, m.target ≠ l.target := fun m hm he => hfree ((hload _).2 ⟨m, hm, he⟩)
  refine ⟨?_, ?_, ?_, fun t => ?_, fun m hm => ?_, ?_, fun m hm => ?_⟩
  · rw [hl, List.length_append]; exact hlen
  · rw [hl, List.map_append]
    refine List.nodup_append.2 ⟨htargets, List.nodup_singleton _, fun a ha b hb => ?_⟩
    obtain ⟨m, hm, rfl⟩ := List.mem_map.1 ha
    obtain ⟨m', hm', rfl⟩ := List.mem_map.1 hb
    rw [List.mem_singleton.1 hm']
    exact hother m hm
  · rw [hl]
    intro j m hm
    rcases Nat.lt_or_ge j x.loads.length with hj | hj
    · rw [List.getElem?_append_left hj] at hm
      exact hheads j m hm
    · rw [List.getElem?_append_right hj] at hm
      obtain ⟨h0, rfl⟩ : j - x.loads.length = 0 ∧ { l with fetching := x.loads.isEmpty } = m := by
        cases hk : j - x.loads.length with
        | zero => rw [hk] at hm; exact ⟨rfl, Option.some.inj hm⟩
        | succ k => rw [hk] at hm; cases hm
      refine ⟨?_, hlt⟩
      show x.loads.isEmpty = true ↔ j = 0
      rw [List.isEmpty_iff, ← List.length_eq_zero_iff]
      omega
  · rw [hl]
    by_cases ht : t = l.target
    · subst ht
      exact ⟨fun _ => ⟨_, List.mem_append_right _ (List.mem_singleton_self _), rfl⟩, fun _ => hdone⟩
    · rw [hloading t ht, hload t]
      constructor
      · rintro ⟨m, hm, he⟩
        exact ⟨m, List.mem_append_left _ hm, he⟩
      · rintro ⟨m, hm, he⟩
        rcases List.mem_append.1 hm with hm | hm
        · exact ⟨m, hm, he⟩
        · rw [List.mem_singleton.1 hm] at he
          exact absurd he.symm ht
  · rw [hl] at hm
    rcases List.mem_append.1 hm with hm | hm
    · exact hholds m (hother m hm) (hhold m hm)
    · rw [List.mem_singleton.1 hm]
      exact hself.congr rfl rfl rfl
  · rw [hl]
    refine List.pairwise_append.2 ⟨hids, List.pairwise_singleton _ _, fun a ha b hb => ?_⟩
    rw [List.mem_singleton.1 hb]
    exact hid ▸ hfresh a ha
  · rw [hl] at hm
    rw [hn]
    rcases List.mem_append.1 hm with hm | hm
    · exact Nat.lt_succ_of_lt (hfresh m hm)
    · rw [List.mem_singleton.1 hm]
      exact hid ▸ Nat.lt_succ_self _

/-- With no load queued nothing may be LOADING. -/
theorem Queue.emptied {y : Tables} (hl : y.loads = []) (hloading : ∀ t, ¬y.Loading t) : y.Queue := by
  refine ⟨by rw [hl]; exact Nat.zero_le 4, by rw [hl]; exact List.nodup_nil, by rw [hl]; exact nofun, fun t => ?_,
    by rw [hl]; exact nofun, by rw [hl]; exact .nil, by rw [hl]; exact nofun⟩
  rw [hl]
  exact ⟨fun h => absurd h (hloading t), nofun⟩

/-! ## Scenes and bands written -/

/-- A scene is written, and the loads may change. -/
theorem Laws.scened {x : Tables} {d : Nat → Nat} (h : x.Laws d) (i : Nat) (c : Scene)
    (huse : c.useCount = (x.scene i).useCount) (hready : c.useCount ≠ 0 → c.state = .ready) (hc : Contents c)
    (loads : List Load) (next : Nat) (hq : ({ x.setScene i c with loads := loads, nextLoad := next } : Tables).Queue) :
    ({ x.setScene i c with loads := loads, nextLoad := next } : Tables).Laws d := by
  have hscene (j : Nat) : ({ x.setScene i c with loads := loads, nextLoad := next } : Tables).scene j =
      if j = i then c else x.scene j := scene_setScene x i c j
  refine { h with
    scenesWf := Table.set_wf _ _ _ _ h.scenesWf, third := fun j => ?_, contents := fun j => ?_, queue := hq } <;>
    rw [hscene] <;> split
  case refine_1.isTrue hj => subst hj; exact ⟨huse.trans (h.third j).1, hready⟩
  case refine_1.isFalse => exact h.third j
  case refine_2.isTrue => exact hc
  case refine_2.isFalse => exact h.contents j

/-- A band is written, and the loads may change. -/
theorem Laws.banded {x : Tables} {d : Nat → Nat} (h : x.Laws d) (n : Nat) (b : Band) (loads : List Load) (next : Nat)
    (hq : ({ x.setBand n b with loads := loads, nextLoad := next } : Tables).Queue) :
    ({ x.setBand n b with loads := loads, nextLoad := next } : Tables).Laws d :=
  { h with bandsWf := Table.set_wf _ _ _ _ h.bandsWf, queue := hq }

theorem contents_none : Contents Scene.none :=
  ⟨List.nodup_nil, nofun, by decide, fun _ => rfl, nofun⟩

/-- A LOADING scene is not in use. -/
theorem Laws.useCount_of_loading {x : Tables} {d : Nat → Nat} (h : x.Laws d) {i : Nat} (hi : (x.scene i).state = .loading) :
    (x.scene i).useCount = 0 := by
  by_contra hne
  have hready := (h.third i).2 hne
  rw [hi] at hready
  cases hready

/-! ### What writing a scene or a band leaves of the loads -/

theorem loading_setScene (x : Tables) (i : Nat) (c : Scene) {t : LoadTarget} (ht : t ≠ .scene i) (loads : List Load)
    (next : Nat) : ({ x.setScene i c with loads := loads, nextLoad := next } : Tables).Loading t ↔ x.Loading t := by
  cases t with
  | scene j =>
    have hj : j ≠ i := fun he => ht (he ▸ rfl)
    show ((x.setScene i c).scene j).state = .loading ↔ (x.scene j).state = .loading
    rw [scene_setScene, if_neg hj]
  | band n => exact Iff.rfl

theorem loading_setScene_self (x : Tables) (i : Nat) (c : Scene) (loads : List Load) (next : Nat) :
    ({ x.setScene i c with loads := loads, nextLoad := next } : Tables).Loading (.scene i) ↔ c.state = .loading := by
  show ((x.setScene i c).scene i).state = .loading ↔ c.state = .loading
  rw [scene_setScene, if_pos rfl]

theorem holds_setScene (x : Tables) (i : Nat) (c : Scene) {m : Load} (hm : m.target ≠ .scene i) (loads : List Load)
    (next : Nat) (h : x.Holds m) : ({ x.setScene i c with loads := loads, nextLoad := next } : Tables).Holds m := by
  obtain ⟨hs, hb⟩ := h
  refine ⟨fun j hj => ?_, hb⟩
  have hne : j ≠ i := fun he => hm (he ▸ hj)
  show ((x.setScene i c).scene j).entryCount = _ ∧ ((x.setScene i c).scene j).entries.length = _
  rw [scene_setScene, if_neg hne]
  exact hs j hj

theorem loading_setBand (x : Tables) (n : Nat) (b : Band) {t : LoadTarget} (ht : t ≠ .band n) (loads : List Load)
    (next : Nat) : ({ x.setBand n b with loads := loads, nextLoad := next } : Tables).Loading t ↔ x.Loading t := by
  cases t with
  | scene j => exact Iff.rfl
  | band m =>
    have hm : m ≠ n := fun he => ht (he ▸ rfl)
    show (∃ d, (x.setBand n b).band m = .loading d) ↔ ∃ d, x.band m = .loading d
    rw [band_setBand, if_neg hm]

theorem loading_setBand_self (x : Tables) (n : Nat) (b : Band) (loads : List Load) (next : Nat) :
    ({ x.setBand n b with loads := loads, nextLoad := next } : Tables).Loading (.band n) ↔ ∃ d, b = .loading d := by
  show (∃ d, (x.setBand n b).band n = .loading d) ↔ ∃ d, b = .loading d
  rw [band_setBand, if_pos rfl]

theorem holds_setBand (x : Tables) (n : Nat) (b : Band) {m : Load} (hm : m.target ≠ .band n) (loads : List Load)
    (next : Nat) (h : x.Holds m) : ({ x.setBand n b with loads := loads, nextLoad := next } : Tables).Holds m := by
  obtain ⟨hs, hb⟩ := h
  refine ⟨hs, fun j d hj hd => ?_⟩
  have hne : j ≠ n := fun he => hm (he ▸ hj)
  have hd : (x.setBand n b).band j = .loading d := hd
  rw [band_setBand, if_neg hne] at hd
  exact hb j d hj hd

/-! ## Scene loads (R25 to R28) -/

/-- A scene load fails: its scene is EMPTY. -/
theorem Laws.sceneFailed {x : Tables} {d : Nat → Nat} (h : x.Laws d) {l : Load} {rest : List Load}
    (hx : x.loads = l :: rest) {i : Nat} (hi : l.target = .scene i) :
    ({ x.setScene i Scene.none with loads := nextHead x.loads, nextLoad := x.nextLoad } : Tables).Laws d := by
  have hloading : (x.scene i).state = .loading := (h.queue.loading (.scene i)).2 ⟨l, hx ▸ List.mem_cons_self .., hi⟩
  refine h.scened i Scene.none (h.useCount_of_loading hloading).symm (fun hne => absurd rfl hne) contents_none _ _ (h.queue.popped hx rfl rfl ?_
    (fun t ht => loading_setScene x i _ (hi ▸ ht) _ _) fun m hm => holds_setScene x i _ (hi ▸ hm) _ _)
  rw [hi, loading_setScene_self]
  nofun

/-- An entry that names a channel up to 4095 and none of those named before is a good one. -/
theorem contents_append {c : Scene} (h : Contents c) (hstate : c.state = .loading) {e : Nat × Level}
    (he : badSceneEntry c e = false) : Contents { c with entries := c.entries ++ [e] } := by
  obtain ⟨hnodup, hrange, hblocks, -, -⟩ := h
  unfold badSceneEntry at he
  rw [Bool.or_eq_false_iff, decide_eq_false_iff_not, List.any_eq_false] at he
  obtain ⟨hle, hnew⟩ := he
  refine ⟨?_, fun a ha => ?_, hblocks, fun hs => ?_, fun hs => ?_⟩
  · rw [List.map_append]
    refine List.nodup_append.2 ⟨hnodup, List.nodup_singleton _, fun a ha b hb hab => ?_⟩
    obtain ⟨a', ha', rfl⟩ := List.mem_map.1 ha
    rw [List.map_singleton, List.mem_singleton] at hb
    exact hnew a' ha' (decide_eq_true (hab.trans hb))
  · rcases List.mem_append.1 ha with ha | ha
    · exact hrange a ha
    · rw [List.mem_singleton.1 ha]; exact Nat.not_lt.mp hle
  · have hs : c.state = .empty := hs
    rw [hstate] at hs
    cases hs
  · have hs : c.state = .ready := hs
    rw [hstate] at hs
    cases hs

/-- A scene load receives an entry that is not its last. -/
theorem Laws.sceneItem {x : Tables} {d : Nat → Nat} (h : x.Laws d) {l : Load} {rest : List Load}
    (hx : x.loads = l :: rest) {i : Nat} (hi : l.target = .scene i) {e : Nat × Level}
    (he : badSceneEntry (x.scene i) e = false) (hlt : l.received + 1 < l.itemCount) :
    ({ x.setScene i { x.scene i with entries := (x.scene i).entries ++ [e] } with
      loads := { l with received := l.received + 1 } :: rest, nextLoad := x.nextLoad } : Tables).Laws d := by
  have hmem : l ∈ x.loads := hx ▸ List.mem_cons_self ..
  have hloading : (x.scene i).state = .loading := (h.queue.loading (.scene i)).2 ⟨l, hmem, hi⟩
  obtain ⟨hcount, hlen⟩ := (h.queue.holds l hmem).1 i hi
  refine h.scened i { x.scene i with entries := (x.scene i).entries ++ [e] } rfl (h.third i).2 (contents_append (h.contents i) hloading he) _ _
    (h.queue.counted hx rfl rfl hlt (fun t => ?_) (fun m hm => holds_setScene x i _ (hi ▸ hm) _ _) ⟨fun j hj => ?_, fun n d hn => ?_⟩)
  · by_cases ht : t = .scene i
    · subst ht
      rw [loading_setScene_self]
      exact Iff.rfl
    · exact loading_setScene x i _ ht _ _
  · have hj : l.target = .scene j := hj
    obtain rfl : i = j := LoadTarget.scene.inj (hi.symm.trans hj)
    show ((x.setScene i _).scene i).entryCount = _ ∧ ((x.setScene i _).scene i).entries.length = _
    rw [scene_setScene, if_pos rfl]
    exact ⟨hcount, by rw [List.length_append, hlen]; rfl⟩
  · have hn : l.target = .band n := hn
    rw [hi] at hn
    cases hn

/-- A scene load receives its last entry: its scene is READY. -/
theorem Laws.sceneReady {x : Tables} {d : Nat → Nat} (h : x.Laws d) {l : Load} {rest : List Load}
    (hx : x.loads = l :: rest) {i : Nat} (hi : l.target = .scene i) {e : Nat × Level}
    (he : badSceneEntry (x.scene i) e = false) (hlast : ¬l.received + 1 < l.itemCount) :
    ({ x.setScene i { x.scene i with state := .ready, entries := (x.scene i).entries ++ [e] } with
      loads := nextHead x.loads, nextLoad := x.nextLoad } : Tables).Laws d := by
  have hmem : l ∈ x.loads := hx ▸ List.mem_cons_self ..
  have hloading : (x.scene i).state = .loading := (h.queue.loading (.scene i)).2 ⟨l, hmem, hi⟩
  obtain ⟨hcount, hlen⟩ := (h.queue.holds l hmem).1 i hi
  have hheads := (h.queue.heads 0 l (by rw [hx]; rfl)).2
  obtain ⟨hnodup, hrange, hblocks, -, -⟩ := contents_append (h.contents i) hloading he
  refine h.scened i { x.scene i with state := .ready, entries := (x.scene i).entries ++ [e] } rfl (fun _ => rfl)
    ⟨hnodup, hrange, hblocks, nofun, fun _ => ?_⟩ _ _ (h.queue.popped hx rfl rfl ?_
    (fun t ht => loading_setScene x i _ (hi ▸ ht) _ _) fun m hm => holds_setScene x i _ (hi ▸ hm) _ _)
  · show ((x.scene i).entries ++ [e]).length = (x.scene i).entryCount
    rw [List.length_append, hlen, hcount]
    show l.received + 1 = l.itemCount
    omega
  · rw [hi, loading_setScene_self]
    nofun

/-! ## Band loads (R25, R92) -/

/-- A band load ends, whatever it leaves of its band. -/
theorem Laws.bandEnded {x : Tables} {d : Nat → Nat} (h : x.Laws d) {l : Load} {rest : List Load}
    (hx : x.loads = l :: rest) {n : Nat} (hn : l.target = .band n) {b : Band} (hb : ∀ d, b ≠ .loading d) :
    ({ x.setBand n b with loads := nextHead x.loads, nextLoad := x.nextLoad } : Tables).Laws d := by
  refine h.banded n b _ _ (h.queue.popped hx rfl rfl ?_ (fun t ht => loading_setBand x n _ (hn ▸ ht) _ _)
    fun m hm => holds_setBand x n _ (hn ▸ hm) _ _)
  rw [hn, loading_setBand_self]
  exact fun ⟨d, hd⟩ => hb d hd

/-- A band load receives a colour that is not its last. -/
theorem Laws.bandItem {x : Tables} {d : Nat → Nat} (h : x.Laws d) {l : Load} {rest : List Load}
    (hx : x.loads = l :: rest) {n : Nat} (hn : l.target = .band n) {u u' : BandSetup} (hu : x.band n = .loading u)
    (hu' : u'.pattern.length = u.pattern.length + 1) (hlt : l.received + 1 < l.itemCount) :
    ({ x.setBand n (.loading u') with
      loads := { l with received := l.received + 1 } :: rest, nextLoad := x.nextLoad } : Tables).Laws d := by
  have hmem : l ∈ x.loads := hx ▸ List.mem_cons_self ..
  have hlen := (h.queue.holds l hmem).2 n u hn hu
  refine h.banded n _ _ _ (h.queue.counted hx rfl rfl hlt (fun t => ?_) (fun m hm => holds_setBand x n _ (hn ▸ hm) _ _)
    ⟨fun i hi => ?_, fun m v hm hv => ?_⟩)
  · by_cases ht : t = .band n
    · subst ht
      rw [loading_setBand_self]
      exact ⟨fun _ => ⟨u, hu⟩, fun _ => ⟨u', rfl⟩⟩
    · exact loading_setBand x n _ ht _ _
  · have hi : l.target = .scene i := hi
    rw [hn] at hi
    cases hi
  · have hm : l.target = .band m := hm
    obtain rfl : n = m := LoadTarget.band.inj (hn.symm.trans hm)
    have hv : (x.setBand n (.loading u')).band n = .loading v := hv
    rw [band_setBand, if_pos rfl] at hv
    injection hv with hv
    subst hv
    show u'.pattern.length = l.received + 1
    rw [hu', hlen]

/-! ## Loads that join (R27, R91) -/

/-- An accepted LOAD_SCENE. -/
theorem Laws.sceneJoined {x : Tables} {d : Nat → Nat} (h : x.Laws d) {i n : Nat} {l : Load} (hlen : x.loads.length < 4)
    (hloading : (x.scene i).state ≠ .loading) (huse : (x.scene i).useCount = 0) (hi : l.target = .scene i)
    (hcount : l.itemCount = n) (hreceived : l.received = 0) (hn : 1 ≤ n) (hid : l.id = x.nextLoad) :
    ({ x.setScene i { state := .loading, entryCount := n, blocks := blocksFor n, useCount := 0, entries := [] } with
      loads := x.loads ++ [{ l with fetching := x.loads.isEmpty }], nextLoad := x.nextLoad + 1 } : Tables).Laws d := by
  refine h.scened i { state := .loading, entryCount := n, blocks := blocksFor n, useCount := 0, entries := [] } huse.symm
    (fun hne => absurd rfl hne) ⟨List.nodup_nil, nofun, rfl, nofun, nofun⟩ _ _ (h.queue.joined hlen rfl rfl hid ?_ ?_ ?_
    (fun t ht => loading_setScene x i _ (hi ▸ ht) _ _) (fun m hm => holds_setScene x i _ (hi ▸ hm) _ _)
    ⟨fun j hj => ?_, fun m d hm => ?_⟩)
  · rw [hreceived, hcount]; exact hn
  · rw [hi]; exact hloading
  · rw [hi, loading_setScene_self]
  · obtain rfl : i = j := LoadTarget.scene.inj (hi.symm.trans hj)
    show ((x.setScene i _).scene i).entryCount = _ ∧ ((x.setScene i _).scene i).entries.length = _
    rw [scene_setScene, if_pos rfl, hcount, hreceived]
    exact ⟨rfl, rfl⟩
  · rw [hi] at hm
    cases hm

/-- An accepted LOAD_BAND. -/
theorem Laws.bandJoined {x : Tables} {d : Nat → Nat} (h : x.Laws d) {n : Nat} {l : Load} {u : BandSetup}
    (hlen : x.loads.length < 4) (hloading : ∀ v, x.band n ≠ .loading v) (hn : l.target = .band n)
    (hreceived : l.received = 0) (hcount : 1 ≤ l.itemCount) (hid : l.id = x.nextLoad) (hu : u.pattern = []) :
    ({ x.setBand n (.loading u) with
      loads := x.loads ++ [{ l with fetching := x.loads.isEmpty }], nextLoad := x.nextLoad + 1 } : Tables).Laws d := by
  refine h.banded n _ _ _ (h.queue.joined hlen rfl rfl hid ?_ ?_ ?_
    (fun t ht => loading_setBand x n _ (hn ▸ ht) _ _) (fun m hm => holds_setBand x n _ (hn ▸ hm) _ _)
    ⟨fun i hi => ?_, fun m v hm hv => ?_⟩)
  · rw [hreceived]; exact hcount
  · rw [hn]
    exact fun ⟨v, hv⟩ => hloading v hv
  · rw [hn, loading_setBand_self]
    exact ⟨u, rfl⟩
  · rw [hn] at hi
    cases hi
  · obtain rfl : n = m := LoadTarget.band.inj (hn.symm.trans hm)
    have hv : (x.setBand n (.loading u)).band n = .loading v := hv
    rw [band_setBand, if_pos rfl] at hv
    injection hv with hv
    rw [← hv, hu, hreceived]
    rfl

end Tables

end Sys2Proof.Shows
end

section
/-! PROOFS. Every edit of a command keeps the second and the third law with what keeps them. -/

namespace Sys2Proof.Shows

open Machine Safety Steps Tables

/-- The laws read the scenes, not how their table was written. -/
theorem Tables.Laws.sameScenes {x : Tables} {d : Nat → Nat} (h : x.Laws d) (scenes : Table Scene)
    (hwf : scenes.wf Scene.none = true) (hget : ∀ i, scenes.get Scene.none i = x.scene i) :
    ({ x with scenes := scenes } : Tables).Laws d := by
  have hscene (i : Nat) : ({ x with scenes := scenes } : Tables).scene i = x.scene i := hget i
  refine { h with
    scenesWf := hwf
    third := fun i => by rw [hscene]; exact h.third i
    contents := fun i => by rw [hscene]; exact h.contents i
    queue := h.queue.congr rfl rfl (fun t => ?_) fun l _ hl => ⟨fun i hi => by rw [hscene]; exact hl.1 i hi, hl.2⟩ }
  cases t with
  | scene i =>
    show (({ x with scenes := scenes } : Tables).scene i).state = .loading ↔ (x.scene i).state = .loading
    rw [hscene]
  | band n => exact Iff.rfl

/-! ## Load data (R25, R26, R92) -/

theorem loads_of_head {x : List Load} {l : Load} (h : x.head? = some l) : ∃ rest, x = l :: rest := by
  cases x with
  | nil => cases h
  | cons m rest => exact ⟨rest, by injection h with h; rw [h]⟩

/-- A band that a load fills is LOADING. -/
theorem band_of_head {s : State} (h : (tablesOf s).Queue) {l : Load} {rest : List Load} (hl : s.store.loads = l :: rest)
    {n : Nat} (hn : l.target = .band n) : ∃ d, s.bands.band n = .loading d :=
  (h.loading (.band n)).2 ⟨l, by rw [show (tablesOf s).loads = l :: rest from hl]; exact List.mem_cons_self .., hn⟩

theorem loadError_laws {s : State} {d : Nat → Nat} (h : (tablesOf s).Laws d) (f : Nat) :
    (tablesOf (s.loadError f)).Laws d := by
  cases hhead : s.store.loads.head? with
  | none =>
    have heq : s.loadError f = s := by unfold State.loadError; rw [hhead]
    rw [heq]; exact h
  | some l =>
    obtain ⟨rest, hl⟩ := loads_of_head hhead
    cases ht : l.target with
    | scene i =>
      have heq : s.loadError f = s.endSceneLoadFailed f l i .hostReadError l.received := by
        unfold State.loadError; simp only [hhead, ht]
      rw [heq]
      exact h.sceneFailed hl ht
    | band n =>
      have heq : s.loadError f = s.endBandLoadFailed l n .hostReadError l.received := by
        unfold State.loadError; simp only [hhead, ht]
      rw [heq]
      exact h.bandEnded hl ht fun _ => nofun

theorem takeSceneItem_laws {s : State} {d : Nat → Nat} (h : (tablesOf s).Laws d) (f : Nat) {l : Load} {rest : List Load}
    (hl : s.store.loads = l :: rest) {i : Nat} (ht : l.target = .scene i) (bytes : List Byte) :
    (tablesOf (s.takeSceneItem f l i bytes)).Laws d := by
  by_cases hbad : badSceneEntry (s.store.scene i) (sceneItem bytes) = true
  · have heq : s.takeSceneItem f l i bytes = s.endSceneLoadFailed f l i .badField l.received := if_pos hbad
    rw [heq]
    exact h.sceneFailed hl ht
  · rw [Bool.not_eq_true] at hbad
    by_cases hlt : l.received + 1 < l.itemCount
    · have hmore := h.sceneItem hl ht (e := sceneItem bytes) hbad hlt
      have heq : tablesOf (s.takeSceneItem f l i bytes) =
          { (tablesOf s).setScene i
              { (tablesOf s).scene i with entries := ((tablesOf s).scene i).entries ++ [sceneItem bytes] } with
            loads := { l with received := l.received + 1 } :: rest, nextLoad := (tablesOf s).nextLoad } := by
        simp only [State.takeSceneItem, hbad, Bool.false_eq_true, if_false, hlt, if_true, SceneStore.countItem,
          SceneStore.setScene, hl]
        rfl
      rw [heq]
      exact hmore
    · have hlast := h.sceneReady hl ht (e := sceneItem bytes) hbad hlt
      have hwritten : (Stores.writtenEntry s.store i (sceneItem bytes)).scene i =
          { s.store.scene i with entries := (s.store.scene i).entries ++ [sceneItem bytes] } := by
        show (s.store.setScene i _).scene i = _
        rw [SceneStore.scene_setScene, if_pos rfl]
      rw [Stores.takeSceneItem_good hl hbad, if_neg hlt, Stores.endSceneLoadReady_eq rfl hwritten]
      have hloads : nextHead (tablesOf s).loads = Claims.afterHead rest := by
        rw [show (tablesOf s).loads = l :: rest from hl]
        cases rest <;> rfl
      rw [hloads] at hlast
      refine hlast.sameScenes _ (Table.set_wf _ _ _ _ (Table.set_wf _ _ _ _ h.scenesWf)) fun j => ?_
      refine (Table.get_set _ _ _ _ _).trans ?_
      refine Eq.trans ?_ (scene_setScene (tablesOf s) i _ j).symm
      split
      case isTrue => rfl
      case isFalse hj => exact (Table.get_set _ _ _ _ _).trans (if_neg hj)

theorem takeColour_laws {s : State} {d : Nat → Nat} (h : (tablesOf s).Laws d) {l : Load} {rest : List Load}
    (hl : s.store.loads = l :: rest) {n : Nat} (ht : l.target = .band n) (bytes : List Byte) :
    (tablesOf (s.takeColour l n bytes)).Laws d := by
  obtain ⟨u, hu⟩ := band_of_head h.queue hl ht
  have hsetup : (s.bands.band n).setup = some u := by rw [hu]; rfl
  unfold State.takeColour
  rw [hsetup]
  dsimp only
  split
  case isTrue hlt =>
    have hitem := h.bandItem hl ht hu (u' := { u with pattern := u.pattern ++ [colourItem u.components bytes] })
      (List.length_append ..) hlt
    have hcount : s.store.countItem = { s.store with loads := { l with received := l.received + 1 } :: rest } := by
      unfold SceneStore.countItem; rw [hl]
    rw [hcount]
    exact hitem
  case isFalse => exact h.bandEnded hl ht fun _ => nofun

theorem loadItem_laws {s : State} {d : Nat → Nat} (h : (tablesOf s).Laws d) (f : Nat) (item : LoadItem) :
    (tablesOf (s.loadItem f item)).Laws d := by
  cases hhead : s.store.loads.head?.filter (fun l => decide (l.id = item.load)) with
  | none =>
    have heq : s.loadItem f item = s := by unfold State.loadItem; rw [hhead]
    rw [heq]; exact h
  | some l =>
    obtain ⟨rest, hl⟩ := loads_of_head (Option.filter_eq_some_iff.1 hhead).1
    cases ht : l.target with
    | scene i =>
      have heq : s.loadItem f item = s.takeSceneItem f l i item.bytes := by
        unfold State.loadItem; simp only [hhead, ht]
      rw [heq]
      exact takeSceneItem_laws h f hl ht item.bytes
    | band n =>
      have heq : s.loadItem f item = s.takeColour l n item.bytes := by
        unfold State.loadItem; simp only [hhead, ht]
      rw [heq]
      exact takeColour_laws h hl ht item.bytes

theorem loadAnswer_laws {s : State} {d : Nat → Nat} (h : (tablesOf s).Laws d) (f : Nat) (a : LoadAnswer) :
    (tablesOf (s.loadAnswer f a)).Laws d := by
  cases a with
  | item item => exact loadItem_laws h f item
  | error => exact loadError_laws h f

/-! ## Requests of the store and the Band Unit (R27, R29, R91) -/

theorem acceptLoadScene_laws {s : State} {d : Nat → Nat} (h : (tablesOf s).Laws d) {c : Ctx} {i n : Nat} {a : HostAddress}
    (haccept : s.store.loadSceneRefusal i n = none) (hn : 1 ≤ n) :
    (tablesOf { s with store := s.store.acceptLoadScene c i n a }).Laws d := by
  obtain ⟨hloading, hused, hlen, -⟩ := Invariants.loadSceneRefusal_none haccept
  have huse : (s.store.scene i).useCount = 0 := by
    by_contra hne
    exact hused ⟨(h.third i).2 hne, Nat.pos_of_ne_zero hne⟩
  let l : Load :=
    { id := s.store.nextLoad, target := .scene i, address := a, itemCount := n, itemSize := 4, received := 0,
      fetching := false, ctx := c }
  exact h.sceneJoined (l := l) hlen hloading huse rfl rfl rfl hn rfl

theorem loadBandRefusal_none {s : State} {n : Nat} (h : s.loadBandRefusal n = none) :
    (∀ u, s.bands.band n ≠ .loading u) ∧ s.store.loads.length < 4 := by
  unfold State.loadBandRefusal at h
  split at h
  · cases h
  · cases h
  · rename_i hloading _
    split at h
    · cases h
    · rename_i hfull
      exact ⟨hloading, Nat.not_le.mp hfull⟩

theorem acceptLoadBand_laws {s : State} {d : Nat → Nat} (h : (tablesOf s).Laws d) {c : Ctx} {q : BandLoadRequest}
    (haccept : s.loadBandRefusal q.band = none) (hn : 1 ≤ q.lead + q.roll + q.tail) :
    (tablesOf (s.acceptLoadBand c q)).Laws d := by
  obtain ⟨hloading, hlen⟩ := loadBandRefusal_none haccept
  let l : Load :=
    { id := s.store.nextLoad, target := .band q.band, address := q.address, itemCount := q.lead + q.roll + q.tail,
      itemSize := colourSize (s.ports.port q.port).applied.components, received := 0, fetching := false, ctx := c }
  exact h.bandJoined (l := l) hlen hloading rfl rfl hn rfl rfl

theorem emptyScene_laws {s : State} {d : Nat → Nat} (h : (tablesOf s).Laws d) {i : Nat}
    (hready : (s.store.scene i).state = .ready) (huse : (s.store.scene i).useCount = 0) :
    (tablesOf { s with store := s.store.emptyScene i }).Laws d := by
  have hidle : ¬(tablesOf s).Loading (.scene i) := by
    intro hl
    have hl : (s.store.scene i).state = .loading := hl
    rw [hready] at hl
    cases hl
  have hother : ∀ m ∈ s.store.loads, m.target ≠ .scene i := fun m hm he => hidle ((h.queue.loading _).2 ⟨m, hm, he⟩)
  refine h.scened i Scene.none huse.symm (fun hne => absurd rfl hne) contents_none _ _
    (h.queue.congr rfl rfl (fun t => ?_) fun m hm => holds_setScene _ i _ (hother m hm) _ _)
  by_cases ht : t = .scene i
  · subst ht
    rw [loading_setScene_self]
    exact ⟨nofun, fun hl => absurd hl hidle⟩
  · exact loading_setScene _ i _ ht _ _

/-! ## The resets (R33, R34, R99) -/

/-- Every load is gone, and what was LOADING is so no more. -/
theorem Tables.Laws.abandoned {x : Tables} (h : x.Laws noDebt) {scenes : Table Scene} {bands : Table Band}
    (hsw : scenes.wf Scene.none = true) (hbw : bands.wf Band.undefined = true)
    (hscenes : ∀ i, ((x.scene i).state = .loading ∧ scenes.get Scene.none i = Scene.none) ∨
      ((x.scene i).state ≠ .loading ∧ scenes.get Scene.none i = x.scene i))
    (hbands : ∀ n v, bands.get Band.undefined n ≠ .loading v) (next : Nat) :
    ({ x with scenes := scenes, bands := bands, loads := [], nextLoad := next } : Tables).Laws noDebt := by
  have hscene (i : Nat) :
      ({ x with scenes := scenes, bands := bands, loads := [], nextLoad := next } : Tables).scene i =
        scenes.get Scene.none i := rfl
  refine { h with
    scenesWf := hsw, bandsWf := hbw, third := fun i => ?_, contents := fun i => ?_
    queue := .emptied rfl fun target => ?_ }
  · rw [hscene]
    rcases hscenes i with ⟨hloading, he⟩ | ⟨-, he⟩
    · rw [he]
      exact ⟨(h.useCount_of_loading hloading).symm.trans (h.third i).1, fun hne => absurd rfl hne⟩
    · rw [he]; exact h.third i
  · rw [hscene]
    rcases hscenes i with ⟨-, he⟩ | ⟨-, he⟩
    · rw [he]; exact contents_none
    · rw [he]; exact h.contents i
  · cases target with
    | scene i =>
      show ¬(scenes.get Scene.none i).state = .loading
      rcases hscenes i with ⟨-, he⟩ | ⟨hne, he⟩
      · rw [he]; nofun
      · rw [he]; exact hne
    | band n => exact fun ⟨v, hv⟩ => hbands n v hv

theorem loading_of_mem_sceneOf {s : State} (h : (tablesOf s).Queue) (i : Nat) :
    i ∈ s.store.loads.filterMap Load.sceneOf ↔ (s.store.scene i).state = .loading := by
  refine Iff.trans ?_ (h.loading (.scene i)).symm
  rw [List.mem_filterMap]
  constructor
  · rintro ⟨l, hl, hi⟩
    refine ⟨l, hl, ?_⟩
    unfold Load.sceneOf at hi
    split at hi
    · rename_i j hj; injection hi with hi; rw [hj, hi]
    · cases hi
  · rintro ⟨l, hl, hi⟩
    exact ⟨l, hl, by unfold Load.sceneOf; rw [hi]⟩

/-- What the loads fill is EMPTY or UNDEFINED once they are abandoned. -/
theorem interfaceReset_laws {s : State} (h : (tablesOf s).Laws noDebt) (u : HostUnit) :
    (tablesOf { s.hostInterfaceReset with host := u }).Laws noDebt := by
  obtain ⟨t, ht, heq⟩ := hostInterfaceReset_eq s
  have htables : tablesOf { s.hostInterfaceReset with host := u } =
      { tablesOf s with
        scenes := t.store.scenes, bands := t.bands.records, loads := [], nextLoad := t.store.nextLoad } := by
    rw [heq]
    show Tables.mk t.arbiter.channels t.engine.slots t.store.scenes [] t.store.nextLoad t.bands.records = _
    rw [ht.arbiter, ht.engine]
    rfl
  rw [htables]
  refine h.abandoned (ht.scenesWf h.scenesWf) (ht.bandsWf h.bandsWf) (fun i => ?_) (fun n v hv => ?_) _
  · have hget : t.store.scenes.get Scene.none i = _ := ht.scene i
    rw [hget]
    by_cases hi : i ∈ s.store.loads.filterMap Load.sceneOf
    · exact .inl ⟨(loading_of_mem_sceneOf h.queue i).1 hi, if_pos hi⟩
    · exact .inr ⟨fun hl => hi ((loading_of_mem_sceneOf h.queue i).2 hl), if_neg hi⟩
  · have hget : t.bands.records.get Band.undefined n = _ := ht.band n
    rw [hget] at hv
    split at hv
    case isTrue => cases hv
    case isFalse hn =>
      obtain ⟨l, hl, hln⟩ := (h.queue.loading (.band n)).1 ⟨v, hv⟩
      exact hn (List.mem_filterMap.2 ⟨l, hl, by unfold Load.bandOf; rw [hln]⟩)

/-- Every channel FREE, every slot FREE, every scene EMPTY, every band UNDEFINED, and no load. -/
theorem laws_cleared {x : Tables} (hc : x.channels.wf Channel.dark = true) (hs : x.slots.wf FadeSlot.atReset = true)
    (hchannels : ∀ k, driven x.channels k = 0) (hslots : ∀ k, ∃ a, x.slot k = .free a) (hscenes : x.scenes = Table.empty)
    (hbands : x.bands = Table.empty) (hloads : x.loads = []) : x.Laws noDebt := by
  have hscene (i : Nat) : x.scene i = Scene.none := by unfold scene; rw [hscenes]; rfl
  have hband (n : Nat) : x.band n = .undefined := by unfold band; rw [hbands]; rfl
  have hserving (i : Nat) : serving x.slots i = 0 := by
    refine Table.total_eq_zero (fun v : FadeSlot => if servesScene i v = true then 1 else 0) FadeSlot.atReset _ hs
      fun k => ?_
    obtain ⟨a, ha⟩ := hslots k
    rw [show x.slots.get FadeSlot.atReset k = .free a from ha]
    rfl
  refine
    { channelsWf := hc, slotsWf := hs, scenesWf := by rw [hscenes]; rfl, bandsWf := by rw [hbands]; rfl
      inUse := fun k r hk => ?_, free := fun k _ _ => hchannels k, third := fun i => ?_, contents := fun i => ?_
      queue := .emptied hloads fun t => ?_ }
  · obtain ⟨a, ha⟩ := hslots k
    rw [ha] at hk
    cases hk
  · rw [hscene, hserving]
    exact ⟨rfl, fun hne => absurd rfl hne⟩
  · rw [hscene]; exact contents_none
  · cases t with
    | scene i => show ¬(x.scene i).state = .loading; rw [hscene]; nofun
    | band n => show ¬∃ v, x.band n = .loading v; rw [hband]; exact fun ⟨_, hv⟩ => by cases hv

theorem coldReset_laws (s : State) : (tablesOf s.coldReset).Laws noDebt :=
  laws_cleared rfl rfl (fun _ => rfl) (fun _ => ⟨0, rfl⟩) rfl rfl rfl

/-! ## Every edit -/

theorem laws_edit {s t : State} (h : Edit False s t) (hs : (tablesOf s).Laws noDebt) : (tablesOf t).Laws noDebt := by
  cases h with
  | lasts f =>
    have hdriven (k : Nat) : driven (s.arbiter.channels.mapCells Channel.dark fun c ch => { ch with last := f c ch }) k =
        driven s.arbiter.channels k :=
      Table.total_mapCells (fun ch : Channel => if ch.holding.slot = some k then 1 else 0) Channel.dark _ _ rfl
        fun _ _ => rfl
    exact
      { hs with
        channelsWf := Table.mapCells_wf _ _ _ hs.channelsWf
        inUse := fun k r hk => by
          show r.count = driven (s.arbiter.channels.mapCells Channel.dark _) k + noDebt k ∧ 1 ≤ r.count
          rw [hdriven]; exact hs.inUse k r hk
        free := fun k a hk => (hdriven k).trans (hs.free k a hk)
        queue := hs.queue.congr rfl rfl (fun _ => Iff.rfl) fun _ _ => id }
  | loadScene c i n a h hn _ => exact acceptLoadScene_laws hs h hn
  | loadBand c q h hn _ => exact acceptLoadBand_laws hs h hn
  | deleteScene i h hu => exact emptyScene_laws hs h hu
  | loadAnswer f a => exact loadAnswer_laws hs f a
  | interfaceReset u _ => exact interfaceReset_laws hs u
  | _ => exact hs

end Sys2Proof.Shows
end

section
/-! PROOFS. Everything that the work of a frame start does to what the show's laws, the show reset and the end of a slot
read, said once: it is a path of moves. What a move leaves alone it does not name. -/

namespace Sys2Proof.Moves

open Machine Shows Playbacks

/-! ## What is looked at -/

/-- The part of a frame start's work that its properties read. -/
structure View where
  tables : Tables
  freeBlocks : Nat
  clock : FrameClock
  hold : List HeldRequest
  staged : List (Staged PlaybackRequest)
  fences : Nat → Option RequestRecord
  fetch : Option Fetch
  lastGranted : Nat
  intakePause : Bool
  toController : List (Owed × PlaybackRequest)
  answers : List LoadAnswer
  intake : List IntakeArrival
  resetSent : Bool
  resetArbiter : Bool
  resetStore : Bool
  resetEngine : Bool
  resetBands : Bool
  resetGroups : Bool
  resetLosses : List (Nat × Nat)

/-- The record that the fence wait of submission queue `q` holds. -/
def fenceOf (u : HostUnit) (q : Nat) : Option RequestRecord := (u.sq q).fence.map FenceWait.record

def view (w : FrameWork) : View :=
  { tables := tablesOf w.s, freeBlocks := w.s.store.freeBlocks, clock := w.s.clock, hold := w.s.groups.hold,
    staged := w.s.controller.staged, fences := fenceOf w.s.host, fetch := w.s.host.fetch,
    lastGranted := w.s.host.lastGranted, intakePause := w.s.host.intakePause, toController := w.toController,
    answers := w.answers, intake := w.intake, resetSent := w.resetSent, resetArbiter := w.resetArbiter,
    resetStore := w.resetStore, resetEngine := w.resetEngine, resetBands := w.resetBands,
    resetGroups := w.resetGroups, resetLosses := w.resetLosses }

/-! ## What does not change it: completions and the controller's own work -/

theorem fenceOf_complete (u : HostUnit) (o : Owed) (st : Status) (n : Nat) : fenceOf (u.complete o st n) = fenceOf u := by
  funext q
  unfold fenceOf
  rw [HostUnit.sq_complete]
  split
  · unfold SubmissionQueue.afterCompletion
    cases (u.sq q).fence <;> rfl
  · rfl

theorem view_finish (w : FrameWork) (o : Owed) (st : Status) (n : Nat) : view (w.finish o st n) = view w := by
  unfold view
  simp only [FrameWork.finish_s, State.finish, fenceOf_complete, HostUnit.complete_fetch, HostUnit.complete_lastGranted,
    HostUnit.complete_intakePause]
  rfl

theorem view_foldl {β : Type} {f : FrameWork → β → FrameWork} (hf : ∀ w b, view (f w b) = view w) (l : List β) :
    ∀ w, view (l.foldl f w) = view w := by
  induction l with
  | nil => exact fun _ => rfl
  | cons b l ih => exact fun w => (ih (f w b)).trans (hf w b)

theorem view_finishNows {β : Type} (f : β → Ctx) (l : List β) : ∀ w : FrameWork,
    view { w with s := l.foldl (fun acc x => acc.finishNow (f x) .cancelled 0) w.s } = view w := by
  induction l with
  | nil => exact fun _ => rfl
  | cons x l ih =>
    exact fun w => (ih (w.finish { ctx := f x, dropped := false } .cancelled 0)).trans (view_finish _ _ _ _)

theorem view_reportCue (w : FrameWork) (c : Cue) (st : Status) : view (w.reportCue c st) = view w := by
  unfold FrameWork.reportCue
  split
  · exact view_finish _ _ _ _
  · rfl

theorem view_triggerHead (w : FrameWork) (p : Nat) : view (w.triggerHead p) = view w := by
  unfold FrameWork.triggerHead
  dsimp only
  split <;> rfl

theorem view_tryHead (w : FrameWork) (p : Nat) : view (w.tryHead p) = view w := by
  unfold FrameWork.tryHead
  split
  · exact view_triggerHead _ _
  · rfl

theorem view_endCue (w : FrameWork) (p id : Nat) (st : Status) : view (w.endCue p id st) = view w := by
  unfold FrameWork.endCue
  split
  · rfl
  · exact (view_tryHead _ _).trans (view_reportCue _ _ _)

theorem view_endRelease (w : FrameWork) (p k : Nat) (st : Status) : view (w.endRelease p k st) = view w := by
  unfold FrameWork.endRelease
  dsimp only
  split
  · split
    · exact view_finish _ _ _ _
    · rfl
  · split
    · exact view_finish _ _ _ _
    · rfl

theorem view_takeNotice (w : FrameWork) (n : EndNotice) : view (w.takeNotice n) = view w := by
  unfold FrameWork.takeNotice
  split
  · exact view_endCue _ _ _ _
  · exact view_endRelease _ _ _ _

theorem view_takeNotices (w : FrameWork) : view w.takeNotices = view w :=
  view_foldl view_takeNotice w.notices { w with notices := [] }

theorem view_cancelCues (w : FrameWork) (l : List Cue) : view (w.cancelCues l) = view w :=
  view_foldl (fun w c => view_reportCue w c .cancelled) l w

theorem view_cancelWaiting (w : FrameWork) (p : Nat) : view (w.cancelWaiting p) = view w :=
  view_foldl (fun w (c : Cue) => view_endCue w p c.id .cancelled) _ w

theorem view_recordRelease (w : FrameWork) (p k n : Nat) (o : Owed) : view (w.recordRelease p k n o) = view w := by
  unfold FrameWork.recordRelease
  dsimp only
  split <;> rfl

theorem view_cancelOwed (w : FrameWork) (l : List Owed) : view (w.cancelOwed l) = view w :=
  view_foldl (fun w o => view_finish w o .cancelled 0) l w

theorem view_cancelPlayback (w : FrameWork) (p : Nat) : view (w.cancelPlayback p) = view w := by
  unfold FrameWork.cancelPlayback
  dsimp only
  split
  · exact (view_finish _ _ _ _).trans (view_cancelCues _ _)
  · exact view_cancelCues _ _

theorem view_applyGo (w : FrameWork) (p : Nat) (o : Owed) : view (w.applyGo p o) = view w := by
  unfold FrameWork.applyGo
  dsimp only
  split
  · exact view_finish _ _ _ _
  · split
    · exact view_finish _ _ _ _
    · split
      · exact view_finish _ _ _ _
      · exact view_triggerHead _ _

theorem view_goChain (w : FrameWork) (p n : Nat) (o : Owed) : view (w.goChain p n o) = view w := by
  unfold FrameWork.goChain
  split
  · exact view_triggerHead _ _
  · exact view_finish _ _ _ _

theorem view_releaseRead (w : FrameWork) (p : Nat) (g : Option Nat) (o : Owed) : view (w.releaseRead p g o) = view w := by
  unfold FrameWork.releaseRead
  split
  · exact view_finish _ _ _ _
  · rfl

theorem view_sweep (w : FrameWork) (p : Nat) : view (w.sweep p) = view w := by
  unfold FrameWork.sweep
  dsimp only
  split <;> rfl

/-! ## The moves -/

/-- One move of a frame start's work; `may` says which playback requests may be applied there. -/
inductive Move (may : PlaybackRequest → Prop) : FrameWork → FrameWork → Prop
  /-- What is looked at stays. -/
  | aside {w v : FrameWork} (h : view v = view w) : Move may w v
  /-- A batch or an order that gives no channel to a slot, and the losses that it reports. -/
  | strike {w : FrameWork} (t : Table Channel) (rep : ArbiterReport) (reason : EndReason) (ha : w.resetArbiter = false)
      (hb : w.s.arbiter.channels.wf Channel.dark = true → ∃ f, Balanced w.s.arbiter.channels t rep none f) :
      Move may w ((w.setChannels t).takeLosses rep.lost reason)
  /-- A slot request, of a scene that is READY. -/
  | request {w : FrameWork} (q : FrameWork.SlotRequest)
      (h : ∀ c i, q.kind = .cue c i → (w.s.store.scene i).state = .ready) : Move may w (w.requestSlot q).1
  /-- The end of a slot. -/
  | ends {w : FrameWork} (k : Nat) : Move may w (w.endSlot k)
  /-- A band's record is written; it neither was LOADING nor is. -/
  | band {w : FrameWork} (n : Nat) (b : Band) (hr : w.resetBands = false) (hw : ∀ d, w.s.bands.band n ≠ .loading d)
      (hb : ∀ d, b ≠ .loading d) : Move may w { w with s := { w.s with bands := w.s.bands.setBand n b } }
  /-- A stop order, which takes no channel from a slot. -/
  | stop {w : FrameWork} (b : Nat) (ha : w.resetArbiter = false) :
      Move may w (w.setChannels (stopOrder w.s.arbiter.channels b).1)
  | pause {w : FrameWork} (p : Nat) (h : may (.pause p)) :
      Move may w { w with s := { w.s with engine := w.s.engine.pauseOrder p w.frame } }
  | resume {w : FrameWork} (p : Nat) :
      Move may w { w with s := { w.s with engine := w.s.engine.resumeOrder p w.frame } }
  /-- The host's next answer to a read of load data. -/
  | answer {w : FrameWork} (a : LoadAnswer) (rest : List LoadAnswer) (h : w.answers = a :: rest) :
      Move may w ({ w with answers := rest }.takeAnswer a)
  /-- What the host interface brings next. -/
  | arrival {w : FrameWork} (a : IntakeArrival) (rest : List IntakeArrival) (h : w.intake = a :: rest) :
      Move may w ({ w with intake := rest }.takeArrival a)
  /-- Staged playback requests leave their list. -/
  | unstage {w : FrameWork} (l : List (Staged PlaybackRequest)) (h : l.Sublist w.s.controller.staged) :
      Move may w { w with s := { w.s with controller := { w.s.controller with staged := l } } }
  /-- A released playback request is taken. -/
  | released {w : FrameWork} (x : Owed × PlaybackRequest) (rest : List (Owed × PlaybackRequest))
      (h : w.toController = x :: rest) : Move may w { w with toController := rest }
  /-- A group is released. -/
  | commit {w : FrameWork} (hold : List HeldRequest) (l : List (Owed × PlaybackRequest)) (hs : hold.Sublist w.s.groups.hold)
      (hl : ∀ x ∈ l, ∃ h ∈ w.s.groups.hold, h.request = .playback x.2) :
      Move may w { w with
        s := { w.s with groups := { w.s.groups with hold := hold } }, toController := w.toController ++ l }
  /-- A released request of the composer is taken. -/
  | compose {w : FrameWork} (parks : List ParkRange) (master : Level) (h : w.resetSent = false) :
      Move may w { w with s := { w.s with clock := { w.s.clock with parks := parks, master := master } } }
  /-- A staged request of the Frame Clock and Composer other than SHOW_RESET is taken. -/
  | clock {w : FrameWork} (e : Staged ClockRequest) (rest : List (Staged ClockRequest)) (parks : List ParkRange)
      (master : Level) (period : Nat) (h : takeStaged w.frame w.s.clock.staged = some (e, rest))
      (he : e.request ≠ .showReset) :
      Move may w { w with
        s := { w.s with
          clock := { w.s.clock with staged := rest, parks := parks, master := master, period := period } } }
  /-- A SHOW_RESET is applied. -/
  | reset {w : FrameWork} (e : Staged ClockRequest) (rest : List (Staged ClockRequest))
      (h : takeStaged w.frame w.s.clock.staged = some (e, rest)) :
      Move may w { w with
        resetSent := true
        s := { w.s with
          clock := { w.s.clock with staged := rest, parks := [], master := 65535 }
          host := { w.s.host with intakePause := false } } }
  | resetArbiter {w : FrameWork} (h : w.resetSent = true) : Move may w w.showResetArbiter
  | resetStore {w : FrameWork} (h : w.resetSent = true) :
      Move may w { w with
        s := { w.s with store := { w.s.store with scenes := Table.empty, freeBlocks := 2048, loads := [] } }
        resetStore := true }
  | resetEngine {w : FrameWork} (h : w.resetSent = true) : Move may w w.showResetEngine
  | resetBands {w : FrameWork} (h : w.resetSent = true) :
      Move may w { w with s := { w.s with bands := { w.s.bands with records := Table.empty } }, resetBands := true }
  | resetGroups {w : FrameWork} (h : w.resetSent = true) :
      Move may w { w with s := { w.s with groups := { w.s.groups with hold := [] } }, resetGroups := true }
  /-- The report on the show-reset order. -/
  | resetReport {w : FrameWork} : Move may w w.takeResetReport

/-- A path of moves. -/
def Path (may : PlaybackRequest → Prop) : FrameWork → FrameWork → Prop := Relation.ReflTransGen (Move may)

variable {may : PlaybackRequest → Prop}

theorem Path.refl {w : FrameWork} : Path may w w := Relation.ReflTransGen.refl

theorem Path.one {w v : FrameWork} (h : Move may w v) : Path may w v := Relation.ReflTransGen.single h

theorem Path.tail {w v x : FrameWork} (h : Path may w v) (hm : Move may v x) : Path may w x := Relation.ReflTransGen.tail h hm

theorem Path.trans {w v x : FrameWork} (h : Path may w v) (h' : Path may v x) : Path may w x := Relation.ReflTransGen.trans h h'

theorem Path.same {w v : FrameWork} (h : view v = view w) : Path may w v := .one (.aside h)

/-- After a path, what is looked at stays. -/
theorem Path.then {w v x : FrameWork} (h : Path may w v) (hx : view x = view v) : Path may w x := h.tail (.aside hx)

/-- Before a path, what is looked at stays. -/
theorem Path.after {w v x : FrameWork} (hx : Path may v x) (h : view v = view w) : Path may w x := (Path.same h).trans hx

/-- What every move keeps, a path keeps. -/
theorem Path.keeps {P : FrameWork → Prop} (hP : ∀ w v, Move may w v → P w → P v) {w v : FrameWork} (h : Path may w v)
    (hw : P w) : P v := by
  unfold Path at h
  induction h with
  | refl => exact hw
  | tail _ hm ih => exact hP _ _ hm ih

/-! ## The controller -/

theorem startCue_moves {w : FrameWork} (p : Nat) (c : Cue) (pairs : List (Nat × Level))
    (h : (w.s.store.scene c.scene).state = .ready) : Path may w (w.startCue p c pairs) := by
  have hscenes : w.takeNotices.s.store.scenes = w.s.store.scenes :=
    congrArg (fun v : View => v.tables.scenes) (view_takeNotices w)
  have hready : (w.takeNotices.s.store.scene c.scene).state = .ready := by
    unfold SceneStore.scene at h ⊢
    rw [hscenes]; exact h
  have hr : Path may w (w.takeNotices.requestSlot (FrameWork.cueRequest (w.takeNotices.playback p) p c pairs)).1 :=
    (Path.same (view_takeNotices w)).tail (.request _ fun _ i hi => by
      injection hi with _ hi
      rw [← hi]; exact hready)
  unfold FrameWork.startCue
  dsimp only
  generalize w.takeNotices.requestSlot (FrameWork.cueRequest (w.takeNotices.playback p) p c pairs) = r at hr ⊢
  obtain ⟨w1, a⟩ := r
  cases a with
  | noSlot => exact hr.then (view_endCue _ _ _ _)
  | noChannels d =>
    exact hr.then ((view_endCue _ _ _ _).trans rfl)
  | started k g d => exact hr.then rfl
  | refused => exact hr.then rfl
  | silent => exact hr.then rfl

theorem readScene_moves (w : FrameWork) (p : Nat) (c : Cue) : Path may w (w.readScene p c) := by
  unfold FrameWork.readScene
  split
  case h_1 h => exact startCue_moves p c _ h
  case h_2 => exact .same rfl
  case h_3 => exact .same (view_endCue _ _ _ _)

theorem fadeStart_moves (w : FrameWork) (p id : Nat) : Path may w (w.fadeStart p id) := by
  unfold FrameWork.fadeStart
  split
  · split
    · exact readScene_moves _ _ _
    · exact .refl
  · exact .refl

theorem wakeCue_moves (w : FrameWork) (p id : Nat) : Path may w (w.wakeCue p id) := by
  unfold FrameWork.wakeCue
  split
  · split
    · exact readScene_moves _ _ _
    · exact .refl
  · exact .refl

theorem releaseSlot_moves (w : FrameWork) (p n : Nat) (o : Owed) : Path may w (w.releaseSlot p n o) := by
  have hr : Path may w (w.takeNotices.requestSlot (FrameWork.releaseRequest (w.takeNotices.playback p) p n)).1 :=
    (Path.same (view_takeNotices w)).tail (.request _ fun _ _ hi => nomatch hi)
  unfold FrameWork.releaseSlot
  dsimp only
  generalize w.takeNotices.requestSlot (FrameWork.releaseRequest (w.takeNotices.playback p) p n) = r at hr ⊢
  obtain ⟨w1, a⟩ := r
  cases a with
  | noSlot => exact hr.then rfl
  | noChannels d => exact hr.then (view_finish _ _ _ _)
  | started k g d => exact hr.then (view_recordRelease _ _ _ _ _)
  | refused => exact hr.then rfl
  | silent => exact hr.then rfl

theorem applySnap_moves (w : FrameWork) (p : Nat) (o : Owed) : Path may w (w.applySnap p o) := by
  unfold FrameWork.applySnap
  split
  case isTrue => exact .same rfl
  case isFalse ha =>
    exact (Path.one (.strike _ _ .snapped (by simpa using ha) fun h => snapOrder_balanced h p)).then (view_finish _ _ _ _)

theorem applyClear_moves (w : FrameWork) (p : Nat) (o : Owed) : Path may w (w.applyClear p o) := by
  unfold FrameWork.applyClear
  dsimp only
  have hwait : view (((w.cancelCues (w.playback p).pending).setPlayback p { w.playback p with pending := [] }).cancelWaiting p)
      = view w := (view_cancelWaiting _ _).trans (view_cancelCues w _)
  generalize FrameWork.cancelWaiting _ p = x at hwait ⊢
  split
  case isTrue => exact .same hwait
  case isFalse ha =>
    have harb : x.resetArbiter = false := by
      rw [show x.resetArbiter = w.resetArbiter from congrArg View.resetArbiter hwait]; simpa using ha
    exact (((Path.same hwait).tail (.strike _ _ .cleared harb fun h => clearOrder_balanced h p)).then
      (view_takeNotices _)).then (view_finish _ _ _ _)

theorem applyPause_moves (w : FrameWork) (p : Nat) (o : Owed) (h : may (.pause p)) : Path may w (w.applyPause p o) := by
  unfold FrameWork.applyPause
  dsimp only
  split
  · exact .same (view_finish _ _ _ _)
  · exact (Path.one (.pause p h)).then (view_finish _ _ _ _)

theorem applyResume_moves (w : FrameWork) (p : Nat) (o : Owed) : Path may w (w.applyResume p o) := by
  unfold FrameWork.applyResume
  dsimp only
  split
  · exact .same (view_finish _ _ _ _)
  · exact (Path.one (.resume p)).then (view_finish _ _ _ _)

theorem applyPlayback_moves (w : FrameWork) (o : Owed) (r : PlaybackRequest) (h : may r) :
    Path may w (w.applyPlayback o r) := by
  cases r with
  | go p => exact .same (view_applyGo _ _ _)
  | pause p => exact applyPause_moves w p o h
  | resume p => exact applyResume_moves w p o
  | clear p => exact applyClear_moves w p o
  | release p g => exact .same (view_cancelWaiting _ _)

theorem stagedPass_moves (w : FrameWork) (h : ∀ e ∈ w.s.controller.staged, e.frame = w.frame → may e.request) :
    Path may w w.stagedPass := by
  unfold FrameWork.stagedPass
  split
  case h_1 e rest he =>
    obtain ⟨before, after, hstaged, hrest, hframe, -⟩ := Transitions.firstDue_of_takeStaged he
    have hpop : Path may w
        ({ w with s := { w.s with controller := { w.s.controller with staged := rest } } }.doFirst [.stagedPass]) :=
      (Path.one (.unstage rest (FrameWork.takeStaged_sublist _ _ _ _ he).1)).then rfl
    exact hpop.trans (applyPlayback_moves _ _ _ (h e (by rw [hstaged]; simp) hframe))
  case h_2 => exact .same rfl

theorem takeReleased_moves (w : FrameWork) (o : Owed) (r : PlaybackRequest) (h : may r) :
    Path may w (w.takeReleased o r) := by
  unfold FrameWork.takeReleased
  split
  · exact .same (view_finish _ _ _ _)
  · split
    · split
      · exact (applyResume_moves _ _ _).then rfl
      · exact applyResume_moves _ _ _
    · exact applyPlayback_moves _ _ _ h

theorem controllerStep_moves (w : FrameWork) (h : ∀ e ∈ w.s.controller.staged, e.frame = w.frame → may e.request)
    (c : ControllerStep) : Path may w (w.controllerStep c) := by
  cases c with
  | stagedPass => exact stagedPass_moves w h
  | sweep p => exact .same (view_sweep _ _)
  | fadeStart p c => exact fadeStart_moves _ _ _
  | wake p c => exact wakeCue_moves _ _ _
  | tryHead p => exact .same (view_tryHead _ _)
  | goChain p n o => exact .same (view_goChain _ _ _ _)
  | releaseRead p g o => exact .same (view_releaseRead _ _ _ _)
  | releaseSlot p n o => exact releaseSlot_moves _ _ _ _
  | snap p o => exact applySnap_moves _ _ _
  | awaitReset o => exact .refl

/-! ## The Band Unit -/

theorem takeLosses_bands (w : FrameWork) (lost : List (Nat × Nat)) (reason : EndReason) :
    (w.takeLosses lost reason).s.bands = w.s.bands ∧ (w.takeLosses lost reason).resetBands = w.resetBands := by
  unfold FrameWork.takeLosses
  induction lost generalizing w with
  | nil => exact ⟨rfl, rfl⟩
  | cons x lost ih =>
    rw [List.foldl_cons]
    refine ⟨(ih _).1.trans ?_, (ih _).2.trans ?_⟩
    · rw [Bands.loseChannels_eq]; rfl
    · rw [Bands.loseChannels_eq]; rfl

theorem stopped_of_startBandRefusal {b : Band} {c : PortConfig} (h : startBandRefusal b c = none) : ∃ d, b = .stopped d := by
  cases b with
  | stopped d => exact ⟨d, rfl⟩
  | _ => cases h

theorem applyStartBand_moves {w : FrameWork} (hr : w.resetBands = false) (o : Owed) (b q : Nat) :
    Path may w (w.applyStartBand o b q) := by
  unfold FrameWork.applyStartBand
  dsimp only
  split
  case h_1 => exact .same (view_finish _ _ _ _)
  case h_2 => exact .refl
  case h_3 d hrefusal _ =>
    obtain ⟨d', hd⟩ := stopped_of_startBandRefusal hrefusal
    split
    case isTrue => exact .same rfl
    case isFalse ha =>
      let range := bandRange d (w.s.ports.port (w.s.bands.band b).portOf).applied
      let rep := bandBatch w.s.arbiter.channels b q range.1 range.2
      obtain ⟨hbands, hreset⟩ := takeLosses_bands (w.setChannels rep.1) rep.2.lost .lost
      have hstrike : Path may w ((w.setChannels rep.1).takeLosses rep.2.lost .lost) :=
        .one (.strike _ _ .lost (by simpa using ha) fun h => bandBatch_balanced h b q range.1 range.2)
      refine (hstrike.tail (.band b (.running d _) (hreset.trans hr) (fun u hu => ?_) fun _ => nofun)).then
        (view_finish _ _ _ _)
      rw [hbands] at hu
      exact absurd (hd.symm.trans hu) nofun

theorem applyStopBand_moves {w : FrameWork} (hr : w.resetBands = false) (o : Owed) (b : Nat) :
    Path may w (w.applyStopBand o b) := by
  unfold FrameWork.applyStopBand
  split
  case h_1 d run hb =>
    split
    case isTrue => exact .same rfl
    case isFalse ha =>
      have hstop : Path may w (w.setChannels (stopOrder w.s.arbiter.channels b).1) := .one (.stop b (by simpa using ha))
      refine (hstop.tail (.band b (stoppedAt d run w.frame) hr (fun u hu => ?_) fun _ => nofun)).then (view_finish _ _ _ _)
      exact absurd (hb.symm.trans hu) nofun
  case h_2 => exact .same (view_finish _ _ _ _)
  case h_3 => exact .same (view_finish _ _ _ _)

theorem rolledAt_some {b : Band} {f : Nat} {step : Int} {period : Nat} {offset : Option Nat} {x : Band × Nat}
    (h : rolledAt b f step period offset = some x) : (∀ d, b ≠ .loading d) ∧ ∀ d, x.1 ≠ .loading d := by
  cases b with
  | undefined => cases h
  | loading d => cases h
  | running d r => injection h with h; rw [← h]; exact ⟨nofun, nofun⟩
  | stopped d => injection h with h; rw [← h]; exact ⟨nofun, nofun⟩

theorem applySetRoll_moves {w : FrameWork} (hr : w.resetBands = false) (o : Owed) (b : Nat) (st : Int) (n : Nat)
    (offset : Option Nat) : Path may w (w.applySetRoll o b st n offset) := by
  unfold FrameWork.applySetRoll
  split
  case h_1 band o0 hrolled =>
    obtain ⟨hw, hb⟩ := rolledAt_some hrolled
    exact (Path.one (.band b band hr hw hb)).then (view_finish _ _ _ _)
  case h_2 => exact .same (view_finish _ _ _ _)

theorem applyBand_moves {w : FrameWork} (hr : w.resetBands = false) (o : Owed) (r : BandRequest) :
    Path may w (w.applyBand o r) := by
  cases r with
  | start b q => exact applyStartBand_moves hr _ _ _
  | stop b => exact applyStopBand_moves hr _ _
  | setRoll b st p off => exact applySetRoll_moves hr _ _ _ _ _

/-! ## The Frame Clock and Composer, and the Frame Group Unit -/

/-- A request of the composer writes the park list and the master level, and completes. -/
theorem view_applyCompose (w : FrameWork) (o : Owed) (q : ComposeRequest) : ∃ parks master,
    view { w with s := w.s.applyCompose o q } =
      view { w with s := { w.s with clock := { w.s.clock with parks := parks, master := master } } } := by
  cases q with
  | park first count level =>
    exact ⟨(applyPark w.s.clock.parks first count level).1, w.s.clock.master, view_finish { w with s := { w.s with
      clock := { w.s.clock with parks := (applyPark w.s.clock.parks first count level).1 } } } o _ _⟩
  | unpark first count =>
    exact ⟨(applyUnpark w.s.clock.parks first count).1, w.s.clock.master, view_finish { w with s := { w.s with
      clock := { w.s.clock with parks := (applyUnpark w.s.clock.parks first count).1 } } } o _ _⟩
  | setMaster m =>
    exact ⟨w.s.clock.parks, m, view_finish { w with s := { w.s with clock := { w.s.clock with master := m } } } o _ _⟩

theorem takeReleasedCompose_moves (w : FrameWork) (o : Owed) (q : ComposeRequest) :
    Path may w (w.takeReleasedCompose o q) := by
  unfold FrameWork.takeReleasedCompose
  split
  case isTrue => exact .same (view_finish _ _ _ _)
  case isFalse hr =>
    obtain ⟨parks, master, hv⟩ := view_applyCompose w o q
    exact (Path.one (.compose parks master (by simpa using hr))).then hv

theorem doComposerStaged_moves (w : FrameWork) : Path may w w.doComposerStaged := by
  unfold FrameWork.doComposerStaged
  split
  case h_2 => exact .refl
  case h_1 e rest he =>
    unfold FrameWork.applyClock
    split
    case h_1 q hq =>
      obtain ⟨parks, master, hv⟩ := view_applyCompose
        { w with s := { w.s with clock := { w.s.clock with staged := rest } } } e.owed q
      exact (Path.one (.clock e rest parks master w.s.clock.period he (by rw [hq]; nofun))).then hv
    case h_2 n hq =>
      exact (Path.one (.clock e rest w.s.clock.parks w.s.clock.master n he (by rw [hq]; nofun))).then (view_finish _ _ _ _)
    case h_3 hq => exact (Path.one (.reset e rest he)).then (view_finish _ _ _ _)

theorem applyCommit_moves (w : FrameWork) (o : Owed) (g : Nat) : Path may w (w.applyCommit o g) := by
  rw [applyCommit_eq]
  refine (Path.one (.commit (w.s.groups.hold.filter fun h => h.group ≠ g)
    ((Claims.membersOf w g).filterMap releasedPlayback) List.filter_sublist fun x hx => ?_)).then (view_finish _ _ _ _)
  obtain ⟨h, hh, hx⟩ := List.mem_filterMap.1 hx
  refine ⟨h, List.mem_of_mem_filter hh, ?_⟩
  unfold releasedPlayback at hx
  split at hx
  · rename_i r hr
    injection hx with hx
    rw [← hx]; exact hr
  · cases hx

/-! ## The show reset at each block -/

theorem showResetStore_moves {w : FrameWork} (h : w.resetSent = true) : Path may w w.showResetStore := by
  let x : FrameWork := { w with
    s := (sceneRequests w.s.store.loads).foldl (fun acc c => acc.finishNow c .cancelled 0) w.s }
  have hx : Path may w x := .same (view_finishNows id _ w)
  exact hx.tail (.resetStore (w := x) h)

theorem showResetBands_moves {w : FrameWork} (h : w.resetSent = true) : Path may w w.showResetBands := by
  unfold FrameWork.showResetBands
  dsimp only
  have hv := view_cancelOwed w (w.bandWaits.toList ++ (FrameWork.dueEntries w.frame w.s.bands.staged).map Staged.owed ++
    w.bandLoads.map fun c => { ctx := c, dropped := false })
  generalize FrameWork.cancelOwed w _ = x at hv ⊢
  exact ((Path.same hv).tail (.resetBands ((congrArg View.resetSent hv).trans h))).then rfl

theorem showResetGroups_moves {w : FrameWork} (h : w.resetSent = true) : Path may w w.showResetGroups := by
  unfold FrameWork.showResetGroups
  dsimp only
  have hv := (view_cancelOwed { w with s := w.s.cancelHeld w.s.groups.hold }
    ((FrameWork.dueEntries w.frame w.s.groups.commits).map Staged.owed)).trans (view_finishNows HeldRequest.ctx _ w)
  generalize FrameWork.cancelOwed _ _ = x at hv ⊢
  exact ((Path.same hv).tail (.resetGroups ((congrArg View.resetSent hv).trans h))).then rfl

theorem showResetController_moves (w : FrameWork) : Path may w w.showResetController := by
  unfold FrameWork.showResetController
  dsimp only
  have hv := (view_foldl (fun w (x : Nat × ReleaseRecord) => view_finish w x.2.owed .cancelled x.2.moved) w.superseded _).trans
    ((view_foldl view_cancelPlayback (List.range Config.playbacks) _).trans
      ((view_cancelOwed (w.cancelOwed (w.agenda.filterMap FrameWork.ControllerStep.owed))
        ((FrameWork.dueEntries w.frame w.s.controller.staged).map Staged.owed)).trans (view_cancelOwed w _)))
  generalize List.foldl (fun (acc : FrameWork) (x : Nat × ReleaseRecord) => acc.finish x.2.owed .cancelled x.2.moved) _ _ = x
    at hv ⊢
  exact ((Path.same hv).tail (.unstage (FrameWork.otherEntries w.frame x.s.controller.staged)
    List.filter_sublist)).then rfl

/-! ## Every piece of work -/

/-- Each piece of work is a path of moves; what is due is what `may` allows. -/
theorem take_moves {w : FrameWork} (hl : w.Live) (hstaged : ∀ e ∈ w.s.controller.staged, e.frame = w.frame → may e.request)
    (hreleased : ∀ x ∈ w.toController, may x.2) (i : WorkItem) (hi : w.may i) : Path may w (w.take i) := by
  cases i with
  | commit =>
    show Path may w w.doCommit
    unfold FrameWork.doCommit
    split
    · exact Path.after (applyCommit_moves _ _ _) rfl
    · exact .refl
  | composerReleased =>
    show Path may w w.doComposerReleased
    unfold FrameWork.doComposerReleased
    split
    · exact Path.after (takeReleasedCompose_moves _ _ _) rfl
    · exact .refl
  | composerStaged => exact doComposerStaged_moves w
  | portStaged =>
    show Path may w w.doPortStaged
    unfold FrameWork.doPortStaged
    split
    · exact .same (view_finish { w with s := { w.s with ports := _ } } _ _ _)
    · exact .refl
  | slotMustEnd k => exact Path.after (v := { w with mustEnd := w.mustEnd.erase k }) (.one (.ends k)) rfl
  | slotEnd k => exact .one (.ends k)
  | endNotice =>
    show Path may w w.doEndNotice
    unfold FrameWork.doEndNotice
    split
    · exact .same (view_takeNotice _ _)
    · exact .refl
  | loadEndNotice =>
    show Path may w w.doLoadEnd
    unfold FrameWork.doLoadEnd
    split
    · exact .same rfl
    · exact .refl
  | playbackReleased =>
    show Path may w w.doPlaybackReleased
    unfold FrameWork.doPlaybackReleased
    split
    · rename_i o q rest hx
      exact (Path.one (.released _ rest hx)).trans (takeReleased_moves _ _ _ (hreleased (o, q) (by rw [hx]; simp)))
    · exact .refl
  | controllerStep =>
    show Path may w w.doControllerStep
    unfold FrameWork.doControllerStep
    split
    · exact Path.after (controllerStep_moves _ (by exact hstaged) _) rfl
    · split
      · exact Path.after (controllerStep_moves _ (by exact hstaged) _) rfl
      · exact .refl
  | bandReleased =>
    show Path may w w.doBandReleased
    unfold FrameWork.doBandReleased
    split
    · rename_i o q rest _
      refine Path.after (v := { w with toBands := rest }) ?_ rfl
      unfold FrameWork.takeReleasedBand
      split
      · exact .same (view_finish _ _ _ _)
      · exact applyBand_moves (by simp_all) _ _
    · exact .refl
  | bandStaged =>
    show Path may w w.doBandStaged
    unfold FrameWork.doBandStaged
    split
    · rename_i e rest he
      have hr : w.resetBands = false := by
        cases hr : w.resetBands with
        | false => rfl
        | true =>
          have hd := FrameWork.dueCount_takeStaged _ _ _ _ he
          rw [hl.bands hr] at hd
          omega
      exact Path.after
        (applyBand_moves (w := { w with s := { w.s with bands := { w.s.bands with staged := rest } } }) hr _ _) rfl
    · exact .refl
  | resetArbiter => exact .one (.resetArbiter hi.1)
  | resetStore => exact showResetStore_moves hi.1
  | resetEngine => exact .one (.resetEngine hi.1)
  | resetController => exact showResetController_moves w
  | resetBands => exact showResetBands_moves hi.1
  | resetGroups => exact showResetGroups_moves hi.1
  | resetReport => exact .one .resetReport
  | loadAnswer =>
    show Path may w w.doAnswer
    unfold FrameWork.doAnswer
    split
    · rename_i a rest ha
      exact .one (.answer a rest ha)
    · exact .refl
  | intakeArrival =>
    show Path may w w.doArrival
    unfold FrameWork.doArrival
    split
    · rename_i a rest ha
      exact .one (.arrival a rest ha)
    · exact .refl

/-! ## The run -/

/-- What the moves keep, the whole work keeps; and it ends with nothing left. -/
theorem run_keeps {P : FrameWork → Prop} (hP : ∀ w v, Move may w v → P w → P v)
    (hstaged : ∀ w, P w → ∀ e ∈ w.s.controller.staged, e.frame = w.frame → may e.request)
    (hreleased : ∀ w, P w → ∀ x ∈ w.toController, may x.2) {n m : Nat} :
    ∀ (fuel : Nat) (picks : List Nat) (w : FrameWork), w.Sound → w.Live → w.cues ≤ n →
      w.openSlots + w.busySlots ≤ m → w.inHand n + w.toTake n m ≤ fuel → P w →
      ∃ v, FrameWork.run fuel picks w = v ∧ v.Sound ∧ v.Live ∧ v.Finished ∧ P v := by
  intro fuel
  induction fuel with
  | zero =>
    intro picks w h hl hn hm hf hw
    exact ⟨w, rfl, h, hl, FrameWork.run_finished 0 picks w h hl hn hm hf, hw⟩
  | succ fuel ih =>
    intro picks w h hl hn hm hf hw
    cases hp : w.pick (picks.headD 0) with
    | none =>
      have heq : FrameWork.run (fuel + 1) picks w = w := by rw [FrameWork.run, hp]
      have hfin := FrameWork.run_finished (fuel + 1) picks w h hl hn hm hf
      rw [heq] at hfin
      exact ⟨w, heq, h, hl, hfin, hw⟩
    | some i =>
      have heq : FrameWork.run (fuel + 1) picks w = FrameWork.run fuel picks.tail (w.take i) := by
        rw [FrameWork.run, hp]
      have hi : w.may i := (FrameWork.mem_enabled w i).mp (List.mem_of_getElem? hp)
      have hlow := FrameWork.take_lowers h (fun a => (hl.idle a).1) hn hm i hi
      have hless := hlow.less
      rw [heq]
      exact ih picks.tail (w.take i) hlow.sound (FrameWork.take_live h hl i hi) (Nat.le_trans hlow.cues hn)
        (Nat.le_trans hlow.slots hm) (by omega)
        ((take_moves hl (hstaged w hw) (hreleased w hw) i hi).keeps hP hw)

/-- What holds at the beginning and is kept by every move, holds at the end of FRAME_START, where nothing is left. -/
theorem frameStart_keeps {P : FrameWork → Prop} (hP : ∀ w v, Move may w v → P w → P v)
    (hstaged : ∀ w, P w → ∀ e ∈ w.s.controller.staged, e.frame = w.frame → may e.request)
    (hreleased : ∀ w, P w → ∀ x ∈ w.toController, may x.2) {s : State} (hc : Safety.canonical s) (course : FrameCourse)
    (h : P (opening course s)) :
    ∃ w : FrameWork, s.frameStart course = w.s ∧ w.Sound ∧ w.Live ∧ w.Finished ∧ P w := by
  obtain ⟨w, heq, hw⟩ := run_keeps hP hstaged hreleased _ course.picks (opening course s) (beginFrame_sound s _ hc)
    ((beginFrame_live s _).same rfl rfl rfl rfl rfl) (Nat.le_refl _) (Nat.le_refl _) (Nat.le_refl _) h
  exact ⟨w, congrArg FrameWork.s heq, hw⟩

end Sys2Proof.Moves
end

section
/-! PROOFS. A frame start keeps the second and the third law with what keeps them, in every order of its work: until a
SHOW_RESET is applied every move keeps them, and after it every block ends up empty. -/

namespace Sys2Proof.Shows

open Machine Safety Moves Tables

/-! ## What frees or counts a slot leaves (R36, R48) -/

/-- Slots and scenes alone are changed, and an empty store stays empty. -/
def Freed (w v : FrameWork) : Prop :=
  ∃ slots scenes, view v = { view w with tables := { tablesOf w.s with slots := slots, scenes := scenes } } ∧
    (w.s.store.scenes = Table.empty → scenes = Table.empty)

theorem Freed.refl (w : FrameWork) : Freed w w := ⟨w.s.engine.slots, w.s.store.scenes, rfl, id⟩

theorem Freed.trans {w v x : FrameWork} (h : Freed w v) (h' : Freed v x) : Freed w x := by
  obtain ⟨slots, scenes, hv, hempty⟩ := h
  obtain ⟨slots', scenes', hx, hempty'⟩ := h'
  have hscenes : v.s.store.scenes = scenes := by
    show (view v).tables.scenes = scenes
    rw [hv]
  refine ⟨slots', scenes', ?_, fun he => hempty' (hscenes.trans (hempty he))⟩
  rw [hx, show tablesOf v.s = (view v).tables from rfl, hv]

theorem Freed.foldl {β : Type} {f : FrameWork → β → FrameWork} (hf : ∀ w b, Freed w (f w b)) (l : List β) :
    ∀ w, Freed w (l.foldl f w) := by
  induction l with
  | nil => exact .refl
  | cons b l ih => exact fun w => (hf w b).trans (ih (f w b))

theorem freed_setSlot (w : FrameWork) (k : Nat) (v : FadeSlot) : Freed w (w.setSlot k v) :=
  ⟨_, w.s.store.scenes, rfl, id⟩

theorem giveBack_empty {t : SceneStore} (h : t.scenes = Table.empty) (i : Nat) : (t.giveBack i).scenes = Table.empty := by
  have hscene : t.scene i = Scene.none := by unfold SceneStore.scene; rw [h]; rfl
  unfold SceneStore.giveBack
  rw [hscene]
  unfold SceneStore.setScene
  rw [h]
  exact Table.set_self_empty Scene.none i

theorem lend_empty {t : SceneStore} (h : t.scenes = Table.empty) (i : Nat) : (t.lend i).scenes = Table.empty := by
  have hscene : t.scene i = Scene.none := by unfold SceneStore.scene; rw [h]; rfl
  unfold SceneStore.lend
  rw [hscene, if_neg (by decide)]
  exact h

theorem freed_freeSlot (w : FrameWork) (k : Nat) (reason : EndReason) : Freed w (w.freeSlot k reason) := by
  unfold FrameWork.freeSlot
  split
  · exact .refl w
  · rename_i r _
    dsimp only
    cases hkind : r.kind with
    | cue c i => exact ⟨_, (w.s.store.giveBack i).scenes, rfl, fun h => giveBack_empty h i⟩
    | release => exact freed_setSlot w k _

theorem freed_takeLosses (w : FrameWork) (lost : List (Nat × Nat)) (reason : EndReason) :
    Freed w (w.takeLosses lost reason) := by
  refine Freed.foldl (f := fun acc (l : Nat × Nat) => acc.loseChannels l.1 l.2 reason) (fun w l => ?_) lost w
  show Freed w (w.loseChannels l.1 l.2 reason)
  unfold FrameWork.loseChannels
  split
  · exact .refl w
  · split
    · exact freed_freeSlot _ _ _
    · exact freed_setSlot _ _ _

/-- Every slot in use is freed. -/
theorem freed_inUseSlots (w : FrameWork) :
    Freed w (w.s.engine.inUseSlots.foldl (fun acc k => acc.freeSlot k .showReset) w) :=
  .foldl (fun w k => freed_freeSlot w k .showReset) _ w

/-- The losses of the show-reset order are taken. -/
theorem freed_resetReport (w : FrameWork) : Freed { w with resetLosses := [] } w.takeResetReport :=
  freed_takeLosses { w with resetLosses := [] } w.resetLosses .showReset

theorem freed_lendFor (w : FrameWork) (kind : SlotKind) : Freed w (w.lendFor kind) := by
  cases kind with
  | cue c i =>
    refine ⟨w.s.engine.slots, (w.s.store.lend i).scenes, ?_, fun h => lend_empty h i⟩
    show view { w with s := { w.s with store := w.s.store.lend i } } = _
    unfold SceneStore.lend
    split <;> rfl
  | release => exact .refl w

/-! ## What a show reset leaves of each block (R17, R32, R98, R128) -/

/-- What a block has left once it has taken its show-reset notice. -/
structure Cleared (x : View) : Prop where
  sent : x.resetSent = false → x.resetArbiter = false ∧ x.resetStore = false ∧ x.resetBands = false ∧ x.resetGroups = false
  losses : x.resetArbiter = false → x.resetLosses = []
  channelsWf : x.tables.channels.wf Channel.dark = true
  channels : x.resetArbiter = true → ∀ c, (x.tables.channels.get Channel.dark c).holding = .free 0
  store : x.resetStore = true → x.tables.scenes = Table.empty ∧ x.tables.loads = [] ∧ x.freeBlocks = 2048
  bands : x.resetBands = true → x.tables.bands = Table.empty
  groups : x.resetGroups = true → x.hold = []

theorem Cleared.freed {w v : FrameWork} (h : Cleared (view w)) (hv : Freed w v) : Cleared (view v) := by
  obtain ⟨slots, scenes, hv, hempty⟩ := hv
  rw [hv]
  exact { h with store := fun hr => ⟨hempty (h.store hr).1, (h.store hr).2⟩ }

/-- The arbiter may have written its channels, unless it has taken the show-reset order; and slots are freed. -/
def Struck (w v : FrameWork) : Prop :=
  ∃ t, Freed (w.setChannels t) v ∧ (t = w.s.arbiter.channels ∨
    w.resetArbiter = false ∧ (w.s.arbiter.channels.wf Channel.dark = true → t.wf Channel.dark = true))

/-- The arbiter has written nothing. -/
theorem Struck.unwritten {w v : FrameWork} (h : Freed w v) : Struck w v := ⟨w.s.arbiter.channels, h, .inl rfl⟩

theorem Struck.written {w v : FrameWork} {t : Table Channel} (h : Freed (w.setChannels t) v) (ha : ¬w.resetArbiter = true)
    (ht : w.s.arbiter.channels.wf Channel.dark = true → t.wf Channel.dark = true) : Struck w v :=
  ⟨t, h, .inr ⟨by simpa using ha, ht⟩⟩

theorem Struck.sent {w v : FrameWork} (h : Struck w v) : v.resetSent = w.resetSent := by
  obtain ⟨t, ⟨slots, scenes, hv, -⟩, -⟩ := h
  exact congrArg View.resetSent hv

theorem Cleared.struck {w v : FrameWork} (h : Cleared (view w)) (hv : Struck w v) : Cleared (view v) := by
  obtain ⟨t, hfreed, rfl | ⟨ha, ht⟩⟩ := hv
  · exact h.freed hfreed
  · refine Cleared.freed (w := w.setChannels t) ?_ hfreed
    exact { h with channelsWf := ht h.channelsWf, channels := fun hr => absurd (ha.symm.trans hr) (by decide) }

theorem struck_requestSlot (w : FrameWork) (q : FrameWork.SlotRequest) : Struck w (w.requestSlot q).1 := by
  unfold FrameWork.requestSlot
  split
  case isTrue => exact .unwritten (.refl w)
  case isFalse =>
    split
    case h_1 => exact .unwritten (.refl w)
    case h_2 k _ =>
      split
      case isTrue => exact .unwritten (freed_setSlot w k _)
      case isFalse ha =>
        refine .written (t := (FrameWork.batchOf w.s.arbiter.channels q k).1) ?_ ha fun h =>
          (FrameWork.batchOf_kept _ q k h).1
        dsimp only
        split
        case isTrue => exact freed_setSlot _ k _
        case isFalse =>
          have hstarted := (freed_setSlot (w.setChannels (FrameWork.batchOf w.s.arbiter.channels q k).1) k
            (.inUse (FrameWork.allocated q w.frame (FrameWork.batchOf w.s.arbiter.channels q k).2.granted))).trans
              ((freed_lendFor _ q.kind).trans (freed_takeLosses _ (FrameWork.batchOf w.s.arbiter.channels q k).2.lost
                (FrameWork.takeoverReason q.kind)))
          split <;> exact hstarted

theorem struck_endSlot (w : FrameWork) (k : Nat) : Struck w (w.endSlot k) := by
  unfold FrameWork.endSlot
  split
  case h_1 => exact .unwritten (.refl w)
  case h_2 r _ =>
    split
    case isTrue => exact .unwritten (.refl w)
    case isFalse ha =>
      refine .written (freed_freeSlot _ k .ended) ha fun h => ?_
      cases r.kind with
      | cue c i => exact (settleOrder_kept _ k h).1
      | release => exact (releaseEndOrder_kept _ k h).1

theorem struck_strike {w : FrameWork} (t : Table Channel) (rep : ArbiterReport) (reason : EndReason)
    (ha : w.resetArbiter = false)
    (hb : w.s.arbiter.channels.wf Channel.dark = true → ∃ f, Balanced w.s.arbiter.channels t rep none f) :
    Struck w ((w.setChannels t).takeLosses rep.lost reason) :=
  .written (freed_takeLosses _ _ _) (by rw [ha]; decide) fun h => by
    obtain ⟨f, hf⟩ := hb h
    exact hf.wf

/-- What fills no band writes no band. -/
theorem loadAnswer_bands {s : State} (h : s.store.loads.head?.any Load.fillsBand = false) (f : Nat) (a : LoadAnswer) :
    (s.loadAnswer f a).bands = s.bands := by
  have hscene : ∀ {l : Load} {n : Nat}, s.store.loads.head? = some l → l.target ≠ .band n := by
    intro l n hl ht
    rw [hl, Option.any_some, Load.fillsBand, ht] at h
    cases h
  cases a with
  | error =>
    show (s.loadError f).bands = s.bands
    unfold State.loadError
    split
    · rfl
    · rename_i l hl
      split
      · rfl
      · rename_i n ht; exact absurd ht (hscene hl)
  | item item =>
    show (s.loadItem f item).bands = s.bands
    unfold State.loadItem
    split
    · rfl
    · rename_i l hl
      split
      · unfold State.takeSceneItem
        dsimp only
        split
        · rfl
        · split <;> rfl
      · rename_i n ht; exact absurd ht (hscene (Option.filter_eq_some_iff.1 hl).1)

theorem cleared_takeAnswer {w : FrameWork} (h : Cleared (view w)) (a : LoadAnswer) : Cleared (view (w.takeAnswer a)) := by
  by_cases hd : w.dataCancelled = true
  · have heq : w.takeAnswer a = w := if_pos hd
    rw [heq]; exact h
  · have heq : (w.takeAnswer a).s.bands.records = (w.s.loadAnswer w.frame a).bands.records := by
      unfold FrameWork.takeAnswer; rw [if_neg hd]
    simp only [FrameWork.dataCancelled, Bool.or_eq_true, Bool.and_eq_true, not_or, not_and, Bool.not_eq_true] at hd
    obtain ⟨hstore, hband⟩ := hd
    obtain ⟨u, st, records, l, hv, -⟩ := w.takeAnswer_is a
    rw [hv] at heq ⊢
    exact { h with
      store := fun hr => absurd (hstore.symm.trans hr) (by decide)
      bands := fun hr => by
        show records = Table.empty
        rw [show records = _ from heq, loadAnswer_bands (hband hr)]
        exact h.bands hr }

theorem cleared_takeArrival {w : FrameWork} (h : Cleared (view w)) (a : IntakeArrival) :
    Cleared (view (w.takeArrival a)) := by
  cases hs : w.resetSent with
  | true =>
    have heq : w.takeArrival a = w := if_pos hs
    rw [heq]; exact h
  | false =>
    obtain ⟨u, l, hv, -⟩ := w.takeArrival_is a
    rw [hv]
    exact { h with groups := fun hr => absurd ((h.sent hs).2.2.2.symm.trans hr) (by decide) }

theorem showResetOrder_free {t : Table Channel} (h : t.wf Channel.dark = true) (c : Nat) :
    ((showResetOrder t).1.get Channel.dark c).holding = .free 0 := by
  have hget := Table.get_mapCells Channel.dark (fun _ (ch : Channel) =>
    if decide (ch.holding ≠ .free 0) = true then { ch with holding := .free 0 } else ch) t c rfl h
  refine (congrArg Channel.holding hget).trans ?_
  split
  case isTrue => rfl
  case isFalse hf => simpa using hf

/-- Every move keeps what the show reset has cleared. -/
theorem cleared_move {may : PlaybackRequest → Prop} {w v : FrameWork} (hm : Move may w v) (h : Cleared (view w)) :
    Cleared (view v) := by
  cases hm with
  | aside hv => rw [hv]; exact h
  | strike t rep reason ha hb => exact h.struck (struck_strike t rep reason ha hb)
  | request q => exact h.struck (struck_requestSlot w q)
  | ends k => exact h.struck (struck_endSlot w k)
  | band n b hr => exact { h with bands := fun hr' => absurd (hr.symm.trans hr') (by decide) }
  | stop b ha => exact h.struck (.written (.refl _) (by rw [ha]; decide) fun hwf => (stopOrder_kept _ b hwf).1)
  | pause | resume | unstage | released | compose | clock => exact { h with }
  | answer a rest => exact cleared_takeAnswer (w := { w with answers := rest }) { h with } a
  | arrival a rest => exact cleared_takeArrival (w := { w with intake := rest }) { h with } a
  | commit hold l hs =>
    exact { h with groups := fun hr => List.sublist_nil.1 (h.groups hr ▸ hs) }
  | reset => exact { h with sent := nofun }
  | resetArbiter hs =>
    exact { h with
      sent := fun hf => absurd (hs.symm.trans hf) (by decide), losses := nofun
      channelsWf := (showResetOrder_kept _ h.channelsWf).1
      channels := fun _ => showResetOrder_free h.channelsWf }
  | resetStore hs => exact { h with sent := fun hf => absurd (hs.symm.trans hf) (by decide), store := fun _ => ⟨rfl, rfl, rfl⟩ }
  | resetEngine hs => exact { h.freed (freed_inUseSlots w) with }
  | resetBands hs => exact { h with sent := fun hf => absurd (hs.symm.trans hf) (by decide), bands := fun _ => rfl }
  | resetGroups hs => exact { h with sent := fun hf => absurd (hs.symm.trans hf) (by decide), groups := fun _ => rfl }
  | resetReport =>
    have hnone : Cleared (view { w with resetLosses := [] }) := { h with losses := fun _ => rfl }
    exact hnone.freed (freed_resetReport w)

theorem cleared_opening {s : State} (h : s.arbiter.channels.wf Channel.dark = true) (course : FrameCourse) :
    Cleared (view (Playbacks.opening course s)) :=
  { sent := fun _ => ⟨rfl, rfl, rfl, rfl⟩, losses := fun _ => rfl, channelsWf := h, channels := nofun, store := nofun,
    bands := nofun, groups := nofun }

end Sys2Proof.Shows
end

section
/-! PROOFS. Until a SHOW_RESET is applied every move of a frame start keeps the second and the third law. -/

namespace Sys2Proof.Shows

open Machine Safety Moves Tables

/-! ## Channels moved -/

/-- The channels are written; what a slot no longer drives it owes. -/
theorem Tables.Laws.moved {x : Tables} {d d' : Nat → Nat} (h : x.Laws d) {t : Table Channel}
    (hwf : t.wf Channel.dark = true) (hsum : ∀ j r, x.slot j = .inUse r → driven t j + d' j = driven x.channels j + d j)
    (hfree : ∀ j a, x.slot j = .free a → driven t j = 0) : ({ x with channels := t } : Tables).Laws d' :=
  { h with
    channelsWf := hwf
    inUse := fun k r hk => by
      obtain ⟨hcount, hpos⟩ := h.inUse k r hk
      exact ⟨hcount.trans (hsum k r hk).symm, hpos⟩
    free := hfree
    queue := h.queue.congr rfl rfl (fun _ => Iff.rfl) fun _ _ => id }

/-- A batch or an order that gives no channel to a slot: what the slots have lost they owe. -/
theorem Tables.Laws.struck {x : Tables} (h : x.Laws noDebt) {t : Table Channel} {rep : ArbiterReport} {f : Nat → Nat}
    (hb : Balanced x.channels t rep none f) : ({ x with channels := t } : Tables).Laws f :=
  h.moved hb.wf (fun j _ _ => hb.sum j) fun j a hj => by
    have hsum := hb.sum j
    rw [h.free j a hj, if_neg nofun] at hsum
    omega

/-- An order that takes the channels of slot `k` alone: that slot owes them all. -/
theorem Tables.Laws.ended {x : Tables} (h : x.Laws noDebt) {t : Table Channel} (hwf : t.wf Channel.dark = true) {k : Nat}
    (ht : ∀ j, driven t j = if j = k then 0 else driven x.channels j) :
    ({ x with channels := t } : Tables).Laws (fun j => if j = k then driven x.channels k else 0) := by
  refine h.moved hwf (fun j _ _ => ?_) fun j a hj => ?_
  · rw [ht]
    split
    case isTrue hjk => rw [hjk]; exact Nat.zero_add _
    case isFalse => rfl
  · rw [ht, h.free j a hj, ite_self]

/-! ## Slots paused and resumed (R40, R41) -/

theorem servesScene_congr (i : Nat) {r r' : FadeRun} (h : r'.kind = r.kind) :
    servesScene i (.inUse r') = servesScene i (.inUse r) := by
  unfold servesScene
  dsimp only
  rw [h]

/-- Runs are rewritten, each with its kind and its count. -/
theorem Tables.Laws.rerun {x : Tables} {d : Nat → Nat} (h : x.Laws d) (g : FadeRun → FadeRun)
    (hg : ∀ r, (g r).count = r.count ∧ (g r).kind = r.kind) (p : Nat) :
    ({ x with slots := (TransitionEngine.mapPlayback { slots := x.slots } p g).slots } : Tables).Laws d := by
  have hrun (r : FadeRun) : (if r.playback = p then g r else r).count = r.count ∧
      (if r.playback = p then g r else r).kind = r.kind := by
    split
    · exact hg r
    · exact ⟨rfl, rfl⟩
  have hslot (k : Nat) : (TransitionEngine.mapPlayback { slots := x.slots } p g).slots.get FadeSlot.atReset k = _ :=
    Table.get_mapCells FadeSlot.atReset _ x.slots k rfl h.slotsWf
  refine { h with
    slotsWf := Table.mapCells_wf _ _ _ h.slotsWf
    inUse := fun k r hk => ?_, free := fun k a hk => ?_, third := fun i => ?_
    queue := h.queue.congr rfl rfl (fun _ => Iff.rfl) fun _ _ => id }
  · have hk := (hslot k).symm.trans hk
    cases hx : x.slots.get FadeSlot.atReset k with
    | free a => rw [hx] at hk; cases hk
    | inUse r' =>
      rw [hx] at hk
      injection hk with hk
      rw [← hk, (hrun r').1]
      exact h.inUse k r' hx
  · have hk := (hslot k).symm.trans hk
    cases hx : x.slots.get FadeSlot.atReset k with
    | free b => exact h.free k b hx
    | inUse r' => rw [hx] at hk; cases hk
  · have hserving : serving (TransitionEngine.mapPlayback { slots := x.slots } p g).slots i = serving x.slots i := by
      refine Table.total_mapCells (fun v : FadeSlot => if servesScene i v = true then 1 else 0) FadeSlot.atReset _ x.slots
        rfl fun k v => ?_
      cases v with
      | free a => rfl
      | inUse r => exact congrArg (fun b : Bool => if b = true then 1 else 0) (servesScene_congr i (hrun r).2)
    exact ⟨(h.third i).1.trans hserving.symm, (h.third i).2⟩

/-! ## Slot requests (R23, R45, R46) -/

/-- A FREE slot is written FREE. -/
theorem Tables.Laws.stayedFree {x : Tables} {d : Nat → Nat} (h : x.Laws d) {k a : Nat} (hk : x.slot k = .free a) (b : Nat) :
    (x.setSlot k (.free b)).Laws d := by
  refine { h with
    slotsWf := Table.set_wf _ _ _ _ h.slotsWf
    inUse := fun j r hj => ?_, free := fun j c hj => ?_, third := fun i => ?_
    queue := h.queue.congr rfl rfl (fun _ => Iff.rfl) fun _ _ => id }
  · rw [slot_setSlot] at hj
    split at hj
    · cases hj
    · exact h.inUse j r hj
  · rw [slot_setSlot] at hj
    split at hj
    case isTrue he => exact he ▸ h.free k a hk
    case isFalse => exact h.free j c hj
  · have hset := serving_set h.slotsWf k (.free b) i
    rw [show x.slots.get FadeSlot.atReset k = .free a from hk] at hset
    exact ⟨(h.third i).1.trans hset.symm, (h.third i).2⟩

/-- The slot that a batch gives channels to, before its scene is lent. -/
theorem Tables.Laws.started {x : Tables} (h : x.Laws noDebt) {t : Table Channel} {rep : ArbiterReport} {f : Nat → Nat}
    {k a : Nat} (hk : x.slot k = .free a) (hb : Balanced x.channels t rep (some k) f) (hg : rep.granted ≠ 0) {r : FadeRun}
    (hr : r.count = rep.granted) :
    (∀ j r', (({ x with channels := t } : Tables).setSlot k (.inUse r)).slot j = .inUse r' →
      r'.count = driven t j + f j ∧ 1 ≤ r'.count) ∧
    ∀ j b, (({ x with channels := t } : Tables).setSlot k (.inUse r)).slot j = .free b → driven t j = 0 := by
  have hslot (j : Nat) : (({ x with channels := t } : Tables).setSlot k (.inUse r)).slot j =
      if j = k then .inUse r else x.slot j := slot_setSlot { x with channels := t } k _ j
  refine ⟨fun j r' hj => ?_, fun j b hj => ?_⟩ <;> rw [hslot] at hj <;> split at hj <;> have hsum := hb.sum j
  case refine_1.isTrue he =>
    injection hj with hj
    rw [he, h.free k a hk, if_pos rfl] at hsum
    rw [← hj, hr, he]
    omega
  case refine_1.isFalse hne =>
    rw [if_neg fun he => hne (Option.some.inj he).symm] at hsum
    obtain ⟨hcount, hpos⟩ := h.inUse j r' hj
    exact ⟨hcount.trans hsum.symm, hpos⟩
  case refine_2.isTrue => cases hj
  case refine_2.isFalse hne =>
    rw [if_neg fun he => hne (Option.some.inj he).symm, h.free j b hj] at hsum
    omega

/-- The CUE slots of a scene after a free slot is put to use. -/
theorem serving_started {x : Tables} (h : x.slots.wf FadeSlot.atReset = true) {k a : Nat} (hk : x.slot k = .free a)
    (r : FadeRun) (i : Nat) : serving (x.slots.set FadeSlot.atReset k (.inUse r)) i =
      serving x.slots i + if servesScene i (.inUse r) = true then 1 else 0 := by
  have hset := serving_set h k (.inUse r) i
  rw [show x.slots.get FadeSlot.atReset k = .free a from hk] at hset
  exact hset

/-- A RELEASE slot starts. -/
theorem Tables.Laws.started_release {x : Tables} (h : x.Laws noDebt) {t : Table Channel} {rep : ArbiterReport}
    {f : Nat → Nat} {k a : Nat} (hk : x.slot k = .free a) (hb : Balanced x.channels t rep (some k) f)
    (hg : rep.granted ≠ 0) {r : FadeRun} (hr : r.count = rep.granted) (hkind : r.kind = .release) :
    (({ x with channels := t } : Tables).setSlot k (.inUse r)).Laws f := by
  obtain ⟨hinUse, hfree⟩ := h.started hk hb hg hr
  refine { h with
    channelsWf := hb.wf, slotsWf := Table.set_wf _ _ _ _ h.slotsWf, inUse := hinUse, free := hfree
    third := fun i => ?_
    queue := h.queue.congr rfl rfl (fun _ => Iff.rfl) fun _ _ => id }
  have hno : ¬servesScene i (.inUse r) = true := by rw [serves_iff r hkind]; nofun
  have hset := serving_started h.slotsWf hk r i
  rw [if_neg hno] at hset
  exact ⟨(h.third i).1.trans hset.symm, (h.third i).2⟩

/-- A CUE slot starts, and its scene, which is READY, is lent (R23). -/
theorem Tables.Laws.started_cue {x : Tables} (h : x.Laws noDebt) {t : Table Channel} {rep : ArbiterReport}
    {f : Nat → Nat} {k a : Nat} (hk : x.slot k = .free a) (hb : Balanced x.channels t rep (some k) f)
    (hg : rep.granted ≠ 0) {r : FadeRun} (hr : r.count = rep.granted) {c i : Nat} (hkind : r.kind = .cue c i)
    (hready : (x.scene i).state = .ready) :
    ((({ x with channels := t } : Tables).setSlot k (.inUse r)).setScene i
      { x.scene i with useCount := (x.scene i).useCount + 1 }).Laws f := by
  obtain ⟨hinUse, hfree⟩ := h.started hk hb hg hr
  have hscene (j : Nat) : ((({ x with channels := t } : Tables).setSlot k (.inUse r)).setScene i
      { x.scene i with useCount := (x.scene i).useCount + 1 }).scene j =
        if j = i then { x.scene i with useCount := (x.scene i).useCount + 1 } else x.scene j := scene_setScene _ i _ j
  refine { h with
    channelsWf := hb.wf, slotsWf := Table.set_wf _ _ _ _ h.slotsWf, scenesWf := Table.set_wf _ _ _ _ h.scenesWf
    inUse := hinUse, free := hfree, third := fun j => ?_, contents := fun j => ?_
    queue := (h.queue.useCount i _).congr rfl rfl (fun _ => Iff.rfl) fun _ _ => id }
  · have hset := serving_started h.slotsWf hk r j
    obtain ⟨hcount, hstate⟩ := h.third j
    rw [hscene]
    split
    case isTrue hj =>
      subst hj
      rw [if_pos ((serves_iff r hkind).2 ⟨c, rfl⟩)] at hset
      exact ⟨(congrArg (· + 1) hcount).trans hset.symm, fun _ => hready⟩
    case isFalse hj =>
      have hno : ¬servesScene j (.inUse r) = true := by
        rw [serves_iff r hkind]
        rintro ⟨c', he⟩
        injection he with _ he
        exact hj he.symm
      rw [if_neg hno] at hset
      exact ⟨hcount.trans hset.symm, hstate⟩
  · rw [hscene]
    split
    case isTrue =>
      obtain ⟨h1, h2, h3, -, h5⟩ := h.contents i
      exact ⟨h1, h2, h3, fun he => absurd (hready.symm.trans he) (by decide), h5⟩
    case isFalse => exact h.contents j

theorem batchOf_balanced {t : Table Channel} (h : t.wf Channel.dark = true) (q : FrameWork.SlotRequest) (k : Nat) :
    ∃ f, Balanced t (FrameWork.batchOf t q k).1 (FrameWork.batchOf t q k).2 (some k) f := by
  unfold FrameWork.batchOf
  split
  · exact fadeBatch_balanced h _ _ _ _
  · exact releaseBatch_balanced h _ _

/-- The slot that a request is given is FREE (R45). -/
theorem free_of_lowestFree {e : TransitionEngine} {f k : Nat} (h : e.lowestFree f = some k) :
    ∃ a, e.slot k = .free a ∧ a ≤ f := by
  have hmay := List.find?_some h
  unfold TransitionEngine.mayAllocate at hmay
  split at hmay
  case h_1 a ha => exact ⟨a, ha, by simpa using hmay⟩
  case h_2 => cases hmay

/-- The lend of a scene that is READY. -/
theorem tablesOf_lendFor {w : FrameWork} (c : Nat) {i : Nat} (h : (w.s.store.scene i).state = .ready) :
    tablesOf (w.lendFor (.cue c i)).s = (tablesOf w.s).setScene i
      { (tablesOf w.s).scene i with useCount := ((tablesOf w.s).scene i).useCount + 1 } := by
  show tablesOf { w.s with store := w.s.store.lend i } = _
  unfold SceneStore.lend
  rw [if_pos h]
  rfl

theorem requestSlot_owing {w : FrameWork} (h : Owing w noDebt) (ha : w.resetArbiter = false) (q : FrameWork.SlotRequest)
    (hq : ∀ c i, q.kind = .cue c i → (w.s.store.scene i).state = .ready) : Owing (w.requestSlot q).1 noDebt := by
  unfold FrameWork.requestSlot
  split
  case isTrue => exact h
  case isFalse =>
    split
    case h_1 => exact h
    case h_2 k hk =>
      obtain ⟨a, hfree, -⟩ := free_of_lowestFree hk
      obtain ⟨f, hb⟩ := batchOf_balanced (t := w.s.arbiter.channels) h.channelsWf q k
      rw [if_neg (by rw [ha]; decide)]
      dsimp only
      split
      case isTrue hg =>
        have hzero (j : Nat) : f j = 0 := Nat.le_zero.1 (hg ▸ hb.le j)
        have hmoved : ({ tablesOf w.s with channels := (FrameWork.batchOf w.s.arbiter.channels q k).1 } : Tables).Laws
            noDebt := by
          refine h.moved hb.wf (fun j _ _ => ?_) fun j b hj => ?_ <;>
            have hsum := hb.sum j <;> rw [hzero, hg, ite_self] at hsum
          · exact hsum
          · exact hsum.trans (h.free j b hj)
        exact hmoved.stayedFree (k := k) hfree (w.frame + 1)
      case isFalse hg =>
        let w1 := (w.setChannels (FrameWork.batchOf w.s.arbiter.channels q k).1).setSlot k
          (.inUse (FrameWork.allocated q w.frame (FrameWork.batchOf w.s.arbiter.channels q k).2.granted))
        have hstarted : Owing (w1.lendFor q.kind) f := by
          cases hkind : q.kind with
          | release => exact h.started_release hfree hb hg rfl hkind
          | cue c i =>
            have hready := hq c i hkind
            show (tablesOf (w1.lendFor (.cue c i)).s).Laws f
            rw [tablesOf_lendFor (w := w1) c hready]
            exact h.started_cue hfree hb hg rfl hkind hready
        have hlost := takeLosses_reported hstarted hb.lost (FrameWork.takeoverReason q.kind)
        split <;> exact hlost

/-! ## The end of a slot (R47) -/

theorem endSlot_owing {w : FrameWork} (h : Owing w noDebt) (ha : w.resetArbiter = false) (k : Nat) :
    Owing (w.endSlot k) noDebt := by
  unfold FrameWork.endSlot
  split
  case h_1 => exact h
  case h_2 r _ =>
    rw [if_neg (by rw [ha]; decide)]
    have key : ∀ t : Table Channel, t.wf Channel.dark = true →
        (∀ j, driven t j = if j = k then 0 else driven w.s.arbiter.channels j) →
        Owing ((w.setChannels t).freeSlot k .ended) noDebt := fun t hwf ht =>
      freeSlot_owing (w := w.setChannels t) (h.ended hwf ht) ((ht k).trans (if_pos rfl)) (fun j hj => (if_neg hj).symm) _
    cases r.kind with
    | cue c i => exact key _ (settleOrder_kept _ k h.channelsWf).1 fun j => driven_settleOrder _ k j
    | release => exact key _ (releaseEndOrder_kept _ k h.channelsWf).1 fun j => driven_releaseEndOrder _ k j

/-! ## Every move -/

theorem pauseOrder_owing {w : FrameWork} {d : Nat → Nat} (h : Owing w d) (p f : Nat) :
    Owing { w with s := { w.s with engine := w.s.engine.pauseOrder p f } } d :=
  h.rerun (fun r => if r.pausedAt = none then { r with pausedAt := some f } else r)
    (fun r => by by_cases hr : r.pausedAt = none <;> simp [hr]) p

theorem resumeOrder_owing {w : FrameWork} {d : Nat → Nat} (h : Owing w d) (p f : Nat) :
    Owing { w with s := { w.s with engine := w.s.engine.resumeOrder p f } } d :=
  h.rerun _ (fun r => by cases hr : r.pausedAt <;> simp) p

theorem setBand_owing {w : FrameWork} {d : Nat → Nat} (h : Owing w d) {n : Nat} {b : Band}
    (hw : ∀ u, w.s.bands.band n ≠ .loading u) (hb : ∀ u, b ≠ .loading u) :
    Owing { w with s := { w.s with bands := w.s.bands.setBand n b } } d := by
  have hidle : ¬(tablesOf w.s).Loading (.band n) := fun ⟨u, hu⟩ => hw u hu
  have hother : ∀ m ∈ w.s.store.loads, m.target ≠ .band n := fun m hm he => hidle ((h.queue.loading _).2 ⟨m, hm, he⟩)
  refine h.banded n b _ _ (h.queue.congr rfl rfl (fun t => ?_) fun m hm => holds_setBand _ n _ (hother m hm) _ _)
  by_cases ht : t = .band n
  · subst ht
    refine iff_of_false (fun ⟨u, hu⟩ => hb u ?_) hidle
    have hself := band_setBand (tablesOf w.s) n b n
    rw [if_pos rfl] at hself
    exact hself.symm.trans hu
  · exact loading_setBand _ n _ ht _ _

/-- Until a SHOW_RESET is applied, every move keeps the laws. -/
theorem owing_move {may : PlaybackRequest → Prop} {w v : FrameWork} (hm : Move may w v) (hc : Cleared (view w))
    (h : w.resetSent = false → Owing w noDebt) : v.resetSent = false → Owing v noDebt := by
  have harb : w.resetSent = false → w.resetArbiter = false := fun hs => (hc.sent hs).1
  cases hm with
  | aside hv =>
    intro hs
    show (tablesOf v.s).Laws noDebt
    rw [show tablesOf v.s = tablesOf w.s from congrArg View.tables hv]
    exact h ((congrArg View.resetSent hv).symm.trans hs)
  | strike t rep reason ha hb =>
    intro hs
    have hw := h ((struck_strike t rep reason ha hb).sent.symm.trans hs)
    obtain ⟨f, hf⟩ := hb hw.channelsWf
    exact takeLosses_reported (w := w.setChannels t) (hw.struck hf) hf.lost reason
  | request q hq =>
    intro hs
    have hs := (struck_requestSlot w q).sent.symm.trans hs
    exact requestSlot_owing (h hs) (harb hs) q hq
  | ends k =>
    intro hs
    have hs := (struck_endSlot w k).sent.symm.trans hs
    exact endSlot_owing (h hs) (harb hs) k
  | band n b hr hw hb => exact fun hs => setBand_owing (h hs) hw hb
  | stop b ha =>
    intro hs
    have hw := h hs
    exact hw.moved (stopOrder_kept _ b hw.channelsWf).1
      (fun j _ _ => congrArg (· + noDebt j) (driven_stopOrder w.s.arbiter.channels b j)) fun j a hj => (driven_stopOrder _ _ _).trans (hw.free j a hj)
  | pause p => exact fun hs => pauseOrder_owing (h hs) p _
  | resume p => exact fun hs => resumeOrder_owing (h hs) p _
  | unstage | released | compose | clock | commit => exact h
  | answer a rest =>
    intro hs
    obtain ⟨u, st, records, l, hv, -⟩ := FrameWork.takeAnswer_is { w with answers := rest } a
    have hw := h (by rw [hv] at hs; exact hs)
    unfold FrameWork.takeAnswer
    split
    · exact hw
    · exact loadAnswer_laws hw _ a
  | arrival a rest =>
    obtain ⟨u, l, hv, -⟩ := FrameWork.takeArrival_is { w with intake := rest } a
    rw [hv]
    exact h
  | reset => nofun
  | resetArbiter hs | resetStore hs | resetBands hs | resetGroups hs => exact fun hf => absurd (hs.symm.trans hf) (by decide)
  | resetEngine hs =>
    exact fun hf => absurd (hs.symm.trans ((Struck.unwritten (freed_inUseSlots w)).sent.symm.trans hf)) (by decide)
  | resetReport =>
    intro hs
    have hs := (Struck.unwritten (freed_resetReport w)).sent.symm.trans hs
    have hnone : w.resetLosses = [] := hc.losses (harb hs)
    unfold FrameWork.takeResetReport
    rw [hnone]
    exact h hs

/-! ## FRAME_START -/

/-- A Transition Engine that has taken its show-reset notice has no slot in use. -/
theorem slots_free_of_idle {w : FrameWork} (hs : w.Sound) (h : w.busySlots = 0) (k : Nat) :
    ∃ a, w.s.engine.slot k = .free a := by
  cases hk : w.s.engine.slot k with
  | free a => exact ⟨a, rfl⟩
  | inUse r =>
    have hle := Table.get_le_total FrameWork.busyOf FadeSlot.atReset w.s.engine.slots k hs.1 rfl
    rw [show w.s.engine.slots.get FadeSlot.atReset k = .inUse r from hk,
      show w.s.engine.slots.total FrameWork.busyOf = 0 from h] at hle
    exact absurd hle (Nat.not_succ_le_zero 0)

/-- Where nothing is left of a frame start, the laws hold: as they were kept, or because the show is empty. -/
theorem laws_of_finished {w : FrameWork} (hs : w.Sound) (hl : w.Live) (hf : w.Finished) (hc : Cleared (view w))
    (h : w.resetSent = false → Owing w noDebt) : (tablesOf w.s).Laws noDebt := by
  cases hr : w.resetSent with
  | false => exact h hr
  | true =>
    obtain ⟨ha, hst, he, -, hb, -⟩ := hf.reset hr
    obtain ⟨hscenes, hloads, -⟩ := hc.store hst
    refine laws_cleared hc.channelsWf hs.1 (fun k => ?_) (slots_free_of_idle hs (hl.idle he).1) hscenes (hc.bands hb) hloads
    by_contra hne
    obtain ⟨c, hslot⟩ := (driven_pos_iff hc.channelsWf k).1 (Nat.pos_of_ne_zero hne)
    rw [hc.channels ha c] at hslot
    cases hslot

theorem frameStart_laws {s : State} (hcanon : canonical s) (h : (tablesOf s).Laws noDebt) (course : FrameCourse) :
    (tablesOf (s.frameStart course)).Laws noDebt := by
  obtain ⟨w, heq, hs, hl, hf, hc, hlaws⟩ := frameStart_keeps (may := fun _ => True)
    (P := fun w => Cleared (view w) ∧ (w.resetSent = false → Owing w noDebt))
    (fun w v hm ⟨hc, hw⟩ => ⟨cleared_move hm hc, owing_move hm hc hw⟩) (fun _ _ _ _ _ => trivial) (fun _ _ _ _ => trivial)
    hcanon course ⟨cleared_opening h.channelsWf course, fun _ => h⟩
  rw [heq]
  exact laws_of_finished hs hl hf hc hlaws

/-! ## Every step -/

theorem tidy_of_canonical {s : State} (h : canonical s) : tidy s := by
  obtain ⟨hchannels, hscenes, hslots, -, hbands, -⟩ := h
  exact ⟨hchannels, hslots, hscenes, hbands⟩

/-- Settles O60: every edit of a command keeps the laws of the tables, and so does every move of a frame start. -/
theorem stepKeepsTheShowLaws : Obligations.StepKeepsTheShowLaws := by
  intro s t hcanon hlaws hstep
  have hs : (tablesOf s).Laws noDebt := (laws_iff s).2 ⟨tidy_of_canonical hcanon, hlaws⟩
  exact ((laws_iff t).1 (Invariants.step_keeps (r := False) (P := fun s => (tablesOf s).Laws noDebt) hs hstep (fun _ => hs)
    (fun hr => hr.elim) (fun a b => laws_edit) (fun _ => coldReset_laws _)
    fun l course => frameStart_laws (s := s.withPending l) hcanon hs course)).2

end Sys2Proof.Shows
end

section
/-! PROOFS. What the moves of a frame start do to one fade slot, said once for every property of a slot. -/

namespace Sys2Proof.Moves

open Machine

/-- A property of the slots that survives whatever frame start `f` may do to a slot: it is freed, it is put to use, it
counts a loss, it is paused or resumed. -/
structure Stable (may : PlaybackRequest → Prop) (f : Nat) (Q : Nat → FadeSlot → Prop) : Prop where
  free : ∀ k, Q k (.free (f + 1))
  start : ∀ k a r, a ≤ f → Q k (.free a) → Q k (.inUse r)
  count : ∀ k r n, Q k (.inUse r) → Q k (.inUse { r with count := n })
  pause : ∀ k r, may (.pause r.playback) → r.pausedAt = none → Q k (.inUse r) → Q k (.inUse { r with pausedAt := some f })
  resume : ∀ k r p, r.pausedAt = some p → Q k (.inUse r) →
    Q k (.inUse { r with accumulatedPause := r.accumulatedPause + (f - p), pausedAt := none })

/-- The slots have the property at frame start `f`. -/
structure Slotted (f : Nat) (Q : Nat → FadeSlot → Prop) (w : FrameWork) : Prop where
  frame : w.frame = f
  wf : w.s.engine.slots.wf FadeSlot.atReset = true
  slot : ∀ k, Q k (w.s.engine.slot k)

variable {may : PlaybackRequest → Prop} {f : Nat} {Q : Nat → FadeSlot → Prop} {w v : FrameWork}

/-- The property reads the frame number and the slots. -/
theorem Slotted.congr (h : Slotted f Q w) (hf : v.frame = w.frame) (he : v.s.engine = w.s.engine) : Slotted f Q v :=
  ⟨hf.trans h.frame, he ▸ h.wf, fun k => he ▸ h.slot k⟩

theorem Slotted.setSlot (h : Slotted f Q w) {k : Nat} {x : FadeSlot} (hx : Q k x) : Slotted f Q (w.setSlot k x) := by
  refine ⟨h.frame, Table.set_wf _ _ _ _ h.wf, fun j => ?_⟩
  show Q j ((w.s.engine.setSlot k x).slot j)
  rw [TransitionEngine.slot_setSlot]
  split
  case isTrue hj => exact hj ▸ hx
  case isFalse => exact h.slot j

theorem Slotted.freeSlot (hQ : Stable may f Q) (h : Slotted f Q w) (k : Nat) (reason : EndReason) :
    Slotted f Q (w.freeSlot k reason) := by
  cases hk : w.s.engine.slot k with
  | free a =>
    have heq : w.freeSlot k reason = w := by unfold FrameWork.freeSlot; rw [hk]
    rw [heq]; exact h
  | inUse r =>
    rw [Bands.freeSlot_inUse hk]
    exact Slotted.congr (w := w.setSlot k (.free (w.frame + 1))) (h.setSlot (h.frame ▸ hQ.free k)) rfl rfl

theorem Slotted.foldl {β : Type} {g : FrameWork → β → FrameWork} (hg : ∀ w b, Slotted f Q w → Slotted f Q (g w b))
    (l : List β) : ∀ w, Slotted f Q w → Slotted f Q (l.foldl g w) := by
  induction l with
  | nil => exact fun _ h => h
  | cons b l ih => exact fun w h => ih (g w b) (hg w b h)

theorem Slotted.takeLosses (hQ : Stable may f Q) (h : Slotted f Q w) (lost : List (Nat × Nat)) (reason : EndReason) :
    Slotted f Q (w.takeLosses lost reason) := by
  refine Slotted.foldl (g := fun acc (l : Nat × Nat) => acc.loseChannels l.1 l.2 reason) (fun w l h => ?_) lost w h
  show Slotted f Q (w.loseChannels l.1 l.2 reason)
  unfold FrameWork.loseChannels
  split
  case h_1 => exact h
  case h_2 r hr =>
    split
    · exact h.freeSlot hQ l.1 reason
    · exact h.setSlot (hQ.count l.1 r _ (hr ▸ h.slot l.1))

theorem Slotted.lendFor (h : Slotted f Q w) (kind : SlotKind) : Slotted f Q (w.lendFor kind) := by
  cases kind <;> exact h.congr rfl rfl

theorem Slotted.requestSlot (hQ : Stable may f Q) (h : Slotted f Q w) (q : FrameWork.SlotRequest) :
    Slotted f Q (w.requestSlot q).1 := by
  unfold FrameWork.requestSlot
  split
  case isTrue => exact h
  case isFalse =>
    split
    case h_1 => exact h
    case h_2 k hk =>
      obtain ⟨a, hfree, ha⟩ := Shows.free_of_lowestFree hk
      have hstart (r : FadeRun) : Q k (.inUse r) := hQ.start k a r (h.frame ▸ ha) (hfree ▸ h.slot k)
      split
      case isTrue => exact Slotted.congr (h.setSlot (hstart _)) rfl rfl
      case isFalse =>
        have hbatch (t : Table Channel) : Slotted f Q (w.setChannels t) := h.congr rfl rfl
        dsimp only
        split
        case isTrue => exact (hbatch _).setSlot (h.frame ▸ hQ.free k)
        case isFalse =>
          have hstarted := (((hbatch (FrameWork.batchOf w.s.arbiter.channels q k).1).setSlot
            (hstart (FrameWork.allocated q w.frame (FrameWork.batchOf w.s.arbiter.channels q k).2.granted))).lendFor
              q.kind).takeLosses hQ (FrameWork.batchOf w.s.arbiter.channels q k).2.lost (FrameWork.takeoverReason q.kind)
          split
          · exact hstarted.congr rfl rfl
          · exact hstarted

theorem Slotted.endSlot (hQ : Stable may f Q) (h : Slotted f Q w) (k : Nat) : Slotted f Q (w.endSlot k) := by
  unfold FrameWork.endSlot
  split
  case h_1 => exact h
  case h_2 =>
    split
    · exact h.congr rfl rfl
    · have key (t : Table Channel) : Slotted f Q ((w.setChannels t).freeSlot k .ended) :=
        Slotted.freeSlot hQ (w := w.setChannels t) (h.congr rfl rfl) k .ended
      exact key _

/-- The runs of a playback are rewritten. -/
theorem Slotted.mapPlayback (h : Slotted f Q w) (p : Nat) (g : FadeRun → FadeRun)
    (hg : ∀ k r, r.playback = p → Q k (.inUse r) → Q k (.inUse (g r))) :
    Slotted f Q { w with s := { w.s with engine := w.s.engine.mapPlayback p g } } := by
  refine ⟨h.frame, Table.mapCells_wf _ _ _ h.wf, fun k => ?_⟩
  have hget := Table.get_mapCells FadeSlot.atReset (fun _ v => match v with
    | .inUse r => .inUse (if r.playback = p then g r else r)
    | .free a => .free a) w.s.engine.slots k rfl h.wf
  have hk := h.slot k
  show Q k ((w.s.engine.mapPlayback p g).slots.get FadeSlot.atReset k)
  cases hs : w.s.engine.slot k with
  | free a =>
    rw [show w.s.engine.slots.get FadeSlot.atReset k = .free a from hs] at hget
    rw [hs] at hk
    exact hget ▸ hk
  | inUse r =>
    rw [show w.s.engine.slots.get FadeSlot.atReset k = .inUse r from hs] at hget
    rw [hs] at hk
    have hQr : Q k (.inUse (if r.playback = p then g r else r)) := by
      split
      case isTrue hp => exact hg k r hp hk
      case isFalse => exact hk
    exact hget ▸ hQr

/-- Every move keeps the property. -/
theorem Slotted.move (hQ : Stable may f Q) (hm : Move may w v) (h : Slotted f Q w) : Slotted f Q v := by
  cases hm with
  | aside hv =>
    have hslots : v.s.engine.slots = w.s.engine.slots := congrArg (fun x : View => x.tables.slots) hv
    exact h.congr (congrArg (fun x : View => x.clock.frame) hv) (congrArg TransitionEngine.mk hslots)
  | strike t rep reason => exact Slotted.takeLosses hQ (w := w.setChannels t) (h.congr rfl rfl) _ _
  | request q => exact h.requestSlot hQ q
  | ends k => exact h.endSlot hQ k
  | pause p hp =>
    refine h.mapPlayback p _ fun k r hr hk => ?_
    split
    case isTrue hnone => exact h.frame ▸ hQ.pause k r (hr ▸ hp) hnone hk
    case isFalse => exact hk
  | resume p =>
    refine h.mapPlayback p _ fun k r _ hk => ?_
    split
    case h_1 q hq => exact h.frame ▸ hQ.resume k r q hq hk
    case h_2 => exact hk
  | answer a rest =>
    obtain ⟨u, st, records, l, hv, -⟩ := FrameWork.takeAnswer_is { w with answers := rest } a
    rw [hv]
    exact h.congr rfl rfl
  | arrival a rest =>
    obtain ⟨u, l, hv, -⟩ := FrameWork.takeArrival_is { w with intake := rest } a
    rw [hv]
    exact h.congr rfl rfl
  | resetEngine =>
    have hfreed := Slotted.foldl (fun w k h => h.freeSlot hQ k .showReset) w.s.engine.inUseSlots w h
    exact hfreed.congr rfl rfl
  | resetReport => exact Slotted.takeLosses hQ (w := { w with resetLosses := [] }) (h.congr rfl rfl) _ _
  | _ => exact h.congr rfl rfl

end Sys2Proof.Moves
end

section
/-! PROOFS. SHOW_RESET at its frame start: what every block is afterwards, and what each ends CANCELLED (R17, R32, R52,
R82, R98, R116, R128, R164). -/

namespace Sys2Proof.ShowResets

open Machine Safety Claims Moves Shows

/-! ## What the frame start leaves of the last levels -/

/-- No edit of a frame start changes a last level (R2). -/
theorem frameEdits_lasts {s t : State} (h : FrameEdits s t) (hwf : s.arbiter.channels.wf Channel.dark = true) :
    ∀ c, (t.arbiter.channel c).last = (s.arbiter.channel c).last := by
  have hkept : ChannelsKept s.arbiter.channels t.arbiter.channels := by
    refine h.keeps (P := fun t => ChannelsKept s.arbiter.channels t.arbiter.channels) (fun a b hab ha => ?_) (.refl _)
    cases hab with
    | arbiter t hk => exact ha.trans hk
    | arrival x =>
      obtain ⟨u, l, e, -⟩ := a.intakeArrival_joins x
      rw [e]; exact ha
    | _ => exact ha
  exact (hkept hwf).2

/-! ## The Frame Clock and Composer (R116, R164) -/

/-- A SHOW_RESET is staged for frame `f` as the composer's last entry of it, or it has been applied as such. -/
def ResetDue (f : Nat) (x : View) : Prop :=
  x.clock.frame = f ∧
  ((∃ before after e, x.clock.staged = before ++ e :: after ∧ e.request = .showReset ∧ e.frame = f ∧
      ∀ y ∈ after, y.frame ≠ f) ∨
    (x.resetSent = true ∧ (∀ y ∈ x.clock.staged, y.frame ≠ f) ∧ x.clock.parks = [] ∧ x.clock.master = 65535 ∧
      x.intakePause = false))

/-- What is looked at of the Frame Clock and the host stays. -/
theorem ResetDue.congr {f : Nat} {x y : View} (h : ResetDue f x) (hc : y.clock = x.clock)
    (hs : y.resetSent = x.resetSent) (hp : y.intakePause = x.intakePause) : ResetDue f y := by
  unfold ResetDue
  rw [hc, hs, hp]
  exact h

theorem ResetDue.struck {f : Nat} {w v : FrameWork} (h : ResetDue f (view w)) (hv : Struck w v) : ResetDue f (view v) := by
  obtain ⟨t, ⟨slots, scenes, hv, -⟩, -⟩ := hv
  rw [hv]
  exact h.congr rfl rfl rfl

/-- The composer's first due entry is taken: the SHOW_RESET that is the last one, or an entry before it. -/
theorem staged_after_take {f : Nat} {l before after rest : List (Staged ClockRequest)} {e x : Staged ClockRequest}
    (hl : l = before ++ e :: after) (he : e.frame = f) (h : takeStaged f l = some (x, rest)) :
    (x = e ∧ rest = before ++ after ∧ ∀ y ∈ before, y.frame ≠ f) ∨ ∃ before', rest = before' ++ e :: after := by
  subst hl
  induction before generalizing rest with
  | nil =>
    rw [List.nil_append, takeStaged, if_pos he] at h
    injection h with h
    injection h with hx hrest
    exact .inl ⟨hx.symm, hrest.symm, nofun⟩
  | cons b before ih =>
    rw [List.cons_append, takeStaged] at h
    split at h
    case isTrue =>
      injection h with h
      injection h with _ hrest
      exact .inr ⟨before, hrest.symm⟩
    case isFalse hb =>
      obtain ⟨⟨x', rest'⟩, hr, heq⟩ := Option.map_eq_some_iff.mp h
      cases heq
      rcases ih hr with ⟨hx, hrest, hnone⟩ | ⟨before', hrest⟩
      · exact .inl ⟨hx, congrArg (b :: ·) hrest, List.forall_mem_cons.mpr ⟨hb, hnone⟩⟩
      · exact .inr ⟨b :: before', congrArg (b :: ·) hrest⟩

/-- The answer to a read of load data leaves the intake pause. -/
theorem takeAnswer_intakePause (w : FrameWork) (a : LoadAnswer) :
    (w.takeAnswer a).s.host.intakePause = w.s.host.intakePause := by
  unfold FrameWork.takeAnswer
  split
  · rfl
  · obtain ⟨st, records, -, -, e | ⟨c, x, n, e⟩⟩ := loadAnswer_answered w.s w.frame a
    · rw [e]
    · rw [e]; exact HostUnit.complete_intakePause _ _ _ _

theorem resetDue_move {f : Nat} {may : PlaybackRequest → Prop} {w v : FrameWork} (hm : Move may w v)
    (h : ResetDue f (view w)) : ResetDue f (view v) := by
  cases hm with
  | aside hv => rw [hv]; exact h
  | strike t rep reason ha hb => exact h.struck (struck_strike t rep reason ha hb)
  | request q => exact h.struck (struck_requestSlot w q)
  | ends k => exact h.struck (struck_endSlot w k)
  | answer a rest =>
    have hp := takeAnswer_intakePause { w with answers := rest } a
    obtain ⟨u, st, records, l, hv, -⟩ := FrameWork.takeAnswer_is { w with answers := rest } a
    rw [hv] at hp ⊢
    exact h.congr rfl rfl hp
  | arrival a rest =>
    obtain ⟨hf, hdue | hdone⟩ := h
    · obtain ⟨u, l, hv, -⟩ := FrameWork.takeArrival_is { w with intake := rest } a
      rw [hv]
      exact ⟨hf, .inl hdue⟩
    · have heq : FrameWork.takeArrival { w with intake := rest } a = { w with intake := rest } := if_pos hdone.1
      rw [heq]
      exact ⟨hf, .inr hdone⟩
  | compose parks master hs =>
    obtain ⟨hf, hdue | hdone⟩ := h
    · exact ⟨hf, .inl hdue⟩
    · exact absurd (hs.symm.trans hdone.1) (by decide)
  | clock x rest parks master period hx hne =>
    obtain ⟨hf, ⟨before, after, e, hstaged, he, hef, hafter⟩ | ⟨-, hnone, -⟩⟩ := h
    · have hframe : w.frame = f := hf
      rw [hframe] at hx
      rcases staged_after_take hstaged hef hx with ⟨hxe, -, -⟩ | ⟨before', hrest⟩
      · exact absurd (hxe ▸ he) hne
      · exact ⟨hf, .inl ⟨before', after, e, hrest, he, hef, hafter⟩⟩
    · obtain ⟨b, a, hs, -, hfx, -⟩ := Transitions.firstDue_of_takeStaged hx
      exact absurd (hfx.trans hf) (hnone x (by rw [show (view w).clock.staged = _ from hs]; simp))
  | reset x rest hx =>
    obtain ⟨hf, ⟨before, after, e, hstaged, he, hef, hafter⟩ | ⟨-, hnone, -⟩⟩ := h
    · have hframe : w.frame = f := hf
      rw [hframe] at hx
      rcases staged_after_take hstaged hef hx with ⟨-, hrest, hbefore⟩ | ⟨before', hrest⟩
      · refine ⟨hf, .inr ⟨rfl, fun y hy => ?_, rfl, rfl, rfl⟩⟩
        rcases List.mem_append.1 (hrest ▸ hy) with hy | hy
        · exact hbefore y hy
        · exact hafter y hy
      · exact ⟨hf, .inl ⟨before', after, e, hrest, he, hef, hafter⟩⟩
    · obtain ⟨b, a, hs, -, hfx, -⟩ := Transitions.firstDue_of_takeStaged hx
      exact absurd (hfx.trans hf) (hnone x (by rw [show (view w).clock.staged = _ from hs]; simp))
  | resetEngine =>
    exact (h.struck (.unwritten (freed_inUseSlots w))).congr rfl rfl rfl
  | resetReport =>
    exact ResetDue.struck (w := { w with resetLosses := [] }) (h.congr rfl rfl rfl)
      (.unwritten (freed_resetReport w))
  | _ => exact h.congr rfl rfl rfl

/-! ## The fade slots -/

/-- A slot is IN_USE, FREE as it was, or FREE from the next frame on. -/
def freedFrom (s : State) (k : Nat) (x : FadeSlot) : Prop :=
  ∀ a, x = .free a → a = s.clock.frame + 2 ∨ s.engine.slot k = .free a

theorem freedFrom_stable (may : PlaybackRequest → Prop) (s : State) : Stable may (s.clock.frame + 1) (freedFrom s) where
  free _ _ h := by injection h with h; exact .inl h.symm
  start _ _ _ _ _ := nofun
  count _ _ _ _ := nofun
  pause _ _ _ _ _ := nofun
  resume _ _ _ _ _ := nofun

/-! ## The state after the frame start -/

theorem stamped_nil {ρ : Type} {f : Nat} {l : List (Staged ρ)} (h : FrameWork.dueCount f l = 0) : stamped f l = [] := by
  simpa [stamped, List.filter_eq_nil_iff] using Transitions.not_due_of_dueCount h

/-- The work of a frame start with a SHOW_RESET, when nothing is left of it. -/
theorem frameStart_showReset {s : State} (hc : canonical s) (course : FrameCourse) {before after : List (Staged ClockRequest)}
    {e : Staged ClockRequest} (hstaged : s.clock.staged = before ++ e :: after) (he : e.request = .showReset)
    (hf : e.frame = s.clock.frame + 1) (hafter : ∀ x ∈ after, x.frame ≠ s.clock.frame + 1) :
    ∃ w : FrameWork, s.frameStart course = w.s ∧ w.Sound ∧ w.Live ∧ w.Finished ∧ Cleared (view w) ∧
      ResetDue (s.clock.frame + 1) (view w) ∧ Slotted (s.clock.frame + 1) (freedFrom s) w := by
  have ⟨hchannels, _, hslots, _⟩ := hc
  exact frameStart_keeps (may := fun _ => True)
    (P := fun w => Cleared (view w) ∧ ResetDue (s.clock.frame + 1) (view w) ∧ Slotted (s.clock.frame + 1) (freedFrom s) w)
    (fun w v hm ⟨hcl, hr, hsl⟩ => ⟨cleared_move hm hcl, resetDue_move hm hr, hsl.move (freedFrom_stable _ s) hm⟩)
    (fun _ _ _ _ _ => trivial) (fun _ _ _ _ => trivial) hc course
    ⟨cleared_opening hchannels course, ⟨rfl, .inl ⟨before, after, e, hstaged, he, hf, hafter⟩⟩,
      ⟨rfl, hslots, fun _ _ h => .inr h⟩⟩

/-- After the frame start of a SHOW_RESET the show is empty. -/
theorem showReset_clears {s : State} (hc : canonical s) (course : FrameCourse) {before after : List (Staged ClockRequest)}
    {e : Staged ClockRequest} (hstaged : s.clock.staged = before ++ e :: after) (he : e.request = .showReset)
    (hf : e.frame = s.clock.frame + 1) (hafter : ∀ x ∈ after, x.frame ≠ s.clock.frame + 1) :
    ∃ t, exec (.frameStart course) s = .next t ∧
      (∀ c, t.arbiter.channel c = { holding := .free 0, last := (s.arbiter.channel c).last }) ∧
      (∀ i, t.store.scene i = Scene.none) ∧ t.store.freeBlocks = 2048 ∧ t.store.loads = [] ∧
      (∀ k, ∃ a, t.engine.slot k = .free a ∧ (a = s.clock.frame + 2 ∨ s.engine.slot k = .free a)) ∧
      (∀ p, t.controller.playback p = Playback.atReset) ∧ (∀ b, t.bands.band b = .undefined) ∧
      t.groups.hold = [] ∧ t.clock.parks = [] ∧ t.clock.master = 65535 ∧ t.host.intakePause = false ∧
      stamped (s.clock.frame + 1) t.controller.staged = [] ∧ stamped (s.clock.frame + 1) t.bands.staged = [] ∧
      stamped (s.clock.frame + 1) t.groups.commits = [] ∧ stamped (s.clock.frame + 1) t.clock.staged = [] := by
  obtain ⟨w, heq, hsound, hlive, hfin, hcl, ⟨hframe, hdue⟩, hslotted⟩ :=
    frameStart_showReset hc course hstaged he hf hafter
  have hframe : w.frame = s.clock.frame + 1 := hframe
  have hclock := hframe ▸ hfin.clock
  obtain ⟨hsent, -, hparks, hmaster, hpause⟩ := hdue.resolve_left fun ⟨b, a, x, hst, _, hx, _⟩ =>
    Transitions.not_due_of_dueCount hclock x (by rw [show w.s.clock.staged = _ from hst]; simp) hx
  obtain ⟨harb, hstore, hengine, hcontroller, hbands, hgroups⟩ := hfin.reset hsent
  obtain ⟨hscenes, hloads, hblocks⟩ := hcl.store hstore
  have hlasts := frameEdits_lasts (frameStart_edits s course) hc.1
  rw [heq] at hlasts
  refine ⟨s.frameStart course, rfl, ?_⟩
  rw [heq]
  refine ⟨fun c => ?_, fun i => ?_, hblocks, hloads, fun k => ?_, fun p => ?_, fun b => ?_, hcl.groups hgroups, hparks,
    hmaster, hpause, stamped_nil (hframe ▸ hfin.controller), stamped_nil (hframe ▸ hfin.bands),
    stamped_nil (hframe ▸ hfin.commits), stamped_nil hclock⟩
  · have hholding : (w.s.arbiter.channel c).holding = .free 0 := hcl.channels harb c
    rw [← hholding, ← hlasts c]
  · unfold SceneStore.scene
    rw [show w.s.store.scenes = Table.empty from hscenes]
    rfl
  · obtain ⟨a, ha⟩ := slots_free_of_idle hsound (hlive.idle hengine).1 k
    exact ⟨a, ha, hslotted.slot k a ha⟩
  · unfold PlaybackController.playback
    rw [(hlive.handled hcontroller).2.2]
    rfl
  · unfold BandUnit.band
    rw [show w.s.bands.records = Table.empty from hcl.bands hbands]
    rfl

/-! ## What each block ends CANCELLED -/

/-- Completions with status CANCELLED are handed over, each with its detail. -/
def cancelling (u : HostUnit) (l : List (Owed × Nat)) : HostUnit := l.foldl (fun u x => u.complete x.1 .cancelled x.2) u

theorem cancelled_host (l : List (Owed × Nat)) : ∀ s : State, (cancelled s l).host = cancelling s.host l := by
  induction l with
  | nil => exact fun _ => rfl
  | cons x l ih => exact fun s => ih (s.finish x.1 .cancelled x.2)

theorem cancelling_append (u : HostUnit) (l l' : List (Owed × Nat)) :
    cancelling u (l ++ l') = cancelling (cancelling u l) l' := List.foldl_append

theorem cancelOwed_host (l : List Owed) : ∀ w : FrameWork,
    (w.cancelOwed l).s.host = cancelling w.s.host (l.map fun o => (o, 0)) := by
  induction l with
  | nil => exact fun _ => rfl
  | cons o l ih => exact fun w => ih (w.finish o .cancelled 0)

theorem finishNows_host {β : Type} (f : β → Ctx) (l : List β) : ∀ s : State,
    (l.foldl (fun acc x => acc.finishNow (f x) .cancelled 0) s).host =
      cancelling s.host (l.map fun x => (owes (f x), 0)) := by
  induction l with
  | nil => exact fun _ => rfl
  | cons x l ih => exact fun s => ih (s.finishNow (f x) .cancelled 0)

theorem superseded_host (l : List (Nat × ReleaseRecord)) : ∀ w : FrameWork,
    (l.foldl (fun acc x => acc.finish x.2.owed .cancelled x.2.moved) w).s.host =
      cancelling w.s.host (l.map fun x => (x.2.owed, x.2.moved)) := by
  induction l with
  | nil => exact fun _ => rfl
  | cons x l ih => exact fun w => ih (w.finish x.2.owed .cancelled x.2.moved)

theorem cancelCues_host (l : List Cue) : ∀ w : FrameWork, (w.cancelCues l).s.host =
    cancelling w.s.host ((l.filter fun c => c.report = true).map fun c => (owes c.ctx, cueDetail c)) := by
  induction l with
  | nil => exact fun _ => rfl
  | cons c l ih =>
    intro w
    refine (ih (w.reportCue c .cancelled)).trans ?_
    by_cases hc : c.report = true
    · rw [List.filter_cons_of_pos (by simpa using hc), FrameWork.reportCue, if_pos hc]
      rfl
    · rw [List.filter_cons_of_neg (by simpa using hc), FrameWork.reportCue, if_neg hc]

theorem cancelPlayback_controller (w : FrameWork) (p : Nat) : (w.cancelPlayback p).s.controller = w.s.controller := by
  unfold FrameWork.cancelPlayback
  dsimp only
  split <;> exact FrameWork.cancelCues_controller _ _

theorem cancelPlayback_host (w : FrameWork) (p : Nat) :
    (w.cancelPlayback p).s.host = cancelling w.s.host (playbackOwes (w.s.controller.playback p)) := by
  unfold FrameWork.cancelPlayback playbackOwes
  dsimp only
  rw [cancelling_append, ← cancelCues_host]
  show _ = cancelling _ (match (w.playback p).releaseRecord with
    | some r => [(r.owed, r.moved)]
    | none => [])
  cases (w.playback p).releaseRecord <;> rfl

/-- The playbacks' cues and RELEASEs, one playback after the other. -/
theorem cancelPlaybacks_host (l : List Nat) : ∀ w : FrameWork, (l.foldl FrameWork.cancelPlayback w).s.host =
    cancelling w.s.host (l.flatMap fun p => playbackOwes (w.s.controller.playback p)) := by
  induction l with
  | nil => exact fun _ => rfl
  | cons p l ih =>
    intro w
    rw [List.foldl_cons, ih, cancelPlayback_controller, cancelPlayback_host, ← cancelling_append]
    rfl

/-- What an unfinished step owes. -/
theorem stepOwes_eq (c : ControllerStep) : FrameWork.ControllerStep.owed c = stepOwes c := by cases c <;> rfl

theorem showResetStore_host (w : FrameWork) : w.showResetStore.s.host = (cancelled w.s (sceneLoadsOwe w.s)).host := by
  refine (finishNows_host id (sceneRequests w.s.store.loads) w.s).trans ?_
  rw [cancelled_host]
  have howe : (sceneRequests w.s.store.loads).map (fun c => (owes (id c), 0)) = sceneLoadsOwe w.s := by
    unfold sceneRequests sceneLoadsOwe
    rw [List.map_filterMap]
    refine List.filterMap_congr fun l _ => ?_
    cases l.target <;> rfl
  rw [howe]

theorem showResetBands_host (w : FrameWork) : w.showResetBands.s.host = (cancelled w.s
    ((w.bandWaits.toList ++ (stamped w.s.clock.frame w.s.bands.staged).map Staged.owed ++ w.bandLoads.map owes).map
      (fun o => (o, 0)))).host :=
  (cancelOwed_host _ w).trans (cancelled_host _ w.s).symm

theorem cancelOwed_controller (w : FrameWork) (l : List Owed) : (w.cancelOwed l).s.controller = w.s.controller := by
  unfold FrameWork.cancelOwed
  induction l generalizing w with
  | nil => rfl
  | cons o l ih => exact ih (w.finish o .cancelled 0)

theorem showResetController_host (w : FrameWork) : w.showResetController.s.host = (cancelled w.s
    ((w.agenda.filterMap stepOwes ++ (stamped w.s.clock.frame w.s.controller.staged).map Staged.owed).map
        (fun o => (o, 0)) ++
      (List.range 16).flatMap (fun p => playbackOwes (w.s.controller.playback p)) ++
      w.superseded.map (fun x => (x.2.owed, x.2.moved)))).host := by
  have hsteps : w.agenda.filterMap stepOwes = w.agenda.filterMap FrameWork.ControllerStep.owed :=
    List.filterMap_congr fun c _ => (stepOwes_eq c).symm
  unfold FrameWork.showResetController
  dsimp only
  rw [superseded_host, cancelPlaybacks_host, cancelOwed_host, cancelOwed_host, cancelOwed_controller,
    cancelOwed_controller, cancelled_host, hsteps, List.map_append, cancelling_append, cancelling_append,
    cancelling_append]
  rfl

theorem showResetGroups_host (w : FrameWork) : w.showResetGroups.s.host = (cancelled w.s
    ((w.s.groups.hold.map (fun h => owes h.ctx) ++ (stamped w.s.clock.frame w.s.groups.commits).map Staged.owed).map
      (fun o => (o, 0)))).host := by
  unfold FrameWork.showResetGroups
  dsimp only
  rw [cancelOwed_host, cancelled_host, List.map_append, cancelling_append]
  refine congrArg (fun u => cancelling u _) ?_
  refine (finishNows_host HeldRequest.ctx w.s.groups.hold w.s).trans ?_
  rw [List.map_map]
  rfl

/-! ## The report on the show-reset order, and the slots that the notice frees (R10, R48, R52) -/

theorem takeResetReport_frees {w : FrameWork} (h : w.resetLosses.Pairwise fun a b => a.1 < b.1) :
    ∃ v : FrameWork, w.takeResetReport = v ∧
      v = { w with
        s := { w.s with engine := v.s.engine, store := returned w.s.store (emptied w.s.engine w.resetLosses) }
        notices := w.notices ++ endNotices .showReset (emptied w.s.engine w.resetLosses)
        resetLosses := [] } ∧
      ∀ j, afterLosses w.resetLosses w.s.clock.frame (w.s.engine.slot j) (v.s.engine.slot j) j := by
  have heq : w.takeResetReport = Bands.lossesTaken { w with resetLosses := [] }
      (w.resetLosses.foldl (Bands.loseIn w.frame) w.s.engine) w.resetLosses .showReset :=
    Bands.takeLosses_eq h { w with resetLosses := [] } .showReset
  refine ⟨_, heq, rfl, fun j => ?_⟩
  exact Bands.foldl_loseIn_afterLosses h w.s.clock.frame w.s.engine j

/-- Slots that are IN_USE are freed, each with its notice. -/
theorem freeSlots_notices (reason : EndReason) (l : List (Nat × FadeRun)) : ∀ w : FrameWork,
    (l.map Prod.fst).Nodup → (∀ x ∈ l, w.s.engine.slot x.1 = .inUse x.2) →
    ((l.map Prod.fst).foldl (fun acc k => acc.freeSlot k reason) w).notices = w.notices ++ endNotices reason l := by
  induction l with
  | nil => exact fun w _ _ => (List.append_nil _).symm
  | cons x l ih =>
    intro w hnodup hslots
    obtain ⟨hx, hrest⟩ := List.nodup_cons.1 hnodup
    have hfree := Bands.freeSlot_inUse (hslots x (List.mem_cons_self ..)) reason
    rw [List.map_cons, List.foldl_cons, ih (w.freeSlot x.1 reason) hrest fun y hy => ?_, hfree]
    · exact List.append_assoc ..
    · rw [hfree]
      show (w.s.engine.setSlot x.1 _).slot y.1 = _
      have hne : y.1 ≠ x.1 := fun he => hx (he ▸ List.mem_map_of_mem hy)
      rw [TransitionEngine.slot_setSlot, if_neg hne]
      exact hslots y (List.mem_cons_of_mem _ hy)

/-- The run of a listed slot that is IN_USE. -/
def runOf (x : Nat × FadeSlot) : Option (Nat × FadeRun) :=
  match x.2 with
  | .inUse r => some (x.1, r)
  | .free _ => none

theorem inUseSlots_eq (e : TransitionEngine) : e.inUseSlots = (e.slots.cells.filterMap runOf).map Prod.fst := by
  unfold TransitionEngine.inUseSlots Table.keysWhere
  induction e.slots.cells with
  | nil => rfl
  | cons x l ih =>
    obtain ⟨k, v⟩ := x
    cases v with
    | inUse r => exact congrArg (k :: ·) ih
    | free a => exact ih

theorem showResetEngine_notices {w : FrameWork} (h : w.s.engine.slots.wf FadeSlot.atReset = true) :
    w.showResetEngine.notices = w.notices ++ endNotices .showReset (w.s.engine.slots.cells.filterMap runOf) := by
  have hrising := ((Table.wf_iff FadeSlot.atReset _).mp h).1
  show (w.s.engine.inUseSlots.foldl (fun acc k => acc.freeSlot k .showReset) w).notices = _
  rw [inUseSlots_eq]
  refine freeSlots_notices .showReset _ w ?_ fun x hx => ?_
  · rw [← inUseSlots_eq]
    exact (Transitions.nodup_keys_of_rising hrising).sublist (List.filter_sublist.map Prod.fst)
  · obtain ⟨⟨k, v⟩, hmem, hrun⟩ := List.mem_filterMap.1 hx
    cases v with
    | free a => cases hrun
    | inUse r =>
      injection hrun with hrun
      subst hrun
      exact Table.lookup_of_mem FadeSlot.atReset _ none hrising _ hmem

/-- Settles O56: every move keeps what the show reset has cleared, and when nothing is left every block has taken its
notice; what each hands over is read off its part of the show reset. -/
theorem showResetClearsTheShow : Obligations.ShowResetClearsTheShow := by
  refine ⟨fun course s before after e hc hstaged he hf hafter => showReset_clears hc course hstaged he hf hafter, fun w =>
    ⟨fun _ => rfl, showResetStore_host w, showResetBands_host w, fun s f => rfl, showResetController_host w,
      showResetGroups_host w, rfl, takeResetReport_frees, fun hc => ?_⟩⟩
  obtain ⟨-, -, hslots, -⟩ := hc
  exact showResetEngine_notices hslots

end Sys2Proof.ShowResets
end

section
/-! PROOFS. What the host interface brings in the midst of a frame start: which requests may join the hold list, and what
stays of the queues (R119, R120, R162, R166). -/

namespace Sys2Proof.Arrivals

open Machine Moves

/-! ## The queues -/

/-- Tails and heads that software writes stay, and no fence wait comes up. -/
structure Still (u v : HostUnit) : Prop where
  tails : ∀ n, (v.sq n).tail = (u.sq n).tail
  heads : ∀ m, (v.cq m).head = (u.cq m).head
  fences : ∀ q x, fenceOf v q = some x → fenceOf u q = some x

namespace Still

theorem refl (u : HostUnit) : Still u u := ⟨fun _ => rfl, fun _ => rfl, fun _ _ => id⟩

theorem trans {u v x : HostUnit} (h : Still u v) (h' : Still v x) : Still u x :=
  ⟨fun n => (h'.tails n).trans (h.tails n), fun m => (h'.heads m).trans (h.heads m), fun q y hy => h.fences q y (h'.fences q y hy)⟩

/-- The fetch and the last granted queue. -/
theorem traffic (u : HostUnit) (fetch : Option Fetch) (last : Nat) :
    Still u { u with fetch := fetch, lastGranted := last } := ⟨fun _ => rfl, fun _ => rfl, fun _ _ => id⟩

theorem intakePause (u : HostUnit) (b : Bool) : Still u { u with intakePause := b } :=
  ⟨fun _ => rfl, fun _ => rfl, fun _ _ => id⟩

/-- A completion queue is written, with its head as it was. -/
theorem setCq (u : HostUnit) (m : Nat) {c : CompletionQueue} (h : c.head = (u.cq m).head) : Still u (u.setCq m c) := by
  refine ⟨fun _ => rfl, fun j => ?_, fun _ _ => id⟩
  rw [HostUnit.cq_setCq]
  split
  case isTrue hj => exact hj ▸ h
  case isFalse => rfl

theorem complete (u : HostUnit) (o : Owed) (st : Status) (n : Nat) : Still u (u.complete o st n) := by
  refine ⟨fun q => ?_, fun m => ?_, fun q x hx => (congrFun (fenceOf_complete u o st n) q) ▸ hx⟩
  · rw [HostUnit.sq_complete]
    split <;> rfl
  · rw [HostUnit.cq_complete]
    split <;> rfl

/-- A record is taken: no fence wait of its queue is left (R164, R166). -/
theorem advance (u : HostUnit) (q : Nat) : Still u (u.advance q) := by
  refine ⟨fun n => ?_, fun _ => rfl, fun n x hx => ?_⟩
  · unfold HostUnit.advance
    rw [HostUnit.sq_setSq]
    split
    case isTrue hn => rw [hn]
    case isFalse => rfl
  · unfold HostUnit.advance fenceOf at hx
    rw [HostUnit.sq_setSq] at hx
    split at hx
    case isTrue => cases hx
    case isFalse => exact hx

theorem grant (u : HostUnit) (q : Nat) : Still u (u.grant q) :=
  (setCq u (u.sq q).boundCq (c := { u.cq (u.sq q).boundCq with reserved := (u.cq (u.sq q).boundCq).reserved + 1 }) rfl).trans
    (traffic _ _ _)

theorem dropFetch (u : HostUnit) (q : Nat) : Still u (u.dropFetch q) :=
  (setCq u (u.sq q).boundCq (c := { u.cq (u.sq q).boundCq with reserved := (u.cq (u.sq q).boundCq).reserved - 1 }) rfl).trans
    (traffic _ _ _)

end Still

/-! ## What joins -/

/-- A request of the hold list was held before, or is what a record spells that `given` allows. -/
def JoinsFrom (given : RequestRecord → Prop) (s t : State) : Prop :=
  ∀ h ∈ t.groups.hold, h ∈ s.groups.hold ∨
    ∃ r k, given r ∧ Kind.ofCode r.kind = some k ∧ requestOf k r.body = .groupable h.request

/-- What an arrival may bring, where `given` names its record and those of the fence waits. -/
structure Brings (given : RequestRecord → Prop) (s t : State) : Prop where
  tails : ∀ n, (t.host.sq n).tail = (s.host.sq n).tail
  heads : ∀ m, (t.host.cq m).head = (s.host.cq m).head
  fences : ∀ q x, fenceOf t.host q = some x → fenceOf s.host q = some x ∨ given x
  joins : JoinsFrom given s t

variable {given : RequestRecord → Prop}

theorem Brings.still {s : State} {u : HostUnit} (h : Still s.host u) : Brings given s { s with host := u } :=
  ⟨h.tails, h.heads, fun q x hx => .inl (h.fences q x hx), fun _ hh => .inl hh⟩

/-- The host unit alone was changed before. -/
theorem Brings.after {s t : State} {u : HostUnit} (h : Still s.host u) (h' : Brings given { s with host := u } t) :
    Brings given s t :=
  ⟨fun n => (h'.tails n).trans (h.tails n), fun m => (h'.heads m).trans (h.heads m),
    fun q x hx => (h'.fences q x hx).imp_left (h.fences q x), h'.joins⟩

theorem requestOf_of_formatCheck {components : Nat → Nat} {r : RequestRecord} {q : Request}
    (h : formatCheck components r = .passed q) : ∃ k, Kind.ofCode r.kind = some k ∧ requestOf k r.body = q ∧
      ¬(r.body.group ≠ 0 ∧ k.groupable = false) := by
  unfold formatCheck at h
  split at h
  · cases h
  · rename_i k hk
    unfold checkKind at h
    split at h
    · cases h
    · split at h
      · cases h
      · split at h
        · cases h
        · rename_i hg
          split at h
          · cases h
          · injection h with h
            exact ⟨k, hk, h, fun hn => hg (.inr hn)⟩

/-- A record that carries a group is completed at intake, or its request joins the hold list. -/
theorem checkAndRoute_brings (s : State) (ctx : Ctx) {r : RequestRecord} (hr : given r) (h : carriesGroup r.body = true) :
    Brings given s (s.checkAndRoute ctx r) := by
  have done : ∀ st n, Brings given s (s.finishNow ctx st n) := fun st n => .still (.complete _ _ _ _)
  have h0 : r.body.group.toNat ≠ 0 := fun e => of_decide_eq_true h (BitVec.eq_of_toNat_eq e)
  unfold State.checkAndRoute
  split
  case h_1 => exact done _ _
  case h_2 => exact done _ _
  case h_3 q hq =>
    obtain ⟨k, hk, he, hgroupable⟩ := requestOf_of_formatCheck hq
    have hgr : k.groupable = true := by
      cases hb : k.groupable with
      | true => rfl
      | false => exact absurd ⟨fun e => h0 (by rw [e]; rfl), hb⟩ hgroupable
    obtain ⟨g, hg⟩ := requestOf_groupable k r.body hgr
    rw [← he, hg]
    show Brings given s (if r.body.group.toNat = 0 then _ else _)
    rw [if_neg h0]
    unfold State.holdRequest
    split
    case isTrue => exact done _ _
    case isFalse =>
      refine ⟨fun _ => rfl, fun _ => rfl, fun _ _ => .inl, fun x hx => ?_⟩
      rcases List.mem_append.1 hx with hx | hx
      · exact .inl hx
      · obtain rfl := List.mem_singleton.1 hx
        exact .inr ⟨r, k, hr, hk, hg⟩

theorem takeRecord_brings (s : State) (q : Nat) {r : RequestRecord} (hr : given r) (h : carriesGroup r.body = true) :
    Brings given s (s.takeRecord q r) :=
  .after (.advance _ q) (checkAndRoute_brings { s with host := s.host.advance q } _ hr h)

/-- The fetched record becomes its queue's fence wait (R166). -/
theorem holdFence_brings (s : State) (q : Nat) {r : RequestRecord} (hr : given r) :
    Brings given s { s with host := s.host.holdFence q r } := by
  refine ⟨fun n => ?_, fun _ => rfl, fun n x hx => ?_, fun _ => .inl⟩
  · show ((s.host.setSq q _).sq n).tail = _
    rw [HostUnit.sq_setSq]
    split
    case isTrue hn => rw [hn]
    case isFalse => rfl
  · change Option.map FenceWait.record ((s.host.setSq q _).sq n).fence = some x at hx
    rw [HostUnit.sq_setSq] at hx
    split at hx
    case isTrue => injection hx with hx; exact .inr (hx ▸ hr)
    case isFalse => exact .inl hx

/-- Whatever the host interface brings in the midst of a frame start. -/
theorem intakeArrival_brings (s : State) (a : IntakeArrival) (hrecord : ∀ r, a = .record r → given r)
    (hfence : ∀ q r, fenceOf s.host q = some r → given r) : Brings given s (s.intakeArrival a) := by
  cases a with
  | grant =>
    show Brings given s s.intakeGrant
    unfold State.intakeGrant
    split
    · exact .still (.refl _)
    · split
      · exact .still (.grant _ _)
      · exact .still (.refl _)
  | record r =>
    show Brings given s (if carriesGroup r.body then s.recordArrives r else s)
    split
    case isFalse => exact .still (.refl _)
    case isTrue hg =>
      unfold State.recordArrives
      split
      case h_1 => exact .still (.refl _)
      case h_2 x _ =>
        split
        case isTrue => exact .still (.dropFetch _ _)
        case isFalse =>
          dsimp only
          refine Brings.after (u := { s.host with fetch := none }) (.traffic s.host none s.host.lastGranted) ?_
          split
          case isTrue => exact holdFence_brings { s with host := { s.host with fetch := none } } x.sq (hrecord r rfl)
          case isFalse => exact takeRecord_brings _ x.sq (hrecord r rfl) hg
  | fenced q =>
    show Brings given s (if (s.host.sq q.val).fence.any (fun w => carriesGroup w.record.body) then s.takeFenced q.val else s)
    split
    case isFalse => exact .still (.refl _)
    case isTrue hg =>
      unfold State.takeFenced
      split
      case h_1 => exact .still (.refl _)
      case h_2 x hx =>
        rw [hx] at hg
        split
        case isTrue => exact takeRecord_brings s q.val (hfence q.val x.record (by unfold fenceOf; rw [hx]; rfl)) hg
        case isFalse => exact .still (.refl _)

end Sys2Proof.Arrivals
end

section
/-! PROOFS. The end of a slot (R11, R12, R47, R49, R50), and what a lend and a return do (R23). -/

namespace Sys2Proof.SlotEnds

open Machine Safety Claims Moves Shows Arrivals

/-! ## No PAUSE of a playback comes at a frame start -/

/-- The record is not a PAUSE of playback `p`. -/
def noPauseOf (p : Nat) (r : RequestRecord) : Prop := r.kind = Kind.pause.code → field r.body 8 1 ≠ p

/-- No PAUSE of playback `p` is due at frame `f`, held, released or brought. -/
structure NoPause (p f : Nat) (x : View) : Prop where
  frame : x.clock.frame = f
  staged : ∀ e ∈ x.staged, e.frame = f → e.request ≠ .pause p
  held : ∀ h ∈ x.hold, h.request ≠ .playback (.pause p)
  released : ∀ y ∈ x.toController, y.2 ≠ .pause p
  brought : ∀ r, .record r ∈ x.intake → noPauseOf p r
  fenced : ∀ q r, x.fences q = some r → noPauseOf p r

variable {p f : Nat} {may : PlaybackRequest → Prop} {w v : FrameWork}

theorem NoPause.congr {x y : View} (h : NoPause p f x) (hc : y.clock.frame = x.clock.frame) (hs : y.staged = x.staged)
    (hh : y.hold = x.hold) (ht : y.toController = x.toController) (hi : y.intake = x.intake) (hf : y.fences = x.fences) :
    NoPause p f y :=
  ⟨hc.trans h.frame, hs ▸ h.staged, hh ▸ h.held, ht ▸ h.released, hi ▸ h.brought, hf ▸ h.fenced⟩

theorem NoPause.struck (h : NoPause p f (view w)) (hv : Struck w v) : NoPause p f (view v) := by
  obtain ⟨t, ⟨slots, scenes, hv, -⟩, -⟩ := hv
  rw [hv]
  exact h.congr rfl rfl rfl rfl rfl rfl

/-- A held PAUSE of playback `p` is what a PAUSE record of that playback spells. -/
theorem not_pause_of_joins {r : RequestRecord} {k : Kind} {q : GroupRequest} (hr : noPauseOf p r)
    (hk : Kind.ofCode r.kind = some k) (hq : requestOf k r.body = .groupable q) : q ≠ .playback (.pause p) := by
  rintro rfl
  have hcode : k.code = r.kind := of_decide_eq_true (List.find?_some (p := fun k : Kind => decide (k.code = r.kind)) hk)
  cases k with
  | pause =>
    injection hq with hq
    injection hq with hq
    injection hq with hq
    exact hr hcode.symm hq
  | _ => cases hq

/-- An answer to a read of load data leaves the fence waits. -/
theorem takeAnswer_fences (w : FrameWork) (a : LoadAnswer) : fenceOf (w.takeAnswer a).s.host = fenceOf w.s.host := by
  unfold FrameWork.takeAnswer
  split
  · rfl
  · obtain ⟨st, records, -, -, e | ⟨c, x, n, e⟩⟩ := loadAnswer_answered w.s w.frame a
    · rw [e]
    · rw [e]; exact fenceOf_complete _ _ _ _

theorem NoPause.takeArrival (h : NoPause p f (view w)) {a : IntakeArrival} {rest : List IntakeArrival}
    (ha : w.intake = a :: rest) : NoPause p f (view ({ w with intake := rest }.takeArrival a)) := by
  have hrest : NoPause p f (view { w with intake := rest }) :=
    { h with brought := fun r hr => h.brought r (by
        rw [show (view w).intake = a :: rest from ha]; exact List.mem_cons_of_mem _ hr) }
  unfold FrameWork.takeArrival
  split
  · exact hrest
  · have hb := intakeArrival_brings (given := noPauseOf p) w.s a
      (fun r hr => h.brought r (by rw [show (view w).intake = a :: rest from ha, hr]; exact List.mem_cons_self ..)) h.fenced
    obtain ⟨u, l, hv, -⟩ := w.s.intakeArrival_joins a
    have hfences := hb.fences
    have hjoins := hb.joins
    rw [hv] at hfences hjoins
    have hheld : ∀ x ∈ l, x.request ≠ .playback (.pause p) := by
      intro x hx
      rcases hjoins x hx with hx | ⟨r, k, hr, hk, hq⟩
      · exact h.held x hx
      · exact not_pause_of_joins hr hk hq
    show NoPause p f (view { w with intake := rest, s := w.s.intakeArrival a })
    rw [hv]
    exact { hrest with held := hheld, fenced := fun q r hr => (hfences q r hr).elim (h.fenced q r) id }

theorem noPause_move (hm : Move may w v) (h : NoPause p f (view w)) : NoPause p f (view v) := by
  cases hm with
  | aside hv => rw [hv]; exact h
  | strike t rep reason ha hb => exact h.struck (struck_strike t rep reason ha hb)
  | request q => exact h.struck (struck_requestSlot w q)
  | ends k => exact h.struck (struck_endSlot w k)
  | answer a rest =>
    have hf := takeAnswer_fences { w with answers := rest } a
    obtain ⟨u, st, records, l, hv, -⟩ := FrameWork.takeAnswer_is { w with answers := rest } a
    rw [hv] at hf ⊢
    exact h.congr rfl rfl rfl rfl rfl hf
  | arrival a rest ha => exact h.takeArrival ha
  | unstage l hl => exact { h with staged := fun e he => h.staged e (hl.subset he) }
  | released x rest hx =>
    exact { h with released := fun y hy => h.released y (by
      rw [show (view w).toController = x :: rest from hx]; exact List.mem_cons_of_mem _ hy) }
  | commit hold l hs hl =>
    refine { h with held := fun x hx => h.held x (hs.subset hx), released := fun y hy => ?_ }
    rcases List.mem_append.1 hy with hy | hy
    · exact h.released y hy
    · obtain ⟨x, hx, hrequest⟩ := hl y hy
      exact fun he => h.held x hx (by rw [hrequest, he])
  | resetGroups => exact { h with held := nofun }
  | resetEngine =>
    exact (h.struck (.unwritten (freed_inUseSlots w))).congr rfl rfl rfl rfl rfl rfl
  | resetReport =>
    exact NoPause.struck (w := { w with resetLosses := [] }) (h.congr rfl rfl rfl rfl rfl rfl)
      (.unwritten (freed_resetReport w))
  | _ => exact h.congr rfl rfl rfl rfl rfl rfl

/-! ## The slot -/

/-- Slot `k` runs on as it did, but for the channels that it has lost; or it is FREE from the next frame on. -/
def runsOrEnded (k f : Nat) (r : FadeRun) (j : Nat) (x : FadeSlot) : Prop :=
  j = k → x = .free (f + 1) ∨ ∃ n, x = .inUse { r with count := n }

/-- Without a PAUSE of its playback a running slot runs on until it is freed; then it is not available at this frame. -/
theorem runsOrEnded_stable {r : FadeRun} (hr : r.pausedAt = none) (k f : Nat) :
    Stable (fun q => q ≠ .pause r.playback) f (runsOrEnded k f r) where
  free _ _ := .inl rfl
  start j a run ha h hj := by
    obtain h | ⟨n, h⟩ := h hj
    · injection h with h; omega
    · cases h
  count j run n h hj := by
    obtain h | ⟨m, h⟩ := h hj
    · cases h
    · injection h with h; subst h; exact .inr ⟨n, rfl⟩
  pause j run hmay _ h hj := by
    obtain h | ⟨m, h⟩ := h hj
    · cases h
    · injection h with h; subst h; exact absurd rfl hmay
  resume j run q hq h hj := by
    obtain h | ⟨m, h⟩ := h hj
    · cases h
    · injection h with h; subst h; exact absurd (hr.symm.trans hq) nofun

/-- A running slot whose end frame this is, is FREE after the frame start, unless a PAUSE of its playback may come. -/
theorem frameStart_freesSlot {s : State} (hc : canonical s) (course : FrameCourse) {k : Nat} {r : FadeRun}
    (hk : s.engine.slot k = .inUse r) (hr : r.pausedAt = none)
    (hend : r.start + r.length + r.accumulatedPause = s.clock.frame + 1)
    (hstaged : ∀ e ∈ stamped (s.clock.frame + 1) s.controller.staged, e.request ≠ .pause r.playback)
    (hheld : ∀ h ∈ s.groups.hold, h.request ≠ .playback (.pause r.playback)) (hjoins : noPauseJoins course s r.playback) :
    (s.frameStart course).engine.slot k = .free (s.clock.frame + 2) := by
  have ⟨_, _, hslots, _⟩ := hc
  obtain ⟨hintake, hfences⟩ := hjoins
  have hopening : NoPause r.playback (s.clock.frame + 1) (view (Playbacks.opening course s)) :=
    { frame := rfl
      staged := fun e he hf => hstaged e (List.mem_filter.2 ⟨he, decide_eq_true hf⟩)
      held := hheld, released := nofun, brought := hintake
      fenced := fun q x hx => by
        obtain ⟨y, hy, rfl⟩ := Option.map_eq_some_iff.1 (show (s.host.sq q).fence.map FenceWait.record = some x from hx)
        exact hfences q y hy }
  obtain ⟨w, heq, -, -, hfin, hno, hw⟩ := frameStart_keeps (may := fun q => q ≠ .pause r.playback)
    (P := fun w => NoPause r.playback (s.clock.frame + 1) (view w) ∧
      Slotted (s.clock.frame + 1) (runsOrEnded k (s.clock.frame + 1) r) w)
    (fun w v hm ⟨hno, hw⟩ => ⟨noPause_move hm hno, hw.move (runsOrEnded_stable hr k _) hm⟩)
    (fun w ⟨hno, _⟩ e he hf => hno.staged e he (hf.trans hno.frame)) (fun w ⟨hno, _⟩ => hno.released) hc course
    ⟨hopening, rfl, hslots, fun j hj => .inr ⟨r.count, by rw [hj]; exact hk⟩⟩
  rw [heq]
  obtain hfree | ⟨n, hrun⟩ := hw.slot k rfl
  · exact hfree
  · have hmem : k ∈ w.s.engine.ending w.frame :=
      (Transitions.mem_ending hw.wf).mpr ⟨_, hrun, hr, hend.trans hw.frame.symm⟩
    rw [hfin.slots.2.2] at hmem
    cases hmem

/-! ## The end itself (R11, R12, R47, R50) -/

theorem endSlot_inUse {w : FrameWork} {k : Nat} {r : FadeRun} (ha : w.resetArbiter = false)
    (hk : w.s.engine.slot k = .inUse r) :
    w.endSlot k =
      { w with
        s := { w.s with
          arbiter :=
            { channels := match r.kind with
                | .cue _ _ => (settleOrder w.s.arbiter.channels k).1
                | .release => (releaseEndOrder w.s.arbiter.channels k).1 }
          engine := { slots := w.s.engine.slots.set FadeSlot.atReset k (.free (w.s.clock.frame + 1)) }
          store := returned w.s.store [(k, r)] }
        notices := w.notices ++ endNotices .ended [(k, r)] } := by
  have hfree (t : Table Channel) := Bands.freeSlot_inUse (w := w.setChannels t) hk .ended
  unfold FrameWork.endSlot
  rw [hk]
  dsimp only
  rw [if_neg (by rw [ha]; decide), hfree]
  cases r.kind <;> rfl

theorem endSlot_free {w : FrameWork} {k a : Nat} (h : w.s.engine.slot k = .free a) : w.endSlot k = w := by
  unfold FrameWork.endSlot
  rw [h]

/-! ## Lends and returns (R23) -/

theorem lend_scene (t : SceneStore) (id j : Nat) : (t.lend id).scene j =
    if j = id ∧ (t.scene id).state = .ready then { t.scene j with useCount := (t.scene j).useCount + 1 } else t.scene j := by
  unfold SceneStore.lend
  by_cases hr : (t.scene id).state = .ready
  · rw [if_pos hr, SceneStore.scene_setScene]
    by_cases hj : j = id
    · rw [if_pos hj, if_pos ⟨hj, hr⟩, hj]
    · rw [if_neg hj, if_neg fun h => hj h.1]
  · rw [if_neg hr, if_neg fun h => hr h.2]

theorem giveBack_scene (t : SceneStore) (id j : Nat) : (t.giveBack id).scene j =
    if j = id then { t.scene j with useCount := (t.scene j).useCount - 1 } else t.scene j := by
  unfold SceneStore.giveBack
  rw [SceneStore.scene_setScene]
  split
  case isTrue hj => rw [hj]
  case isFalse => rfl

/-- Settles O45: no move but a PAUSE keeps a running slot from its end, and at the end of the frame start none whose end
frame this is runs. -/
theorem slotsReachTheirEnd : Obligations.SlotsReachTheirEnd :=
  ⟨fun course s _ _ hc hk hr hend => ⟨fun hstaged hheld hjoins =>
      ⟨s.frameStart course, rfl, frameStart_freesSlot hc course hk hr hend hstaged hheld hjoins⟩,
      Starts.frameStart_endsSlot course.picks hc⟩,
    fun _ _ _ => endSlot_inUse, fun _ _ _ => endSlot_free, fun t id j => ⟨lend_scene t id j, giveBack_scene t id j⟩⟩

end Sys2Proof.SlotEnds
end

section
/-! PROOFS. What FRAME_START leaves alone in every state and every order of its work (R2, R24, R55, R58, R100, R101,
R119). -/

namespace Sys2Proof.FrameStarts

open Machine Safety Claims Moves Shows Arrivals Playbacks

/-! ## What every edit of a frame start leaves -/

/-- The Host Queue Unit without its queues, its record writes, its fetch and the intake pause. -/
def hostRest (u : HostUnit) : HostUnit :=
  { u with
    submission := Table.empty, completion := Table.empty, writes := [], intakePause := false, fetch := none,
    lastGranted := 0 }

/-- What is left alone between two states of a frame start. -/
structure Kept (s t : State) : Prop where
  lasts : ChannelsKept s.arbiter.channels t.arbiter.channels
  supply : t.supply = s.supply
  ports : ∀ k, (t.ports.port k).line = (s.ports.port k).line ∧ (t.ports.port k).accepted = (s.ports.port k).accepted
  frame : t.clock.frame = s.clock.frame
  clock : t.clock.acceptedPeriod = s.clock.acceptedPeriod ∧ t.clock.safe = s.clock.safe ∧ t.clock.reads = s.clock.reads
  clockStaged : t.clock.staged.Sublist s.clock.staged
  controllerStaged : t.controller.staged.Sublist s.controller.staged
  bandsStaged : t.bands.staged.Sublist s.bands.staged
  portsStaged : t.ports.staged.Sublist s.ports.staged
  commits : t.groups.commits.Sublist s.groups.commits
  loads : ∃ k, t.store.loads.map asQueued = (s.store.loads.drop k).map asQueued
  notices : (t.store.notices.filter fun x => decide (x.frame ≠ s.clock.frame)).Sublist
    (s.store.notices.filter fun x => decide (x.frame ≠ s.clock.frame))
  nextLoad : t.store.nextLoad = s.store.nextLoad
  playbacks : ∀ p, PlaybackKept (s.controller.playback p) (t.controller.playback p)
  host : hostRest t.host = hostRest s.host
  tails : ∀ n, (t.host.sq n).tail = (s.host.sq n).tail
  heads : ∀ m, (t.host.cq m).head = (s.host.cq m).head
  pending : t.pending = s.pending

theorem Kept.refl (s : State) : Kept s s where
  lasts := .refl _
  supply := rfl
  ports _ := ⟨rfl, rfl⟩
  frame := rfl
  clock := ⟨rfl, rfl, rfl⟩
  clockStaged := .refl _
  controllerStaged := .refl _
  bandsStaged := .refl _
  portsStaged := .refl _
  commits := .refl _
  loads := ⟨0, rfl⟩
  notices := .refl _
  nextLoad := rfl
  playbacks _ := .refl _
  host := rfl
  tails _ := rfl
  heads _ := rfl
  pending := rfl

theorem PlaybackKept.trans {p q r : Playback} (h : PlaybackKept p q) (h' : PlaybackKept q r) : PlaybackKept p r := by
  obtain ⟨hp, hf⟩ := h
  obtain ⟨hp', hf'⟩ := h'
  exact ⟨hp'.trans hp, hf'.trans (Nat.max_le.mpr ⟨hf, Nat.le_max_right _ _⟩)⟩

/-- The host unit and the hold list alone are changed. -/
theorem Kept.brought {s t : State} (hs : Kept s t) {u : HostUnit} (hrest : hostRest u = hostRest t.host)
    (htails : ∀ n, (u.sq n).tail = (t.host.sq n).tail) (hheads : ∀ m, (u.cq m).head = (t.host.cq m).head)
    (hold : List HeldRequest) : Kept s { t with host := u, groups := { t.groups with hold := hold } } :=
  { hs with
    host := hrest.trans hs.host, tails := fun n => (htails n).trans (hs.tails n)
    heads := fun m => (hheads m).trans (hs.heads m) }

theorem hostRest_complete (u : HostUnit) (o : Owed) (st : Status) (n : Nat) :
    hostRest (u.complete o st n) = hostRest u := by
  unfold HostUnit.complete
  split <;> rfl

/-- Every edit of a frame start leaves it. -/
theorem Kept.edit {s a b : State} (h : FrameEdit a b) (hs : Kept s a) : Kept s b := by
  cases h with
  | finish o st n =>
    have hstill := Still.complete a.host o st n
    exact hs.brought (hostRest_complete _ _ _ _) hstill.tails hstill.heads a.groups.hold
  | arbiter t h => exact { hs with lasts := hs.lasts.trans h }
  | engine e h => exact { hs with }
  | controller c h =>
    obtain ⟨-, hstaged, -, hplaybacks⟩ := h
    exact { hs with
      controllerStaged := hstaged.trans hs.controllerStaged
      playbacks := fun p => PlaybackKept.trans (hs.playbacks p) (hplaybacks p) }
  | store t h =>
    obtain ⟨-, ⟨k', hloads'⟩, hnotices, hnext⟩ := h
    obtain ⟨k, hloads⟩ := hs.loads
    refine { hs with
      loads := ⟨k + k', ?_⟩, notices := (hs.frame ▸ hnotices).trans hs.notices, nextLoad := hnext.trans hs.nextLoad }
    show t.loads.map Load.fixed = _
    rw [hloads', List.map_drop]
    change (a.store.loads.map asQueued).drop k' = _
    rw [hloads, ← List.map_drop, List.drop_drop]
  | bands u h => exact { hs with bandsStaged := h.2.trans hs.bandsStaged }
  | clock c h =>
    obtain ⟨hframe, hperiod, hsafe, hreads, hstaged, -⟩ := h
    obtain ⟨hperiod', hsafe', hreads'⟩ := hs.clock
    exact { hs with
      frame := hframe.trans hs.frame
      clock := ⟨hperiod.trans hperiod', hsafe.trans hsafe', hreads.trans hreads'⟩
      clockStaged := hstaged.trans hs.clockStaged }
  | groups g h => exact { hs with commits := h.2.trans hs.commits }
  | ports u h =>
    obtain ⟨-, hstaged, hports⟩ := h
    exact { hs with
      portsStaged := hstaged.trans hs.portsStaged
      ports := fun k => ⟨(hports k).1.trans (hs.ports k).1, (hports k).2.trans (hs.ports k).2⟩ }
  | intake => exact { hs with host := hs.host }
  | arrival x =>
    have hb := intakeArrival_brings (given := fun _ => True) a x (fun _ _ => trivial) fun _ _ _ => trivial
    obtain ⟨u, l, heq, hserved, -⟩ := a.intakeArrival_joins x
    have htails := hb.tails
    have hheads := hb.heads
    rw [heq] at htails hheads ⊢
    have hrest : hostRest u = hostRest a.host := by rw [hserved.rest]; rfl
    exact hs.brought hrest htails hheads l

/-! ## Arrivals, load data and fetches (R24, R119, R164) -/

/-- What has joined the hold list, what load data has done, and that nothing is fetched where nothing arrives. -/
structure Fed (course : FrameCourse) (s : State) (x : View) : Prop where
  held : ∃ joined : List HeldRequest, joined.length + x.intake.length ≤ course.intake.length ∧
    x.hold.Sublist (s.groups.hold ++ joined)
  loads : noLoadEnds course s → (x.answers = [] ∧ x.tables.loads = s.store.loads) ∨ x.tables.loads = []
  fetch : course.intake = [] → x.intake = [] ∧ x.fetch = s.host.fetch ∧ x.lastGranted = s.host.lastGranted

variable {course : FrameCourse} {s : State} {may : PlaybackRequest → Prop} {w v : FrameWork}

theorem Fed.congr {x y : View} (h : Fed course s x) (hi : y.intake = x.intake) (hh : y.hold = x.hold)
    (ha : y.answers = x.answers) (hl : y.tables.loads = x.tables.loads) (hf : y.fetch = x.fetch)
    (hg : y.lastGranted = x.lastGranted) : Fed course s y :=
  ⟨by rw [hi, hh]; exact h.held, by rw [ha, hl]; exact h.loads, by rw [hi, hf, hg]; exact h.fetch⟩

theorem Fed.struck (h : Fed course s (view w)) (hv : Struck w v) : Fed course s (view v) := by
  obtain ⟨t, ⟨slots, scenes, hv, -⟩, -⟩ := hv
  rw [hv]
  exact h.congr rfl rfl rfl rfl rfl rfl

/-- An answer to a read of load data leaves the fetch. -/
theorem takeAnswer_fetch (w : FrameWork) (a : LoadAnswer) : (w.takeAnswer a).s.host.fetch = w.s.host.fetch ∧
    (w.takeAnswer a).s.host.lastGranted = w.s.host.lastGranted := by
  unfold FrameWork.takeAnswer
  split
  · exact ⟨rfl, rfl⟩
  · obtain ⟨st, records, -, -, e | ⟨c, x, n, e⟩⟩ := loadAnswer_answered w.s w.frame a
    · rw [e]; exact ⟨rfl, rfl⟩
    · rw [e]; exact ⟨HostUnit.complete_fetch _ _ _ _, HostUnit.complete_lastGranted _ _ _ _⟩

theorem Fed.answered (h : Fed course s (view w)) {a : LoadAnswer} {rest : List LoadAnswer} (ha : w.answers = a :: rest) :
    Fed course s (view ({ w with answers := rest }.takeAnswer a)) := by
  have hloads : noLoadEnds course s → ({ w with answers := rest }.takeAnswer a).s.store.loads = [] := by
    intro hno
    obtain ⟨hnil, -⟩ | hnone := h.loads hno
    · exact absurd (ha.symm.trans hnil) (List.cons_ne_nil _ _)
    · obtain ⟨l, hv⟩ := takeAnswer_of_no_load (w := { w with answers := rest }) hnone a
      rw [hv]
      exact hnone
  obtain ⟨hfetch, hlast⟩ := takeAnswer_fetch { w with answers := rest } a
  obtain ⟨u, st, records, l, hv, -⟩ := FrameWork.takeAnswer_is { w with answers := rest } a
  rw [hv] at hloads hfetch hlast ⊢
  exact
    { held := h.held
      loads := fun hno => .inr (hloads hno)
      fetch := fun hnone => by
        obtain ⟨hi, hf, hg⟩ := h.fetch hnone
        exact ⟨hi, hfetch.trans hf, hlast.trans hg⟩ }

theorem Fed.arrived (h : Fed course s (view w)) {a : IntakeArrival} {rest : List IntakeArrival}
    (ha : w.intake = a :: rest) : Fed course s (view ({ w with intake := rest }.takeArrival a)) := by
  obtain ⟨joined, hlen, hsub⟩ := h.held
  have hlen : joined.length + (rest.length + 1) ≤ course.intake.length := by
    rw [show (view w).intake = a :: rest from ha, List.length_cons] at hlen; exact hlen
  have harrives : course.intake ≠ [] := by
    intro hnil
    rw [hnil, List.length_nil] at hlen
    omega
  obtain ⟨u, l, hv, -, hgrown⟩ := FrameWork.takeArrival_is { w with intake := rest } a
  rw [hv]
  refine { held := ?_, loads := h.loads, fetch := fun hnil => absurd hnil harrives }
  obtain rfl | ⟨x, rfl, -⟩ := hgrown
  · exact ⟨joined, by show joined.length + rest.length ≤ _; omega, hsub⟩
  · refine ⟨joined ++ [x], ?_, ?_⟩
    · show (joined ++ [x]).length + rest.length ≤ _
      rw [List.length_append, List.length_singleton]
      omega
    · rw [← List.append_assoc]
      exact hsub.append (List.Sublist.refl [x])

theorem fed_move (hm : Move may w v) (h : Fed course s (view w)) : Fed course s (view v) := by
  cases hm with
  | aside hv => rw [hv]; exact h
  | strike t rep reason ha hb => exact h.struck (struck_strike t rep reason ha hb)
  | request q => exact h.struck (struck_requestSlot w q)
  | ends k => exact h.struck (struck_endSlot w k)
  | answer a rest ha => exact h.answered ha
  | arrival a rest ha => exact h.arrived ha
  | commit hold l hs =>
    obtain ⟨joined, hlen, hsub⟩ := h.held
    exact { h with held := ⟨joined, hlen, hs.trans hsub⟩ }
  | resetStore => exact { h with loads := fun _ => .inr rfl }
  | resetGroups =>
    obtain ⟨joined, hlen, -⟩ := h.held
    exact { h with held := ⟨joined, hlen, List.nil_sublist _⟩ }
  | resetEngine =>
    exact (h.struck (.unwritten (freed_inUseSlots w))).congr rfl rfl rfl rfl rfl rfl
  | resetReport =>
    exact Fed.struck (w := { w with resetLosses := [] }) (h.congr rfl rfl rfl rfl rfl rfl)
      (.unwritten (freed_resetReport w))
  | _ => exact h.congr rfl rfl rfl rfl rfl rfl

theorem fed_opening (course : FrameCourse) (s : State) : Fed course s (view (opening course s)) where
  held := ⟨[], Nat.le_of_eq (Nat.zero_add _), (List.append_nil s.groups.hold).symm ▸ List.Sublist.refl _⟩
  loads h := h.imp (fun ha => ⟨ha, rfl⟩) id
  fetch h := ⟨h, rfl, rfl⟩

/-! ## The frame start -/

theorem kept_frameStart (s : State) (course : FrameCourse) :
    Kept (opening course s).s (s.frameStart course) :=
  (frameStart_edits s course).keeps (fun _ _ => Kept.edit) (.refl _)

/-- The host unit is what it was but for its queues, its record writes, its fetch and the intake pause. -/
theorem host_of_hostRest {u v : HostUnit} (h : hostRest v = hostRest u) :
    v = { u with
      submission := v.submission, completion := v.completion, writes := v.writes, intakePause := v.intakePause,
      fetch := v.fetch, lastGranted := v.lastGranted } := by
  have hv : v = { hostRest v with
      submission := v.submission, completion := v.completion, writes := v.writes, intakePause := v.intakePause,
      fetch := v.fetch, lastGranted := v.lastGranted } := rfl
  rw [h] at hv
  exact hv

/-- The notices that are left are some of those that there were before. -/
theorem notices_of_finished {l l' : List LoadEndNotice} {f : Nat} (hnone : ∀ x ∈ l', x.frame ≠ f)
    (h : (l'.filter fun x => decide (x.frame ≠ f)).Sublist (l.filter fun x => decide (x.frame ≠ f))) : l'.Sublist l := by
  rw [List.filter_eq_self.2 fun x hx => decide_eq_true (hnone x hx)] at h
  exact h.trans List.filter_sublist

/-- No pending list grows, the heads being set first (R55, R59). -/
theorem playbackKept_of_setHeads {c c' : PlaybackController} (hwf : c.playbacks.wf Playback.atReset = true) {f period p : Nat}
    (h : PlaybackKept ((c.setHeads f period).playback p) (c'.playback p)) : PlaybackKept (c.playback p) (c'.playback p) := by
  rw [Invariants.playback_setHeads hwf] at h
  obtain ⟨hpending, hflight⟩ := Invariants.setHead_length (c.playback p) f period
  obtain ⟨hp, hf⟩ := h
  exact ⟨hpending ▸ hp, hflight ▸ hf⟩

/-- Settles O31: the work is a path of pieces, of which every edit and every move leaves what the statement names. -/
theorem frameStartAdvancesTheFrame : Obligations.FrameStartAdvancesTheFrame := by
  intro course s hc
  have ⟨hchannels, _, _, hplaybacks, _⟩ := hc
  have hk := kept_frameStart s course
  obtain ⟨u, hexec, hworks⟩ := frameStart_works course hc
  have hnext : Host.Outcome.next (s.frameStart course) = .next u.s := hexec
  have hu : u.s = s.frameStart course := (Host.Outcome.next.inj hnext).symm
  obtain ⟨w, heq, -, -, hfin, hfed⟩ := frameStart_keeps (may := fun _ => True) (P := fun w => Fed course s (view w))
    (fun _ _ => fed_move) (fun _ _ _ _ _ => trivial) (fun _ _ _ _ => trivial) hc course (fed_opening course s)
  obtain ⟨joined, hlen, hsub⟩ := hfed.held
  have hframe : w.frame = s.clock.frame + 1 := by
    have hf := hk.frame
    rw [heq] at hf
    exact hf
  refine ⟨s.frameStart course, rfl, hk.frame,
    ⟨opening course s, u, rfl, hu, hworks, rfl, rfl, rfl, rfl, rfl, rfl, rfl, rfl, rfl, rfl, rfl⟩, (hk.lasts hchannels).2,
    hk.supply, hk.ports, hk.clock.1, hk.clock.2.1, hk.clock.2.2, hk.clockStaged, hk.controllerStaged, hk.bandsStaged,
    hk.portsStaged, hk.commits, ⟨joined, Nat.le_of_add_right_le hlen, heq ▸ hsub⟩, fun hno => ?_, hk.loads,
    notices_of_finished (fun x hx => ?_) hk.notices, hk.nextLoad, fun p => playbackKept_of_setHeads hplaybacks (hk.playbacks p),
    host_of_hostRest hk.host, fun hnone => ?_, hk.tails, hk.heads, hk.pending⟩
  · rw [heq]
    exact (hfed.loads hno).imp And.right id
  · rw [heq] at hx
    exact fun he => hfin.loadEnds x hx (he.trans hframe.symm)
  · rw [heq]
    exact (hfed.fetch hnone).2

end Sys2Proof.FrameStarts
end
